-- ==== Sys2Proof/Word.lean ====
section
/-! DEFINITION. The word types of the model and the counts of the engine's parts (R14, R35, R36). -/
namespace Sys2Proof

/-- A byte of a memory (R10). -/
abbrev Byte := BitVec 8
/-- A 128-bit tile command (R187). -/
abbrev CmdWord := BitVec 128
/-- Tiles are numbered 0 to 47 across the engine (R14). -/
abbrev TileId := Fin 48
/-- Partitions are numbered 0 to 3 (R14). -/
abbrev PartId := Fin 4
/-- Piste ports are numbered 0 and 1 (R27). -/
abbrev PortId := Fin 2
/-- Queues are numbered 0 to 15 within a partition. -/
abbrev QueueId := Fin 16
/-- Stations of a Piste star are numbered 0 to 11. -/
abbrev StnId := Fin 12

end Sys2Proof
end

