-- ==== Sys2Proof/Syntax.lean ====
section
/-! DEFINITION. The commands of the block: one constructor of `Instr` per row of spec/opcode_table.json, with the
operands that the outside world or the hardware's own events bring. Where a fault of the hardware decides what a
command does (an upset bit, a training failure), the fault is an operand. -/
namespace Sys2Proof

/-- A fault of the array's main path (R113, R117). `step` counts the steps that the command runs, from 0. -/
inductive Upset where
  /-- the lane value is off by `delta`, its residue is not -/
  | lane (step : Nat) (lane : Fin 128) (delta : Int)
  /-- byte `byte` of the step's image is read with bad parity -/
  | parity (step : Nat) (byte : Fin 1024)
  /-- staging bin (`slot`, `index`) of a BIN step is off by `delta`, its residue is not (R235) -/
  | bin (step : Nat) (slot index : Fin 16) (delta : Int)
  deriving DecidableEq, Repr

/-- Flipped bits of a stored word: symbol `sym` of the word or burst is XORed with `mask`. In a scratchpad word the
symbols are its 128 bytes and then the 4 × 3 check bytes; in a burst, its 64 bytes and then 3 check bytes. -/
structure Flip where
  sym : Nat
  mask : Byte
  deriving DecidableEq, Repr

/-- What an access does at its address. -/
inductive Access where
  | read (len : Nat)
  | write (bytes : List Byte)
  deriving DecidableEq, Repr

/-- Another request presented at the same bank: its port (class order, then peer), the bypass count it arrives
with, its word, the byte of the word at which it begins, and what it does there (R251, R267). -/
structure Rival where
  port : Fin 8
  count : Nat
  word : Fin 2048
  byte : Fin 128
  acc : Access
  deriving DecidableEq, Repr

/-- The arbiters between a requester and a memory controller or a tile (R268). -/
inductive ArbLevel where
  | tile | fabric | engine | memory
  deriving DecidableEq, Repr

/-- Another request that stands at an arbiter which a request passes: the arbiter's level, its port there, and the
bypass count it arrives with (R267, R268). -/
structure Contender where
  level : ArbLevel
  port : Nat
  count : Nat
  deriving DecidableEq, Repr

/-- The way of a request: partition, local tile and unit that issue it, and who else stands at the arbiters that it
passes (R268). -/
structure Path where
  part : PartId
  tile : Fin 12
  unit : Fin 4
  others : List Contender
  deriving DecidableEq, Repr

/-- Where a request comes from: its originator class (R267) and its way. -/
structure Origin where
  cls : Nat
  path : Path
  deriving DecidableEq, Repr

/-- The second read of a corrected burst: the upsets that it meets, and whether the write-back before it comes late, after
further requests (R296, R301). -/
structure Reread where
  flips : List Flip
  late : Bool
  deriving DecidableEq, Repr

/-- An atomic add to a burst: the addend of each of its words, and the upsets of its read and of the second read
(R303, R305). -/
structure Addends where
  words : List (Option (BitVec 32))
  flips : List Flip
  again : List Flip
  deriving DecidableEq, Repr

/-- A history operation: its byte, its way, and the upsets of its read and of the second read (R170, R305). -/
structure HistoryPush where
  byte : Byte
  path : Path
  flips : List Flip
  again : List Flip
  deriving DecidableEq, Repr

/-- The source classes of a register write (R362). -/
inductive SrcClass where
  | host | xsrc | fw | other
  /-- an access by the debug port (R446) -/
  | debug
  /-- an access by the debug port that has proved to be the vendor's (R446) -/
  | vendor
  deriving DecidableEq, Repr

/-- A gate's name: its index, and whether it is global (R361). -/
structure GateRef where
  index : Nat
  global : Bool
  deriving DecidableEq, Repr

/-! ### Piste (chapter 10) -/

/-- A Piste message: the fields of R338 and its data bytes. -/
structure Msg where
  type : Nat
  dst : Nat
  dpart : PartId
  moved : Bool
  last : Bool
  seq : Nat
  oseq : Nat
  arg : BitVec 64
  data : List Byte
  deriving DecidableEq, Repr

/-- One entry of the acknowledgement field (R335). -/
structure AckEntry where
  rxNext : Nat
  depoch : Nat
  valid : Bool
  deriving DecidableEq, Repr

/-- A frame (R333, R334): header fields, messages, acknowledgement entries, and the key that seals it. -/
structure Frame where
  stn : Nat
  part : PartId
  wl : Fin 4
  slot : Fin 16
  epoch : Nat
  depoch : Nat
  lap : Nat
  job : BitVec 32
  kgen : Nat
  mapver : Nat
  msgs : List Msg
  acks : List AckEntry
  key : BitVec 128
  deriving DecidableEq, Repr

/-- Who sent a message: station, partition and the epoch in the frame header (R334). -/
structure Sender where
  stn : StnId
  part : PartId
  epoch : Nat
  deriving DecidableEq, Repr

/-- What a station hears of its own burst on one wavelength (R324, R330, R356). -/
inductive EchoResult where
  /-- a burst: the bytes of its codewords, its round trip in blocks, and whether energy from another burst lies within its
  preamble -/
  | heard (burst : List Byte) (rtt : Nat) (energy : Bool)
  /-- no echo at all -/
  | missing
  deriving DecidableEq, Repr

/-! ### The recovery UART (R444) -/

/-- A frame on the recovery UART, less its SYNC bytes: TYPE, SEQ, payload (of LEN bytes) and the CRC that it carries. -/
structure UartFrame where
  type : Byte
  seq : Byte
  payload : List Byte
  crc : BitVec 16
  deriving DecidableEq, Repr

/-- A package that the mailbox's INSTALL reads, and, where power is lost or the device is reset while the bundle and its tag
area are written, after how many of their bytes (R439, R440). -/
structure Package where
  bytes : List Byte
  cut : Option Nat
  deriving DecidableEq, Repr

/-! ### The SoC's answer to a system-port request (R311, R45) -/

/-- Read data, a completed write, or a refusal. -/
inductive SysAnswer where
  | data (bytes : List Byte)
  | done
  | refused
  deriving DecidableEq, Repr

/-- The commands. -/
inductive Instr where
  /-- COMMAND_FETCH (R185): The sequencer fetches the next 16-byte command as a lift-engine access; a refused fetch ends the list. -/
  | commandFetch (g : TileId)
  /-- COMMAND_ACCEPT (R189): The sequencer checks the command at the head and accepts it when its unit holds fewer than two uncompleted commands; a failed check refuses it. -/
  | commandAccept (g : TileId)
  /-- NOP (R220): NOP completes at acceptance; with LAST it ends the list. -/
  | nop (g : TileId)
  /-- SWEEP (R202): SWEEP runs rows through the lookup loop into a target buffer, which enters FILL at acceptance. -/
  | sweep (g : TileId)
  /-- DIRECT (R203): DIRECT runs per-channel int8 products into a target buffer, using direct-mode steps. -/
  | direct (g : TileId)
  /-- DRAIN (R208): DRAIN converts rows of a buffer into activation or raw I32 blocks at its destination. -/
  | drain (g : TileId)
  /-- BOOK (R210): BOOK copies book content into the book store and tags each book, with the C8P range check. -/
  | book (g : TileId)
  /-- MOVE (R211): MOVE copies bytes from source to destination in pieces of up to 128 bytes. -/
  | move (g : TileId)
  /-- ATOMIC (R213): ATOMIC adds buffer rows into partition memory, or into a remote station's memory as ATOM_ADD messages. -/
  | atomic (g : TileId)
  /-- BIN (R231): BIN forms gradient bins in staging rows and promotes the reduced values or centroid sums into bin rows. -/
  | bin (g : TileId)
  /-- UPDATE (R241): UPDATE latches its descriptor and moment books, then applies an Adam-style step to book or parameter elements. -/
  | update (g : TileId)
  /-- GATE_WAIT (R215): GATE_WAIT holds the sequencer until a gate reaches its effective threshold, or ends on a gate error. -/
  | gateWait (g : TileId)
  /-- GATE_SIGNAL (R217): GATE_SIGNAL waits for earlier commands, then adds INC to a local gate or sends a remote gate signal. -/
  | gateSignal (g : TileId)
  /-- FENCE (R218): FENCE holds the sequencer until earlier commands on the named units have completed. -/
  | fence (g : TileId)
  /-- MARK (R219): MARK writes a trace record, after earlier commands if AFTER is set, and may assert ENG_ALERT_N. -/
  | mark (g : TileId)
  /-- STAT (R209): STAT takes an indivisible copy of a statistics context after earlier drains and writes it as a record. -/
  | stat (g : TileId)
  /-- LIST_END (R194): The list ends when its LAST command and every earlier command have completed. -/
  | listEnd (g : TileId)
  /-- WINDOW_LOAD (R108): The weight window loads the P step images of a super-chunk, and the array starts no step of it until the load completes. -/
  | windowLoad (g : TileId)
  /-- BUILD_TABLES (R91): Once its half is released, the table builder reads codes and the book, writes 16 slot tables with residues and posts TABLE_READY. -/
  | buildTables (g : TileId)
  /-- RUN_STEP (R88): The lookup array makes 2,048 lookups into lane entries and posts TABLE_FREE. -/
  | runStep (g : TileId) (ups : List Upset)
  /-- DIRECT_STEP (R103): In direct mode, each lane adds four int8 products into its lane entry. -/
  | directStep (g : TileId) (ups : List Upset)
  /-- RESIDUE_RETRY (R113): After a residue mismatch, the tile clears the lane entry and reruns the row's pass, then classifies the result as transient, lasting or over the limit. -/
  | residueRetry (g : TileId) (ups : List Upset)
  /-- PROMOTION (R126): A lane entry row is shifted, rounded and added into or written over the I32 row, with saturation and row-state updates. -/
  | promotion (g : TileId)
  /-- ACC_HOLD_RELEASE (R147): A command held on a buffer in FILL or OUT is released when the holder's token posts or its last access completes. -/
  | accHoldRelease (g : TileId)
  /-- DRAIN_ROW (R158): The CNV reads, requantises, rotates, scales and quantises one row and writes its row record. -/
  | drainRow (g : TileId)
  /-- HISTORY_REPLY (R171): A history reply reaches the CNV, which takes Lmax from the returned word to choose the segment scale. -/
  | historyReply (g : TileId)
  /-- BIN_STEP (R231): The bin adder writes staging bins for one gradient row and step, and the builder forms reduced values or centroid sums. -/
  | binStep (g : TileId) (ups : List Upset)
  /-- UPDATE_ELEMENT (R244): UPDATE decodes, re-encodes and steps one element, then writes its codes and parameter. -/
  | updateElement (g : TileId)
  /-- BOOK_WRITE_RELEASE (R82): A book write held behind a compute command takes effect when that command ends. -/
  | bookWriteRelease (g : TileId)
  /-- LUT_WRITE_RELEASE (R87): A LUT write held behind a DRAIN takes effect when the DRAIN ends. -/
  | lutWriteRelease (g : TileId)
  /-- SPD_READ (R254): A master's read of a scratchpad word is arbitrated, region-checked, decoded and corrected, or refused. -/
  | spdRead (g : TileId) (src : Origin) (addr len : Nat) (rivals : List Rival) (flips : List Flip)
  /-- SPD_WRITE (R252): A master's write to a scratchpad word replaces codewords or merges partial codewords indivisibly, or is refused. -/
  | spdWrite (g : TileId) (src : Origin) (addr : Nat) (bytes : List Byte) (rivals : List Rival) (flips : List Flip)
  /-- SPD_ECC_WRITEBACK (R255): In a free arbitration, the bank writes back a corrected codeword and re-reads it to class the error as transient or lasting. -/
  | spdEccWriteback (g : TileId) (flips : List Flip)
  /-- SPD_SCRUB (R258): Every INTERVAL OC, the scrubber reads the next word of an ON bank. -/
  | spdScrub (g : TileId) (flips : List Flip)
  /-- BANK_WAKE_DONE (R265): A waking bank reaches ON after its wake and any zero-fill, and releases the accesses it held. -/
  | bankWakeDone (g : TileId) (bank : Fin 16)
  /-- PEER_ACCESS (R133): An access by a peer tile, the lift engine, the control core or Piste reaches a tile's accumulator buffer, book store or LUTs. -/
  | peerAccess (g : TileId) (cls : Nat) (src : TileId) (addr : Nat) (acc : Access)
  /-- APERTURE_ACCESS (R39): A host access through the partition aperture acts at the selected tile as a host-window master access. -/
  | apertureAccess (p : PartId) (off size : Nat) (acc : Access)
  /-- LFT_START (R272): A write of LFT_GO.START starts the lift list. -/
  | lftStart (g : TileId)
  /-- LFT_ABORT (R285): A write of LFT_GO.ABORT stops the lift list at its next piece boundary. -/
  | lftAbort (g : TileId)
  /-- LIFT_DESCRIPTOR (R273): The lift engine copies one lift descriptor, with book tagging, the CRC check and a gate signal. -/
  | liftDescriptor (g : TileId)
  /-- LIFT_PIECE (R271): A lift piece completes when its last write is acknowledged. -/
  | liftPiece (g : TileId)
  /-- SWITCH_LIST_RUN (R274): After a swap changes LFT_SWITCH, the lift engine runs the switch list before any other lift work. -/
  | switchListRun (g : TileId)
  /-- MC_READ (R296): The memory controller reads a burst, checks it against its check block and corrects it or refuses the access. `late`: the corrected write-back waits (R301). -/
  | mcRead (p : PartId) (src : Origin) (off len : Nat) (flips : List Flip) (again : Reread)
  /-- MC_WRITE (R295): The memory controller writes whole bursts or merges partial bursts indivisibly, with fresh check bytes. -/
  | mcWrite (p : PartId) (src : Origin) (off : Nat) (bytes : List Byte) (flips again : List Flip)
  /-- MC_ATOMIC_ADD (R303): The memory-side adder applies up to 16 saturating int32 adds to one burst indivisibly. -/
  | mcAtomicAdd (p : PartId) (src : Origin) (off : Nat) (adds : Addends)
  /-- HISTORY_PUSH (R170): The memory controller shifts a history word and inserts L, returning the old word. -/
  | historyPush (p : PartId) (off : Nat) (push : HistoryPush)
  /-- HISTORY_MERGE (R170): The memory controller replaces slot 0 of a history word by the maximum of slot 0 and L, returning the old word. -/
  | historyMerge (p : PartId) (off : Nat) (push : HistoryPush)
  /-- MERGE_EVICT (R306): The merge buffer writes an evicted burst back to the stack. -/
  | mergeEvict (p : PartId) (c : Fin 2)
  /-- MC_SCRUB (R300): Every INTERVAL OC, the patrol scrubber reads the next data group and its check block. -/
  | mcScrub (p : PartId) (c : Fin 2) (burst : Fin 21) (flips : List Flip) (again : Reread)
  /-- MR4_POLL (R288): Every 100,000 OC, the controller reads MR4 and sets the refresh rate and THROT. -/
  | mr4Poll (p : PartId) (c : Fin 2) (codes : List (BitVec 3))
  /-- WCK2DQ_RETUNE (R288): Every 200,000 OC, the controller runs the WCK2DQ oscillators and retunes each channel. -/
  | wck2dqRetune (p : PartId) (c : Fin 2)
  /-- MEM_TRAINING (R287): The controller runs ZQ, command/address, levelling and DQ training on every channel. -/
  | memTraining (p : PartId) (c : Fin 2) (pass : List Bool)
  /-- SYS_REQUEST (R308): The system port arbitrates an engine request and hands it to the SoC fabric, holding it under back-pressure when the fabric does not accept it. -/
  | sysRequest (accepted : Bool)
  /-- SYS_REPLY (R311): The SoC fabric returns a read, a write completion or a refusal for a request. -/
  | sysReply (id : Nat) (answer : SysAnswer)
  /-- SYS_TIMEOUT (R313): A request with no reply within SYS_TMO OC ends with ERR_SYS_TIMEOUT. -/
  | sysTimeout (id : Nat)
  /-- SYS_GRANT_CHANGE (R314): The SoC system manager changes the engine's share of system-stack bandwidth. -/
  | sysGrantChange (share : BitVec 16)
  /-- SLOT_START (R325): At the start of a lap slot, the owner transmits its frames, with a HEARTBEAT on wavelength 0, if the preamble can arrive in time. -/
  | slotStart (n : PortId) (inTime : Bool) (randSlot : Fin 16) (randWl : Fin 4)
  /-- SLOT_SILENT (R323): A slot in which no burst begins within SILENCE OC ends as silent. -/
  | slotSilent (n : PortId)
  /-- FRAME_RX (R337): A receiver decodes and authenticates a frame, classifies it, and processes its acknowledgement field and messages. -/
  | frameRx (n : PortId) (burst : List Byte)
  /-- ECHO_CHECK (R330): A station compares the echo of its own burst and counts a collision or a garbled echo. -/
  | echoCheck (n : PortId) (wl : Fin 4) (echo : EchoResult) (draw : Nat)
  /-- BACKOFF_EXPIRY (R331): A contender's backoff of 1 to 2^min(n,6) laps ends, and it contends again. -/
  | backoffExpiry (n : PortId)
  /-- RETRANSMIT (R342): After RTX_TMO OC without acknowledgement, the sender resends all unacknowledged messages to that destination. -/
  | retransmit (n : PortId) (stn : StnId)
  /-- WRITE (R344): An inbound WRITE message writes the partition memory of DPART and is answered with WRITE_ACK. -/
  | write (n : PortId) (src : Sender) (msg : Msg)
  /-- WRITE_ACK (R348): A WRITE_ACK returns the status of a remote write to the transfer that issued it. -/
  | writeAck (n : PortId) (src : Sender) (msg : Msg)
  /-- READ (R344): An inbound READ message reads the partition memory of DPART and is answered with READ_DATA. -/
  | read (n : PortId) (src : Sender) (msg : Msg)
  /-- READ_DATA (R348): READ_DATA returns data and status to a remote-read transfer, which writes the data locally. -/
  | readData (n : PortId) (src : Sender) (msg : Msg)
  /-- ATOM_ADD (R350): A delivered ATOM_ADD is split into atomic add requests at the owner and counted in its matching reduction window. -/
  | atomAdd (n : PortId) (src : Sender) (msg : Msg)
  /-- GATE_SIG (R343): An inbound GATE_SIG adds to a global gate after earlier messages of its stream have completed, subject to the PISTE mask. -/
  | gateSig (n : PortId) (src : Sender) (msg : Msg)
  /-- HEARTBEAT (R345): A HEARTBEAT updates the recorded epochs and states of the sender's partitions. -/
  | heartbeat (n : PortId) (src : Sender) (msg : Msg)
  /-- FENCE_MESSAGE (R345): A FENCE message ends an epoch of a remote partition, and later messages carrying that epoch are dropped. -/
  | fenceMessage (n : PortId) (src : Sender) (msg : Msg)
  /-- JOIN (R354): The job master answers a JOIN with a JOIN_ACK that gives new epochs. -/
  | join (n : PortId) (src : Sender) (msg : Msg)
  /-- JOIN_ACK (R354): A JOIN_ACK makes the joiner a member, and every member restarts its streams with it at SEQ 0. -/
  | joinAck (n : PortId) (src : Sender) (msg : Msg)
  /-- LEAVE (R355): A LEAVE marks the sender DOWN at once. -/
  | leave (n : PortId) (src : Sender) (msg : Msg)
  /-- LAPMAP (R328): A LAPMAP message distributes a new lap map with its version and effective lap. -/
  | lapmap (n : PortId) (src : Sender) (msg : Msg)
  /-- LAPMAP_ADOPT (R328): At the start of lap EFF_LAP, a station adopts the distributed map. -/
  | lapmapAdopt (n : PortId)
  /-- PEER_DOWN (R355): After DOWN_LAPS laps without an accepted frame, a member marks a station DOWN, ends its transfers, taints windows and discards messages to it. -/
  | peerDown (n : PortId) (stn : StnId)
  /-- STAR_DOWN (R356): A port whose own echo or signal is lost enters STAR_DOWN, and traffic moves to the other port. -/
  | starDown (n : PortId)
  /-- PORT_ENABLE (R353): A write of LINK EN enables the port into LISTEN or turns it OFF. -/
  | portEnable (n : PortId) (value : BitVec 32)
  /-- JOIN_REQUEST (R353): A write of LINK JOIN starts or stops joining, and the port sends JOIN in contention slots. -/
  | joinRequest (n : PortId) (on : Bool)
  /-- LEAVE_REQUEST (R353): A write of LINK LEAVE makes the port send LEAVE for two laps and then go silent. -/
  | leaveRequest (n : PortId)
  /-- KEY_SWAP (R336): A write of LINK SWAP makes the next key current. -/
  | keySwap (n : PortId)
  /-- LAPMAP_GO (R328): A write of GO starts the distribution of LAPMAP_NEW by the job master. -/
  | lapmapGo (n : PortId)
  /-- XR_HEAD_WRITE (R347): A write to XR_HEAD posts transfer descriptors in a partition's transfer ring. -/
  | xrHeadWrite (p : PartId) (head : BitVec 16)
  /-- XFER_COMPLETE (R348): A remote transfer completes when all replies and local writes are done, and writes STATUS, advances XR_TAIL and signals its gate. -/
  | xferComplete (p : PartId)
  /-- XFER_TIMEOUT (R348): A transfer not completed within REQ_TMO OC ends with ERR_PST_TIMEOUT. -/
  | xferTimeout (p : PartId)
  /-- WIN_ARM (R351): A window control write with ARM opens a reduction window and latches TAG, GATE and EXPECT. -/
  | winArm (w : Fin 32)
  /-- WIN_DISARM (R351): A window control write with DISARM returns the window to FREE. -/
  | winDisarm (w : Fin 32)
  /-- WIN_COMPLETE (R351): When every expected contributor has arrived and all adds are done, the window becomes COMPLETE and signals its global gate. -/
  | winComplete (w : Fin 32)
  /-- GT_SIGNAL (R364): A register write to GT_SIGNAL adds to a gate after the signaler mask check. -/
  | gtSignal (p : PartId) (cls : SrcClass) (gate : GateRef) (inc : BitVec 32)
  /-- CREATE (R367): The GT_OP CREATE operation creates a gate with an initial value and a configuration. -/
  | create (p : PartId) (cls : SrcClass) (gate : GateRef)
  /-- DESTROY (R367): The GT_OP DESTROY operation destroys a gate that is not in use. -/
  | destroy (p : PartId) (cls : SrcClass) (gate : GateRef)
  /-- SET (R367): The GT_OP SET operation sets a gate's value, and its waiters test again. -/
  | set (p : PartId) (cls : SrcClass) (gate : GateRef)
  /-- CLR_ERR (R367): The GT_OP CLR_ERR operation clears a gate's error state. -/
  | clrErr (p : PartId) (cls : SrcClass) (gate : GateRef)
  /-- SET_ERR (R367): The GT_OP SET_ERR operation puts a gate into its error state. -/
  | setErr (p : PartId) (cls : SrcClass) (gate : GateRef)
  /-- DOORBELL (R369): A write to Q_DB posts job descriptors, or is discarded as out of range or ignored. -/
  | doorbell (p : PartId) (q : QueueId) (value : BitVec 32)
  /-- QUEUE_ENABLE (R377): Setting Q_EN resets the queue's counts; clearing it stops dispatch and drains the queue. -/
  | queueEnable (p : PartId) (q : QueueId) (on : Bool)
  /-- JOB_DISPATCH (R372): The queue manager fetches and checks the head descriptor and dispatches it to its tiles when they are free. -/
  | jobDispatch (p : PartId)
  /-- STANDING_INSTANCE (R378): When its arming gate advances, the next instance of a standing chain starts dispatching its entries. -/
  | standingInstance (p : PartId) (q : QueueId)
  /-- JOB_COMPLETE (R374): When all of a job's tiles have ended, the queue manager writes its record, signals its completion gate and raises IRQ. -/
  | jobComplete (p : PartId)
  /-- CR_TAIL_WRITE (R376): A host write of CR_TAIL frees completion ring space, letting held records be written. -/
  | crTailWrite (p : PartId) (q : QueueId) (value : BitVec 32)
  /-- TR_TAIL_WRITE (R392): A host write of TR_TAIL frees trace ring space, letting MARKs held in HOLD mode proceed. -/
  | trTailWrite (p : PartId) (value : BitVec 32)
  /-- BOUNDARY_DECLARE (R382): Once every tile is between jobs, the queue manager declares the boundary, swaps all RWS fields and resumes dispatch. -/
  | boundaryDeclare (p : PartId)
  /-- SWAP_REVERT (R472): A write of SWAP_CTRL.REVERT makes every pending RWS copy of the page take its active value. -/
  | swapRevert (page : Nat)
  /-- FC_DOORBELL (R386): A write to FC_DB posts firmware commands to the partition control core. -/
  | fcDoorbell (p : PartId) (value : BitVec 32)
  /-- FW_COMMAND_FETCH (R386): The firmware fetches the next command, or replies with the fetch error. -/
  | fwCommandFetch (p : PartId)
  /-- LOAD_MODEL (R279): The firmware checks a model image for fit and places it by a lift list. -/
  | loadModel (p : PartId)
  /-- UNLOAD_MODEL (R387): The firmware unloads a resident model that has no queued or bound work. -/
  | unloadModel (p : PartId)
  /-- SWITCH_MODEL (R281): The firmware switches tiles to another resident model at a boundary. -/
  | switchModel (p : PartId)
  /-- GATE_CREATE (R387): The firmware creates a contiguous block of gates and returns its first index. -/
  | gateCreate (p : PartId)
  /-- GATE_DESTROY (R387): The firmware checks a range of gates and destroys all of them, or none. -/
  | gateDestroy (p : PartId)
  /-- BIND_STANDING (R378): The firmware binds a standing chain to a queue and records STD_FBASE. -/
  | bindStanding (p : PartId)
  /-- UNBIND_STANDING (R387): The firmware unbinds a standing chain after its running instance ends. -/
  | unbindStanding (p : PartId)
  /-- ATTACH (R389): The firmware reattaches the host, clears DB_IGNORE and rebases quiesced chains. -/
  | attach (p : PartId)
  /-- FW_ACTIVATE (R390): The firmware checks the installed bundle and restarts all five cores on it at a common boundary. -/
  | fwActivate (p : PartId)
  /-- QUERY (R485): The firmware returns ring, firmware, model or fault-log information for an item. -/
  | query (p : PartId)
  /-- HB_WRITE (R388): A host write of PCTL.HB restarts HB_AGE. -/
  | hbWrite (p : PartId) (value : BitVec 32)
  /-- HB_EXPIRE (R388): When HB_AGE reaches HB_TMO, HB_EXP is raised and the host state moves to GRACE. -/
  | hbExpire (p : PartId)
  /-- ORPHAN (R388): After HOST_GRACE further instances and completion of posted jobs, the partition becomes ORPHANED and quiesces its chains. -/
  | orphan (p : PartId)
  /-- CYCLE_DECLARE (R399): A set of waiting queues whose gates have only silent signalers for CONFIRM_OC OC is declared a cycle. -/
  | cycleDeclare
  /-- STALL_DECLARE (R400): A tile that makes no progress for STALL_TMO OC is declared stalled. -/
  | stallDeclare (g : TileId)
  /-- PRESET (R409): A write of 1 to a PRESET bit starts a partition reset. -/
  | preset (bits : BitVec 4)
  /-- PCC_WDOG_EXPIRE (R409): A control core that sends no watchdog signal for PCC_WDOG OC triggers a partition reset. -/
  | pccWdogExpire (p : PartId)
  /-- PARTITION_FENCE (R411): A partition enters FENCE: its tiles stop, it refuses outside requests, pairs flip and a Piste FENCE is sent. -/
  | partitionFence (p : PartId)
  /-- FENCE_DONE (R411): FENCE ends when every outstanding request is answered, and the dump starts. -/
  | fenceDone (p : PartId)
  /-- FENCE_TIMEOUT (R411): At FENCE_TMO, unanswered requests end with ERR_FENCED and DIRTY is set. -/
  | fenceTimeout (p : PartId)
  /-- DUMP_ELEMENT (R406): The DLW reads one dump element over the dump path and writes it into the slot. -/
  | dumpElement (p : PartId)
  /-- ELEM_TIMEOUT (R406): An element unread within ELEM_TMO OC is written as UNREADABLE. -/
  | elemTimeout (p : PartId)
  /-- DUMP_RELEASE (R408): A write of DUMP_REL frees a dump slot for the next reset. -/
  | dumpRelease (bits : BitVec 4)
  /-- PARTITION_RESET (R412): On entry to RESET, the epoch rises and the partition's logic, tiles and controllers reset. -/
  | partitionReset (p : PartId)
  /-- RETRAIN_DONE (R410): Training and any DIRTY zero-fill complete, and the partition enters RESTART. -/
  | retrainDone (p : PartId)
  /-- RESTART_DONE (R415): The firmware has restored queues, gates, chains and models, and FW_READY becomes 1. -/
  | restartDone (p : PartId) (seeds : List (BitVec 64))
  /-- RESET_BUDGET_EXPIRE (R410): A reset stage that exceeds its budget, or a failed training, takes the partition to FAILED. -/
  | resetBudgetExpire (p : PartId)
  /-- REPLAY_SUSPECT (R418): The firmware runs the next suspect job alone, with global effects suppressed. -/
  | replaySuspect (p : PartId)
  /-- REPLAY_TIMEOUT (R419): A suspect that runs REPLAY_TMO OC without ending is guilty, and a further reset follows. -/
  | replayTimeout (p : PartId)
  /-- PAIR_ENTRY_WRITE (R422): A write to a DLW pair entry enables or clears the pair and sets its initial status. -/
  | pairEntryWrite (k : Fin 8) (value : BitVec 64)
  /-- ENGINE_RESET (R22): Engine reset resets the engine-wide pages, the ports and the oscillators, and the ROM boots. -/
  | engineReset
  /-- COLD_BOOT (R437): The ROM checks both bundle copies, chooses one or the recovery loader, and hands over. `strap`
  holds RCV_REQ low; `errA`, `errB` are read errors, `againA`, `againB` second reads that differ. -/
  | coldBoot (strap errA errB againA againB : Bool)
  /-- INSTALL (R439): The mailbox INSTALL verifies a package and writes it into the copy not running. -/
  | install (package : Package)
  /-- COMMIT_SVN (R442): The mailbox COMMIT_SVN raises the anti-rollback counter to the running SVN. -/
  | commitSvn
  /-- REVOKE (R443): The mailbox REVOKE blows the REVOKED fuse of a key slot under a signed request. -/
  | revoke (request : List Byte)
  /-- LC_SECURE (R447): The mailbox LC_SECURE moves the device from DEVELOP to SECURED. -/
  | lcSecure (request : List Byte)
  /-- LC_RETURN (R448): The mailbox LC_RETURN takes a vendor return token, erases customer keys and resets to RETURNED. -/
  | lcReturn (token : List Byte)
  /-- LC_VOID (R447): The mailbox LC_VOID makes the device permanently unusable. -/
  | lcVoid (request : List Byte)
  /-- MB_STATUS (R449): The mailbox STATUS command completes and reports status. -/
  | mbStatus
  /-- HELLO (R445): The recovery loader answers HELLO with identity, state and boot results. -/
  | hello (frame : List Byte)
  /-- STAGE (R445): The recovery loader writes data bytes into the staging buffer. -/
  | stage (frame : List Byte)
  /-- RCV_INSTALL (R445): The recovery loader checks the staged package and writes it into both copies. -/
  | rcvInstall (frame : List Byte)
  /-- LC_REQUEST (R447): The recovery loader applies a provisioning record or a vendor return token. -/
  | lcRequest (frame : List Byte)
  /-- REBOOT (R445): The recovery loader reboots the device after sending its response. -/
  | reboot (frame : List Byte)
  /-- UART_FRAME_TIMEOUT (R444): More than 10 ms between bytes discards the partial UART frame. -/
  | uartFrameTimeout
  /-- EMG_LEVEL_RISE (R463): A rise of the emergency level caps voltage, restricts dispatch and turns partitions OFF in order. -/
  | emgLevelRise (level : Fin 4)
  /-- EMG_LEVEL_FALL (R465): A fall of the emergency level restarts OFF partitions, rebases held chains and lifts the cap. -/
  | emgLevelFall (level : Fin 4)
  /-- PVREQ_WRITE (R458): A write of PVREQ requests a new partition supply voltage. -/
  | pvreqWrite (p : PartId) (code : BitVec 6)
  /-- SUPPLY_SETTLED (R458): The partition supply reaches the requested code, and SETTLED is set. -/
  | supplySettled (p : PartId)
  /-- TILE_GATE_WRITE (R461): A write of TILE_GATE sets or clears gating for tiles, and clearing a bit wakes the tile. -/
  | tileGateWrite (p : PartId) (bits : BitVec 12)
  /-- TILE_GATE_APPLY (R461): A tile whose gate bit is set gates when it is next between jobs. -/
  | tileGateApply (g : TileId)
  /-- TILE_WAKE (R461): A gated tile wakes its banks, resets its buffers, reseeds dither and runs its switch list. -/
  | tileWake (g : TileId) (seed : BitVec 64)
  /-- RATE_UPDATE (R453): Every 10,000 OC, PWR.RATE is updated from the replica path. -/
  | rateUpdate (p : PartId) (rate : BitVec 11)
  /-- OSC_CALIBRATE (R456): An oscillator is trimmed against the SoC reference, and calibration succeeds or fails. -/
  | oscCalibrate (osc : Fin 7) (count : BitVec 17) (trim tj : Byte)
  /-- PST_WAKE (R467): A high level held on PST_WAKE for 1 µs sets WAKE_SEEN and raises WAKE. -/
  | pstWake
  /-- ACC_ROW_RESET (R154): A write of ACC_ROW_RESET clears the row state of the named rows of an IDLE buffer. -/
  | accRowReset (g : TileId) (value : BitVec 32)
  /-- CNV_STAT_SNAP (R180): A write of CNV_STAT_SNAP copies a statistics context into the snapshot registers, optionally clearing it. -/
  | cnvStatSnap (g : TileId) (value : BitVec 32)
  /-- INJ_ARM (R223): A write of INJ_ARM makes the next residue compare mismatch at INJ_LANE once. -/
  | injArm (g : TileId) (value : BitVec 32)
  /-- CNT_CLR (R475): A write of CNT_CLR clears every RC counter of the page in one action. -/
  | cntClr (page : Nat)
  /-- IRQ_FORCE (R475): A write of IRQ_FORCE sets IRQ_STAT bits as their sources would. -/
  | irqForce (page : Nat) (bits : BitVec 32)
  /-- RC_COUNTER_READ (R20): A read of an RC counter returns its value and clears it. -/
  | rcCounterRead (addr size : Nat) (cls : SrcClass)
  /-- REGISTER_WRITE (R20): A write to a register without behaviour of its own sets RW fields, clears W1C bits, sets RWS pending copies or is discarded. -/
  | registerWrite (addr size : Nat) (value : BitVec 64) (cls : SrcClass)
  /-- FR_TAIL_WRITE (R386): A host write of FR_TAIL frees reply ring space, so the firmware, which waits while the reply ring is full, writes its held reply and goes on. -/
  | frTailWrite (p : PartId) (value : BitVec 32)
  /-- SOC_FABRIC_ACCEPT (R310): The SoC fabric accepts a request that the system port has been holding, which ends the back-pressure on it and on the requests behind it. -/
  | socFabricAccept
  /-- NAK (R445): The recovery loader receives a UART frame that fails its CRC, or that carries an unknown TYPE, and answers it with NAK or ERR_FW_CMD without acting on it. -/
  | nak (frame : List Byte)
  deriving DecidableEq, Repr

end Sys2Proof
end

