-- ==== Sys2Proof/Machine/Errors.lean ====
section
/-! DEFINITION. The ERR_ codes (R23, R427). -/
namespace Sys2Proof.Machine.Err

/-- ERR_NONE: success. -/
def none : Nat := 0x0000
/-- ERR_ADDR_RANGE: reserved or out-of-range address. -/
def addrRange : Nat := 0x0101
/-- ERR_ADDR_RO: write to the table store view. -/
def addrRo : Nat := 0x0102
/-- ERR_REGION: refused by region registers. -/
def region : Nat := 0x0103
/-- ERR_BANK_OFF: bank not ON. -/
def bankOff : Nat := 0x0104
/-- ERR_SPD_UNCORR: uncorrectable scratchpad codeword. -/
def spdUncorr : Nat := 0x0105
/-- ERR_MEM_UNCORR: uncorrectable partition-memory burst. -/
def memUncorr : Nat := 0x0106
/-- ERR_MEM_TRAIN: memory training failed. -/
def memTrain : Nat := 0x0107
/-- ERR_SYS_REFUSED: refused by the SoC. -/
def sysRefused : Nat := 0x0108
/-- ERR_SYS_TIMEOUT: no SoC reply. -/
def sysTimeout : Nat := 0x0109
/-- ERR_OPCODE: unknown opcode. -/
def opcode : Nat := 0x0201
/-- ERR_CMD_FIELD: bad command, descriptor or reserved field. -/
def cmdField : Nat := 0x0202
/-- ERR_FORMAT: unknown or unsuitable format. -/
def format : Nat := 0x0203
/-- ERR_BOOK_RANGE: C8P component outside −64 to +63. -/
def bookRange : Nat := 0x0204
/-- ERR_BOOK_FORMAT: book tag does not match. -/
def bookFormat : Nat := 0x0205
/-- ERR_CNV_DESC: bad conversion descriptor. -/
def cnvDesc : Nat := 0x0206
/-- ERR_BIN_SCALE: row scale differs in BIN. -/
def binScale : Nat := 0x0207
/-- ERR_LIFT_DESC: bad lift descriptor. -/
def liftDesc : Nat := 0x0208
/-- ERR_LIFT_CRC: lift CRC mismatch. -/
def liftCrc : Nat := 0x0209
/-- ERR_RESIDUE_LASTING: lasting lane or window fault. -/
def residueLasting : Nat := 0x020A
/-- ERR_RESIDUE_LIMIT: three retries without a clean compare. -/
def residueLimit : Nat := 0x020B
/-- ERR_GATE_ID: gate does not exist. -/
def gateId : Nat := 0x0301
/-- ERR_GATE_MASK: signaler not in mask. -/
def gateMask : Nat := 0x0302
/-- ERR_GATE_ERROR: gate in error state. -/
def gateError : Nat := 0x0303
/-- ERR_GATE_BUSY: gate exists or is in use. -/
def gateBusy : Nat := 0x0304
/-- ERR_JOB_DESC: bad job descriptor or chain. -/
def jobDesc : Nat := 0x0305
/-- ERR_JOB_ABORT: stopped by another tile's error. -/
def jobAbort : Nat := 0x0306
/-- ERR_IMAGE_FORMAT: malformed model image. -/
def imageFormat : Nat := 0x0401
/-- ERR_FIT_TILES: too many tiles or partitions. -/
def fitTiles : Nat := 0x0402
/-- ERR_FIT_SCRATCH: scratchpad range in use. -/
def fitScratch : Nat := 0x0403
/-- ERR_FIT_LASTING: covers a logged fault or a FAULTED tile. -/
def fitLasting : Nat := 0x0404
/-- ERR_FIT_BOOKS: book slots in use. -/
def fitBooks : Nat := 0x0405
/-- ERR_FIT_ACCROWS: accumulator rows in use. -/
def fitAccrows : Nat := 0x0406
/-- ERR_FIT_STATS: statistics contexts or LUTs in use. -/
def fitStats : Nat := 0x0407
/-- ERR_FIT_GATES: no free gate block. -/
def fitGates : Nat := 0x0408
/-- ERR_FIT_QUEUES: no free queues. -/
def fitQueues : Nat := 0x0409
/-- ERR_FIT_PMEM: no free partition memory. -/
def fitPmem : Nat := 0x040A
/-- ERR_MODEL_ID: unknown model handle. -/
def modelId : Nat := 0x040B
/-- ERR_MODEL_BUSY: model has queued or bound work. -/
def modelBusy : Nat := 0x040C
/-- ERR_FW_CMD: bad firmware command. -/
def fwCmd : Nat := 0x0410
/-- ERR_NOT_ATTACHED: host not attached. -/
def notAttached : Nat := 0x0411
/-- ERR_FW_NONE: no newer bundle installed. -/
def fwNone : Nat := 0x0412
/-- ERR_FW_CHECK: installed bundle failed its check. -/
def fwCheck : Nat := 0x0413
/-- ERR_PST_PEER_DOWN: station not UP. -/
def pstPeerDown : Nat := 0x0501
/-- ERR_PST_TIMEOUT: transfer not completed in time. -/
def pstTimeout : Nat := 0x0502
/-- ERR_FENCED: target partition fenced, in reset, OFF or FAILED. -/
def fenced : Nat := 0x0601
/-- ERR_QUARANTINED: job or model quarantined. -/
def quarantined : Nat := 0x0602
/-- ERR_TILE_FAULTED: tile marked FAULTED. -/
def tileFaulted : Nat := 0x0603
/-- ERR_RESET_ABORT: job ended by a partition reset and not run again; restart failed. -/
def resetAbort : Nat := 0x0604
/-- ERR_BUNDLE_AUTH: firmware bundle digest fails. -/
def bundleAuth : Nat := 0x0701
/-- ERR_KEY_REVOKED: signing key revoked. -/
def keyRevoked : Nat := 0x0702
/-- ERR_ROLLBACK: version below the anti-rollback counter. -/
def rollback : Nat := 0x0703
/-- ERR_SIG_INVALID: update signature fails at install. -/
def sigInvalid : Nat := 0x0704
/-- ERR_LIFECYCLE: not allowed in the life cycle state. -/
def lifecycle : Nat := 0x0705
/-- ERR_RCV_CRC: recovery UART frame CRC fails. -/
def rcvCrc : Nat := 0x0706
/-- ERR_PWR_OFF: partition off at an emergency level. -/
def pwrOff : Nat := 0x0801

end Sys2Proof.Machine.Err
end

