-- ==== Sys2Proof/Config.lean ====
section
/-! DEFINITION. What one device fixes and the free values: constants without a body, of which no proof can see
a value (log entry 4). -/
namespace Sys2Proof.Config

/-- The byte at address `a` of a memory whose content the spec calls undefined; `n` names the event that made it
undefined (R81, R153, R211, R313). -/
opaque freeByte (n a : Nat) : Byte
/-- A number that the spec leaves open; `n` names the occasion. -/
opaque freeNat (n : Nat) : Nat

/-- Whether an MR4 refresh-rate code asks for more than the 1× rate; the spec names no code (R288). -/
opaque mr4Above (code : Nat) : Bool

/-- Which of the two places that share the field element αᵖ in a full frame codeword the receiver puts right: the far one,
p + 255 (R322; log entry 152). -/
opaque farSymbol (p : Nat) : Bool
/-- The rows that a tile's promotion unit holds before it is full (R126; log entry 163). -/
opaque promoRows : Nat
/-- The originator class that a controller's table shows for a corrected write-back (R405; log entry 58). -/
opaque writebackClass : BitVec 4
/-- A number that the spec leaves open; `n` names the occasion and `k` the item within it. -/
opaque freeAt (n k : Nat) : Nat

/-! The security block: what the spec leaves open of its cryptography (R434, R447, R448). -/

/-- The text that the labels of both device keys begin with; the class follows it. -/
opaque deviceLabel : List Byte
/-- A vendor return token verifies under the vendor return key for a DEV_ID and a NONCE. -/
opaque tokenVerifies (token : List Byte) (devId nonce : Nat) : Bool

/-- The key hash that a provisioning record gives for a slot; the spec leaves the record's layout open (R447). -/
opaque provHash (record : List Byte) (slot : Nat) : Option Nat

/-! The model image's tables, whose bit layout the spec leaves open (R278). -/

/-- The source OFFSET of a section-table entry. -/
opaque sectOffset (entry : Nat) : Nat
/-- Its LEN. -/
opaque sectLen (entry : Nat) : Nat
/-- Its KIND: the partition-memory allocation, or the scratchpad of an image tile. -/
opaque sectPmem (entry : Nat) : Bool
/-- The image tile, or image partition, of its destination. -/
opaque sectUnit (entry : Nat) : Nat
/-- Its destination: a tile address, or an offset in the allocation. -/
opaque sectDest (entry : Nat) : Nat
/-- The section that a fixup names. -/
opaque fixSect (entry : Nat) : Nat
/-- Its byte offset within the section. -/
opaque fixOffset (entry : Nat) : Nat
/-- Its kind: 0 PMEM, 1 GATE, otherwise PEER. -/
opaque fixKind (entry : Nat) : Nat

/-- `freeNat` cut to the values below `k`. -/
def freeBelow (n k : Nat) : Nat := freeNat n % k

end Sys2Proof.Config
end

