-- ==== Sys2Proof/Machine/Assoc.lean ====
section
/-! DEFINITION. Sparse data by number: a list of (key, value) pairs, keys strictly rising, no entry that says what
an unlisted key reads as, so that equal contents are equal lists. -/
namespace Sys2Proof.Machine

/-- Pairs of a key and a value. -/
abbrev Assoc (α : Type) := List (Nat × α)

/-- The value listed at `k`. -/
def Assoc.look : Assoc α → Nat → Option α
  | [], _ => none
  | (j, x) :: t, k => if j = k then some x else Assoc.look t k

/-- Every entry but those at `k`. -/
def Assoc.drop (l : Assoc α) (k : Nat) : Assoc α := l.filter fun e => e.1 ≠ k

/-- `(k, x)` put in before the first larger key. -/
def Assoc.ins : Assoc α → Nat → α → Assoc α
  | [], k, x => [(k, x)]
  | (j, y) :: t, k, x => if k < j then (k, x) :: (j, y) :: t else (j, y) :: Assoc.ins t k x

/-- The value at `k` becomes `v` (`none`: what an unlisted key reads as). -/
def Assoc.put (l : Assoc α) (k : Nat) : Option α → Assoc α
  | none => l.drop k
  | some x => (l.drop k).ins k x

/-- Keys strictly rising. -/
def Assoc.rising : Assoc α → Bool
  | [] => true
  | [_] => true
  | a :: b :: t => decide (a.1 < b.1) && Assoc.rising (b :: t)

end Sys2Proof.Machine
end

