-- ==== Sys2Proof/Machine/Mem.lean ====
section
/-! DEFINITION. Byte memories in one canonical form, and the operations over them (R10, R41; log entries 2 and 4). -/
namespace Sys2Proof.Machine

/-- A byte-addressed memory. `cells` lists, with rising addresses, the bytes that differ from what an unlisted
address reads as. `gen` is 0 from machine reset on; a reset or gating that leaves the content undefined gives it a
fresh number. -/
structure Memory where
  cells : List Host.Cell
  gen : Nat
  deriving DecidableEq, Repr

/-- What an unlisted address reads as: 0 from machine reset on (DESIGN CHOICE, unsafe, log entry 2), and a free
value where the spec calls the content undefined (R81, R153; log entry 4). -/
def Memory.dflt (m : Memory) (a : Nat) : Byte :=
  if m.gen = 0 then 0 else Config.freeByte m.gen a

/-- Nothing listed. -/
def Memory.empty : Memory := ⟨[], 0⟩

/-- Content undefined from now on; `n` is a fresh number. -/
def Memory.undef (n : Nat) : Memory := ⟨[], n + 1⟩

/-- The byte at `a`. -/
def Memory.get (m : Memory) (a : Nat) : Byte := (Assoc.look m.cells a).getD (m.dflt a)

/-- The byte at `a` becomes `b`; a listed byte never equals what an unlisted address reads as. -/
def Memory.set (m : Memory) (a : Nat) (b : Byte) : Memory :=
  { m with cells := Assoc.put m.cells a (if b = m.dflt a then none else some b) }

/-- `n` bytes from `a` upward. -/
def Memory.read (m : Memory) (a : Nat) : Nat → List Byte
  | 0 => []
  | n + 1 => m.get a :: m.read (a + 1) n

/-- The bytes `bs` from `a` upward. -/
def Memory.write (m : Memory) (a : Nat) : List Byte → Memory
  | [] => m
  | b :: bs => (m.set a b).write (a + 1) bs

/-- The bytes of `[a, a + n)` take what an unlisted address of an untouched memory reads as: 0. -/
def Memory.zero (m : Memory) (a n : Nat) : Memory :=
  if m.gen = 0 then { m with cells := m.cells.filter fun c => c.1 < a ∨ a + n ≤ c.1 }
  else m.write a (List.replicate n 0)

/-- The canonical form: addresses strictly rising and no byte listed that an unlisted address would read as. -/
def Memory.wf (m : Memory) : Bool :=
  Assoc.rising m.cells && m.cells.all fun c => c.2 ≠ m.dflt c.1

end Sys2Proof.Machine
end

