-- ==== Sys2Proof/Machine/Bits.lean ====
section
/-! DEFINITION. Bit fields, sign extension, byte order and rounding (R8, R9, R10, R121, R164). -/
namespace Sys2Proof.Machine

/-- Bits `[lo + n - 1 : lo]` of `w` (R8). -/
def bitsAt (w lo n : Nat) : Nat := w >>> lo % 2 ^ n

/-- `w` with bits `[lo + n - 1 : lo]` replaced by `v`. -/
def setBits (w lo n v : Nat) : Nat :=
  (w >>> (lo + n)) <<< (lo + n) + (v % 2 ^ n) <<< lo + w % 2 ^ lo

/-- Bit `i` of `w`. -/
def bitAt (w i : Nat) : Bool := w.testBit i

/-- A Bool as a one-bit field. -/
def b2n (b : Bool) : Nat := if b then 1 else 0

/-- The two's complement value of the low `n` bits of `w`. -/
def sext (n w : Nat) : Int :=
  let v := w % 2 ^ n
  if v < 2 ^ (n - 1) then (v : Int) else (v : Int) - (2 : Int) ^ n

/-- The `n`-bit two's complement code of `x`. -/
def uns (n : Nat) (x : Int) : Nat := (x % (2 : Int) ^ n).toNat

/-- The `n` bytes of `v`, least significant first (R10). -/
def leBytes : Nat → Nat → List Byte
  | 0, _ => []
  | n + 1, v => BitVec.ofNat 8 v :: leBytes n (v / 256)

/-- The number that bytes, least significant first, spell (R10). -/
def leNat : List Byte → Nat
  | [] => 0
  | b :: bs => b.toNat + 256 * leNat bs

/-- The 4-byte little-endian words of a byte list. -/
def leWords : List Byte → List Nat
  | a :: b :: c :: d :: bs => leNat [a, b, c, d] :: leWords bs
  | [] => []
  | bs => [leNat bs]

/-- `x` forced into `[lo, hi]`. -/
def clampI (lo hi x : Int) : Int := if x < lo then lo else if hi < x then hi else x

/-- Ceiling of `a / b`. -/
def ceilDiv (a b : Nat) : Nat := (a + b - 1) / b

/-- `num / den` rounded to the nearest integer, a value half-way to the even one (`den > 0`). -/
def roundEven (num : Int) (den : Nat) : Int :=
  let q := num / (den : Int)
  let f := 2 * (num % (den : Int))
  if f < den then q else if f > den then q + 1 else if q % 2 = 0 then q else q + 1

/-- A saturating sum: a counter stops at its largest value. -/
def satAdd (n a b : Nat) : Nat := min (a + b) (2 ^ n - 1)

/-- The first element of a list that meets `p`, with its index. -/
def firstIdx (p : α → Bool) (l : List α) : Option Nat := l.findIdx? p

/-- Run `f` until it answers `none`, at most `n` times. -/
def iterate (f : σ → Option σ) : Nat → σ → σ
  | 0, s => s
  | n + 1, s => match f s with
    | none => s
    | some s' => iterate f n s'

end Sys2Proof.Machine
end

