-- ==== Sys2Proof/Machine/Regs.lean ====
section
/-! DEFINITION. The register fields of every page (R15 to R22, R472 and the register map of each chapter), and the
bank that holds a page's values: it lists only fields that differ from their reset value. -/
namespace Sys2Proof.Machine

/-- The access types of R20. -/
inductive AccessType where
  | rw | ro | wo | w1c | rc | rws
  deriving DecidableEq, Repr

/-- One register field: page offset of its register, lowest bit, width, access type, reset value, and whether its
register has 64 bits. -/
structure Fld where
  off : Nat
  lo : Nat
  width : Nat
  acc : AccessType
  reset : Nat
  wide : Bool
  deriving DecidableEq, Repr

/-- The values of a page's fields that differ from reset. -/
abbrev Bank := Assoc Nat

/-- Where a field stands in its bank. -/
def Fld.key (f : Fld) : Nat := f.off * 64 + f.lo

/-- The active copy of an RWS field lies at its offset + 0x800 (R20, R480). -/
def Fld.active (f : Fld) : Fld := { f with off := f.off + 0x800 }

/-- The value of a field. -/
def Bank.get (b : Bank) (f : Fld) : Nat := (Assoc.look b f.key).getD f.reset

/-- The field takes `v`, cut to its width. -/
def Bank.set (b : Bank) (f : Fld) (v : Nat) : Bank :=
  let x := v % 2 ^ f.width
  Assoc.put b f.key (if x = f.reset then none else some x)

/-- A counter rises by `n` and stops at its largest value. -/
def Bank.inc (b : Bank) (f : Fld) (n : Nat) : Bank := b.set f (satAdd f.width (b.get f) n)

/-- A one-bit field as a Bool. -/
def Bank.bit (b : Bank) (f : Fld) : Bool := b.get f ≠ 0

/-- Word `w` of the default lap map: slots 0 to 11 to stations 0 to 11, then four contention slots (R327). -/
def defaultMapWord (w : Nat) : Nat :=
  match w with
  | 0 => 0x03020100
  | 1 => 0x07060504
  | 2 => 0x0B0A0908
  | _ => 0x10101010

/-! The HDR page (R472). -/
namespace HDR

def MINOR : Fld := ⟨0x004, 0, 8, .ro, 0, false⟩
def MAJOR : Fld := ⟨0x004, 8, 8, .ro, 1, false⟩
def ERR_HOLD : Fld := ⟨0x00C, 0, 1, .rw, 0, false⟩
def ERR_HI : Fld := ⟨0x00C, 1, 1, .rw, 0, false⟩
def CNT_CLR : Fld := ⟨0x00C, 8, 1, .wo, 0, false⟩
def ERR_VALID : Fld := ⟨0x010, 1, 1, .w1c, 0, false⟩
def IRQ_STAT : Fld := ⟨0x014, 0, 32, .w1c, 0, false⟩
def IRQ_EN : Fld := ⟨0x018, 0, 32, .rw, 0, false⟩
def IRQ_FORCE : Fld := ⟨0x01C, 0, 32, .wo, 0, false⟩
def ERR_CNT : Fld := ⟨0x020, 0, 32, .rc, 0, false⟩
def REVERT : Fld := ⟨0x028, 0, 1, .wo, 0, false⟩
def SWAP_CNT : Fld := ⟨0x02C, 16, 16, .ro, 0, false⟩
end HDR

/-! The ENG page (R316). -/
namespace ENG

def SYS_HOLD : Fld := ⟨0x100, 11, 1, .ro, 0, false⟩
def SYS_GRANT : Fld := ⟨0x104, 0, 16, .ro, 0, false⟩
def SYS_STALL : Fld := ⟨0x108, 0, 64, .rc, 0, true⟩
def SYS_STALL_P (p : Nat) : Fld := ⟨0x110 + p * 4, 0, 32, .rc, 0, false⟩
def SYS_RD_BYTES : Fld := ⟨0x120, 0, 64, .rc, 0, true⟩
def SYS_WR_BYTES : Fld := ⟨0x128, 0, 64, .rc, 0, true⟩
def SYS_TMO : Fld := ⟨0x130, 0, 32, .rw, 1000000, false⟩
def SYS_TMO_CNT : Fld := ⟨0x134, 0, 32, .rc, 0, false⟩
def SYS_ERR_ADDR : Fld := ⟨0x138, 0, 40, .ro, 0, true⟩
end ENG

/-! The DLW page (R429). -/
namespace DLW

def EN : Fld := ⟨0x040, 0, 1, .rw, 1, false⟩
def AUTO_RESET : Fld := ⟨0x040, 1, 1, .rw, 1, false⟩
def REPLAY_EN : Fld := ⟨0x040, 2, 1, .rw, 1, false⟩
def CONFIRM_OC : Fld := ⟨0x044, 0, 32, .rw, 1000, false⟩
def STALL_TMO : Fld := ⟨0x048, 0, 32, .rw, 10000000, false⟩
def ELEM_TMO : Fld := ⟨0x04C, 0, 32, .rw, 2000, false⟩
def FENCE_TMO : Fld := ⟨0x050, 0, 32, .rw, 1000000, false⟩
def REPLAY_TMO : Fld := ⟨0x054, 0, 32, .rw, 20000000, false⟩
def PCC_WDOG : Fld := ⟨0x058, 0, 32, .rw, 10000000, false⟩
def STATE (p : Nat) : Fld := ⟨0x060 + p * 4, 0, 4, .ro, 0, false⟩
def CAUSE (p : Nat) : Fld := ⟨0x060 + p * 4, 4, 4, .ro, 0, false⟩
def EPOCH (p : Nat) : Fld := ⟨0x060 + p * 4, 8, 12, .ro, 0, false⟩
def DIRTY (p : Nat) : Fld := ⟨0x060 + p * 4, 20, 1, .ro, 0, false⟩
def PRESET : Fld := ⟨0x070, 0, 4, .wo, 0, false⟩
def SLOT : Fld := ⟨0x074, 0, 2, .rw, 0, false⟩
def PAGE : Fld := ⟨0x074, 11, 5, .rw, 0, false⟩
def VALID : Fld := ⟨0x078, 0, 4, .ro, 0, false⟩
def BUSY : Fld := ⟨0x078, 4, 4, .ro, 0, false⟩
def DUMP_REL : Fld := ⟨0x07C, 0, 4, .wo, 0, false⟩
def CYC_QMASK : Fld := ⟨0x080, 0, 64, .ro, 0, true⟩
def HANG_CNT : Fld := ⟨0x090, 0, 32, .rc, 0, false⟩
def STALL_CNT : Fld := ⟨0x094, 0, 32, .rc, 0, false⟩
def RESET_CNT : Fld := ⟨0x098, 0, 32, .rc, 0, false⟩
def UNREADABLE_CNT : Fld := ⟨0x09C, 0, 32, .rc, 0, false⟩
def EPOCH_DROP : Fld := ⟨0x0A0, 0, 32, .rc, 0, false⟩
def QUARANTINE_CNT : Fld := ⟨0x0A4, 0, 32, .rc, 0, false⟩
def REPLAY_CLEAR : Fld := ⟨0x0A8, 0, 32, .rc, 0, false⟩
def REPLAY_SUPPRESS : Fld := ⟨0x0AC, 0, 32, .rc, 0, false⟩
def FENCE_DIRTY_CNT : Fld := ⟨0x0B0, 0, 32, .rc, 0, false⟩
def A_PART (k : Nat) : Fld := ⟨0x100 + k * 8, 0, 2, .rw, 0, true⟩
def A_QUEUE (k : Nat) : Fld := ⟨0x100 + k * 8, 2, 4, .rw, 0, true⟩
def B_PART (k : Nat) : Fld := ⟨0x100 + k * 8, 6, 2, .rw, 0, true⟩
def B_QUEUE (k : Nat) : Fld := ⟨0x100 + k * 8, 8, 4, .rw, 0, true⟩
def PEN (k : Nat) : Fld := ⟨0x100 + k * 8, 12, 1, .rw, 0, true⟩
def CRIT (k : Nat) : Fld := ⟨0x100 + k * 8, 13, 1, .rw, 0, true⟩
def STATUS (k : Nat) : Fld := ⟨0x100 + k * 8, 16, 3, .ro, 0, true⟩
def PAIR_FLIPS (k : Nat) : Fld := ⟨0x140 + k * 4, 0, 32, .rc, 0, false⟩
end DLW

/-! The LINK page (R359). -/
namespace LINK

def EN : Fld := ⟨0x040, 0, 1, .rw, 0, false⟩
def STN : Fld := ⟨0x040, 1, 4, .rw, 15, false⟩
def MASTER : Fld := ⟨0x040, 5, 1, .rw, 0, false⟩
def JOIN : Fld := ⟨0x040, 6, 1, .wo, 0, false⟩
def LEAVE : Fld := ⟨0x040, 7, 1, .wo, 0, false⟩
def STATE : Fld := ⟨0x044, 0, 3, .ro, 0, false⟩
def LAPSYNC : Fld := ⟨0x044, 3, 1, .ro, 0, false⟩
def MAPVER : Fld := ⟨0x044, 4, 8, .ro, 0, false⟩
def DEPOCH : Fld := ⟨0x044, 12, 12, .ro, 0, false⟩
def PST_RANGE : Fld := ⟨0x048, 0, 7, .ro, 0, false⟩
def LAP : Fld := ⟨0x050, 0, 48, .ro, 0, true⟩
def JOB : Fld := ⟨0x058, 0, 32, .rw, 0, false⟩
def KGEN_CUR : Fld := ⟨0x05C, 0, 8, .rw, 0, false⟩
def KGEN_NEXT : Fld := ⟨0x05C, 8, 8, .rw, 0, false⟩
def NEXT_VALID : Fld := ⟨0x05C, 16, 1, .rw, 0, false⟩
def SWAP : Fld := ⟨0x05C, 17, 1, .wo, 0, false⟩
def KEY_CUR (w : Nat) : Fld := ⟨0x060 + w * 4, 0, 32, .wo, 0, false⟩
def KEY_NEXT (w : Nat) : Fld := ⟨0x070 + w * 4, 0, 32, .wo, 0, false⟩
def SILENCE : Fld := ⟨0x080, 0, 8, .rw, 20, false⟩
def SLOT_LATE : Fld := ⟨0x080, 8, 8, .rw, 8, false⟩
def DOWN_LAPS : Fld := ⟨0x080, 16, 8, .rw, 4, false⟩
def ALARM_LAPS : Fld := ⟨0x080, 24, 8, .rw, 3, false⟩
def RTX_TMO : Fld := ⟨0x084, 0, 32, .rw, 10000, false⟩
def REQ_TMO : Fld := ⟨0x088, 0, 32, .rw, 1000000, false⟩
def MEMBER : Fld := ⟨0x08C, 0, 12, .ro, 0, false⟩
def UP : Fld := ⟨0x08C, 12, 12, .ro, 0, false⟩
def LAPMAP_ACT (w : Nat) : Fld := ⟨0x090 + w * 4, 0, 32, .ro, defaultMapWord w, false⟩
def LAPMAP_NEW (w : Nat) : Fld := ⟨0x0A0 + w * 4, 0, 32, .rw, 0, false⟩
def EFF_LAP : Fld := ⟨0x0B0, 0, 48, .rw, 0, true⟩
def VER : Fld := ⟨0x0B0, 48, 8, .rw, 0, true⟩
def GO : Fld := ⟨0x0B0, 63, 1, .wo, 0, true⟩
def FR_TX : Fld := ⟨0x100, 0, 64, .rc, 0, true⟩
def FR_RX : Fld := ⟨0x108, 0, 64, .rc, 0, true⟩
def FEC_SYM : Fld := ⟨0x110, 0, 32, .rc, 0, false⟩
def FEC_UNCORR : Fld := ⟨0x114, 0, 32, .rc, 0, false⟩
def STRANGER : Fld := ⟨0x118, 0, 32, .rc, 0, false⟩
def COLLISION : Fld := ⟨0x11C, 0, 32, .rc, 0, false⟩
def GARBLED_ECHO : Fld := ⟨0x120, 0, 32, .rc, 0, false⟩
def RTX : Fld := ⟨0x124, 0, 32, .rc, 0, false⟩
def DUP_DROP : Fld := ⟨0x128, 0, 32, .rc, 0, false⟩
def OOO_DROP : Fld := ⟨0x12C, 0, 32, .rc, 0, false⟩
def OLD_EPOCH : Fld := ⟨0x130, 0, 32, .rc, 0, false⟩
def PST_QWAIT : Fld := ⟨0x134, 0, 32, .rc, 0, false⟩
def ATOM_REFUSED : Fld := ⟨0x138, 0, 32, .rc, 0, false⟩
def NOWIN : Fld := ⟨0x13C, 0, 32, .rc, 0, false⟩
def WIN_DUP : Fld := ⟨0x140, 0, 32, .rc, 0, false⟩
end LINK

/-! The PEER page (R360). -/
namespace PEER

def P_DEPOCH (s : Nat) : Fld := ⟨0x040 + s * 8, 0, 12, .ro, 0, true⟩
def P_MEMBER (s : Nat) : Fld := ⟨0x040 + s * 8, 12, 1, .ro, 0, true⟩
def P_UP (s : Nat) : Fld := ⟨0x040 + s * 8, 13, 1, .ro, 0, true⟩
def TX_SEQ (s : Nat) : Fld := ⟨0x040 + s * 8, 16, 16, .ro, 0, true⟩
def TX_ACK (s : Nat) : Fld := ⟨0x040 + s * 8, 32, 16, .ro, 0, true⟩
def RX_NEXT (s : Nat) : Fld := ⟨0x040 + s * 8, 48, 16, .ro, 0, true⟩
def P_PEPOCH (s : Nat) : Fld := ⟨0x0A0 + s * 8, 0, 48, .ro, 0, true⟩
def P_FENCED (s : Nat) : Fld := ⟨0x0A0 + s * 8, 48, 4, .ro, 0, true⟩
def OWN_PEPOCH : Fld := ⟨0x100, 0, 48, .ro, 0, true⟩
def XR_BASE (p : Nat) : Fld := ⟨0x140 + p * 0x10, 5, 35, .rw, 0, true⟩
def XR_LOG2 (p : Nat) : Fld := ⟨0x148 + p * 0x10, 0, 5, .rw, 6, false⟩
def XR_HEAD (p : Nat) : Fld := ⟨0x148 + p * 0x10, 16, 16, .rw, 0, false⟩
def XR_TAIL (p : Nat) : Fld := ⟨0x14C + p * 0x10, 0, 16, .ro, 0, false⟩
def TAG (w : Nat) : Fld := ⟨0x400 + w * 32, 0, 16, .rw, 0, false⟩
def GATE (w : Nat) : Fld := ⟨0x400 + w * 32, 16, 8, .rw, 0, false⟩
def ARM (w : Nat) : Fld := ⟨0x400 + w * 32, 24, 1, .wo, 0, false⟩
def DISARM (w : Nat) : Fld := ⟨0x400 + w * 32, 25, 1, .wo, 0, false⟩
def WSTATE (w : Nat) : Fld := ⟨0x404 + w * 32, 0, 3, .ro, 0, false⟩
def WSAT (w : Nat) : Fld := ⟨0x404 + w * 32, 3, 1, .ro, 0, false⟩
def TCAUSE (w : Nat) : Fld := ⟨0x404 + w * 32, 4, 4, .ro, 0, false⟩
def TCONTRIB (w : Nat) : Fld := ⟨0x404 + w * 32, 8, 6, .ro, 0, false⟩
def EXPECT (w : Nat) : Fld := ⟨0x408 + w * 32, 0, 48, .rw, 0, true⟩
def ARRIVED (w : Nat) : Fld := ⟨0x410 + w * 32, 0, 48, .ro, 0, true⟩
def WIN_ADDS (w : Nat) : Fld := ⟨0x418 + w * 32, 0, 32, .ro, 0, false⟩
end PEER

/-! The SEC page (R449). -/
namespace SEC

def LC_STATE : Fld := ⟨0x040, 0, 3, .ro, 0, false⟩
def DBG_OPEN : Fld := ⟨0x040, 3, 1, .ro, 0, false⟩
def BOOT_COPY : Fld := ⟨0x044, 0, 1, .ro, 0, false⟩
def BOOT_TIE : Fld := ⟨0x044, 1, 1, .ro, 0, false⟩
def BOOT_ALT : Fld := ⟨0x044, 2, 1, .ro, 0, false⟩
def BOOT_RCV : Fld := ⟨0x044, 3, 1, .ro, 0, false⟩
def A_ERR : Fld := ⟨0x048, 0, 16, .ro, 0, false⟩
def B_ERR : Fld := ⟨0x048, 16, 16, .ro, 0, false⟩
def FW_VER_RUN : Fld := ⟨0x04C, 0, 32, .ro, 0, false⟩
def SVN_CTR : Fld := ⟨0x050, 0, 7, .ro, 0, false⟩
def KEY_PROV : Fld := ⟨0x054, 0, 16, .ro, 0, false⟩
def KEY_REVOKED : Fld := ⟨0x054, 16, 16, .ro, 0, false⟩
def DEV_ID : Fld := ⟨0x058, 0, 64, .ro, 0, true⟩
def NONCE : Fld := ⟨0x060, 0, 64, .ro, 0, true⟩
def INST_VALID : Fld := ⟨0x068, 0, 1, .ro, 0, false⟩
def INST_COPY : Fld := ⟨0x068, 1, 1, .ro, 0, false⟩
def INST_VER : Fld := ⟨0x06C, 0, 32, .ro, 0, false⟩
def MB_OP : Fld := ⟨0x070, 0, 8, .wo, 0, false⟩
def MB_ADDR : Fld := ⟨0x078, 0, 40, .rw, 0, true⟩
def MB_LEN : Fld := ⟨0x080, 0, 24, .rw, 0, false⟩
def MB_SLOT : Fld := ⟨0x080, 24, 4, .rw, 0, false⟩
def BUSY : Fld := ⟨0x084, 0, 1, .ro, 0, false⟩
def DONE : Fld := ⟨0x084, 1, 1, .w1c, 0, false⟩
def OVR : Fld := ⟨0x084, 2, 1, .w1c, 0, false⟩
def STATUS : Fld := ⟨0x084, 16, 16, .ro, 0, false⟩
end SEC

/-! The PWR page (R471). -/
namespace PWR

def EMG_LEVEL : Fld := ⟨0x040, 0, 2, .ro, 0, false⟩
def EMG_DONE : Fld := ⟨0x040, 2, 2, .ro, 0, false⟩
def EMG1_V : Fld := ⟨0x044, 0, 6, .rw, 10, false⟩
def PVREQ (p : Nat) : Fld := ⟨0x050 + p * 4, 0, 6, .rw, 30, false⟩
def PVACT (p : Nat) : Fld := ⟨0x050 + p * 4, 8, 6, .ro, 30, false⟩
def SETTLED (p : Nat) : Fld := ⟨0x050 + p * 4, 16, 1, .ro, 1, false⟩
def TILE_GATE (p : Nat) : Fld := ⟨0x060 + p * 4, 0, 12, .rw, 0, false⟩
def TILE_GATED (p : Nat) : Fld := ⟨0x060 + p * 4, 16, 12, .ro, 0, false⟩
def TJ (p : Nat) : Fld := ⟨0x070 + p * 4, 0, 8, .ro, 0, false⟩
def TJ_PEAK (p : Nat) : Fld := ⟨0x070 + p * 4, 8, 8, .rc, 0, false⟩
def RATE (p : Nat) : Fld := ⟨0x080 + p * 4, 0, 11, .ro, 0, false⟩
def OSC_CAL (p : Nat) : Fld := ⟨0x090 + p * 4, 0, 17, .ro, 0, false⟩
def OSC_TRIM (p : Nat) : Fld := ⟨0x090 + p * 4, 24, 8, .ro, 0, false⟩
def CAL_TJ (p : Nat) : Fld := ⟨0x0A0 + p * 4, 0, 8, .ro, 0, false⟩
def OSC_CAL_E : Fld := ⟨0x0B0, 0, 17, .ro, 0, false⟩
def OSC_CAL_T (n : Nat) : Fld := ⟨0x0B4 + n * 4, 0, 17, .ro, 0, false⟩
def OSC_ERR_P : Fld := ⟨0x0BC, 0, 4, .ro, 0, false⟩
def OSC_ERR_E : Fld := ⟨0x0BC, 4, 1, .ro, 0, false⟩
def OSC_ERR_T : Fld := ⟨0x0BC, 5, 2, .ro, 0, false⟩
def SRC_MARK : Fld := ⟨0x0C0, 0, 1, .w1c, 0, false⟩
def SRC_ORPHAN : Fld := ⟨0x0C0, 1, 1, .w1c, 0, false⟩
def SRC_PAIR_DOWN : Fld := ⟨0x0C0, 2, 1, .w1c, 0, false⟩
def ALERT_FORCE : Fld := ⟨0x0C0, 8, 1, .rw, 0, false⟩
def ALERT_PIN : Fld := ⟨0x0C0, 16, 1, .ro, 0, false⟩
def WAKE_SEEN : Fld := ⟨0x0C4, 0, 1, .w1c, 0, false⟩
def WAKE_PIN : Fld := ⟨0x0C4, 1, 1, .ro, 0, false⟩
def EMG_CHANGES : Fld := ⟨0x0D0, 0, 32, .rc, 0, false⟩
def EMG2_OC : Fld := ⟨0x0D4, 0, 32, .rc, 0, false⟩
def ALERT_CNT : Fld := ⟨0x0D8, 0, 32, .rc, 0, false⟩
end PWR

/-! The PCTL page (R395). -/
namespace PCTL

def HOST : Fld := ⟨0x040, 0, 2, .ro, 0, false⟩
def DB_IGNORE : Fld := ⟨0x040, 2, 1, .ro, 0, false⟩
def FW_READY : Fld := ⟨0x040, 3, 1, .ro, 0, false⟩
def ACT_DEFER : Fld := ⟨0x040, 4, 1, .ro, 0, false⟩
def HWIN_SEL : Fld := ⟨0x044, 0, 4, .rw, 0, false⟩
def BND_GATE : Fld := ⟨0x048, 0, 10, .rw, 0, false⟩
def BND_EN : Fld := ⟨0x048, 31, 1, .rw, 0, false⟩
def BND_CNT : Fld := ⟨0x04C, 0, 32, .ro, 0, false⟩
def BND_REQ : Fld := ⟨0x050, 0, 1, .ro, 0, false⟩
def OC_NOW : Fld := ⟨0x058, 0, 64, .ro, 0, true⟩
def HB : Fld := ⟨0x060, 0, 32, .rw, 0, false⟩
def HB_TMO : Fld := ⟨0x064, 0, 32, .rw, 50000000, false⟩
def HB_AGE : Fld := ⟨0x068, 0, 32, .ro, 0, false⟩
def HOST_GRACE : Fld := ⟨0x06C, 0, 16, .rw, 30, false⟩
def ORPH_ALERT : Fld := ⟨0x06C, 16, 1, .rw, 0, false⟩
def FC_BASE : Fld := ⟨0x070, 6, 34, .rw, 0, true⟩
def FC_LOG2 : Fld := ⟨0x078, 0, 5, .rw, 6, false⟩
def FC_DB : Fld := ⟨0x07C, 0, 32, .rw, 0, false⟩
def FC_HEAD : Fld := ⟨0x080, 0, 32, .ro, 0, false⟩
def FR_BASE : Fld := ⟨0x088, 6, 34, .rw, 0, true⟩
def FR_LOG2 : Fld := ⟨0x090, 0, 5, .rw, 6, false⟩
def FR_HEAD : Fld := ⟨0x094, 0, 32, .ro, 0, false⟩
def FR_TAIL : Fld := ⟨0x098, 0, 32, .rw, 0, false⟩
def LG_BASE : Fld := ⟨0x0A0, 6, 34, .rw, 0, true⟩
def LG_LOG2 : Fld := ⟨0x0A8, 0, 5, .rw, 6, false⟩
def LG_HEAD : Fld := ⟨0x0AC, 0, 32, .ro, 0, false⟩
def TR_BASE : Fld := ⟨0x0B0, 6, 34, .rw, 0, true⟩
def TR_LOG2 : Fld := ⟨0x0B8, 0, 5, .rw, 6, false⟩
def TR_MODE : Fld := ⟨0x0B8, 8, 1, .rw, 0, false⟩
def TR_HEAD : Fld := ⟨0x0BC, 0, 32, .ro, 0, false⟩
def TR_TAIL : Fld := ⟨0x0C0, 0, 32, .rw, 0, false⟩
def TR_LOST : Fld := ⟨0x0C4, 0, 32, .rc, 0, false⟩
def FW_VER : Fld := ⟨0x0D4, 0, 32, .ro, 0, false⟩
end PCTL

/-! The QMG page (R396). -/
namespace QMG

def SIG_INDEX : Fld := ⟨0x040, 0, 10, .wo, 0, true⟩
def SIG_GLOBAL : Fld := ⟨0x040, 10, 1, .wo, 0, true⟩
def SIG_INC : Fld := ⟨0x040, 32, 32, .wo, 0, true⟩
def SEL_INDEX (b : Nat) : Fld := ⟨0x048 + b * 0x1000, 0, 10, .rw, 0, false⟩
def SEL_GLOBAL (b : Nat) : Fld := ⟨0x048 + b * 0x1000, 10, 1, .rw, 0, false⟩
def OP_INDEX : Fld := ⟨0x060, 0, 10, .wo, 0, false⟩
def OP_GLOBAL : Fld := ⟨0x060, 10, 1, .wo, 0, false⟩
def OP_OP : Fld := ⟨0x060, 12, 3, .wo, 0, false⟩
def GT_ARG (b : Nat) : Fld := ⟨0x068 + b * 0x1000, 0, 64, .rw, 0, true⟩
def GT_ARG2 (b : Nat) : Fld := ⟨0x070 + b * 0x1000, 0, 64, .rw, 0, true⟩
def GT_RES (b : Nat) : Fld := ⟨0x078 + b * 0x1000, 0, 16, .ro, 0, false⟩
def GT_REFUSED : Fld := ⟨0x084, 0, 32, .rc, 0, false⟩
def DB_IGNORED : Fld := ⟨0x088, 0, 32, .rc, 0, false⟩
def CR_OVERWRITE : Fld := ⟨0x08C, 0, 32, .rc, 0, false⟩
def DISPATCHES : Fld := ⟨0x090, 0, 64, .rc, 0, true⟩
def Q_BASE (q : Nat) : Fld := ⟨0x100 + q * 0x40, 6, 34, .rw, 0, true⟩
def Q_LOG2 (q : Nat) : Fld := ⟨0x108 + q * 0x40, 0, 5, .rw, 6, false⟩
def Q_EN (q : Nat) : Fld := ⟨0x108 + q * 0x40, 5, 1, .rw, 0, false⟩
def Q_PRIO (q : Nat) : Fld := ⟨0x108 + q * 0x40, 6, 2, .rw, 0, false⟩
def Q_STANDING (q : Nat) : Fld := ⟨0x108 + q * 0x40, 8, 1, .rw, 0, false⟩
def Q_DB (q : Nat) : Fld := ⟨0x10C + q * 0x40, 0, 32, .rw, 0, false⟩
def Q_HEAD (q : Nat) : Fld := ⟨0x110 + q * 0x40, 0, 32, .ro, 0, false⟩
def Q_STATE (q : Nat) : Fld := ⟨0x114 + q * 0x40, 0, 3, .ro, 0, false⟩
def DB_ERR (q : Nat) : Fld := ⟨0x114 + q * 0x40, 3, 1, .w1c, 0, false⟩
def CFG_ERR (q : Nat) : Fld := ⟨0x114 + q * 0x40, 4, 1, .w1c, 0, false⟩
def INFLIGHT (q : Nat) : Fld := ⟨0x114 + q * 0x40, 8, 8, .ro, 0, false⟩
def CR_BASE (q : Nat) : Fld := ⟨0x118 + q * 0x40, 6, 34, .rw, 0, true⟩
def CR_LOG2 (q : Nat) : Fld := ⟨0x120 + q * 0x40, 0, 5, .rw, 6, false⟩
def CR_TAIL (q : Nat) : Fld := ⟨0x124 + q * 0x40, 0, 32, .rw, 0, false⟩
def CR_HEAD (q : Nat) : Fld := ⟨0x128 + q * 0x40, 0, 32, .ro, 0, false⟩
def STD_FGATE (q : Nat) : Fld := ⟨0x12C + q * 0x40, 0, 10, .rw, 0, false⟩
def STD_FGLOBAL (q : Nat) : Fld := ⟨0x12C + q * 0x40, 10, 1, .rw, 0, false⟩
def STD_LEN (q : Nat) : Fld := ⟨0x12C + q * 0x40, 16, 16, .rw, 0, false⟩
def STD_FBASE (q : Nat) : Fld := ⟨0x130 + q * 0x40, 0, 64, .rw, 0, true⟩
def STD_SEQ (q : Nat) : Fld := ⟨0x138 + q * 0x40, 0, 32, .ro, 0, false⟩
def STD_MAXLAG (q : Nat) : Fld := ⟨0x13C + q * 0x40, 0, 16, .rw, 0, false⟩
def CR_FULL_OC : Fld := ⟨0x500, 0, 32, .rc, 0, false⟩
end QMG

/-! The MC page (R315). -/
namespace MC

def TRAINED : Fld := ⟨0x040, 3, 1, .ro, 0, false⟩
def THROT : Fld := ⟨0x040, 4, 1, .ro, 0, false⟩
def CH_TRAINED : Fld := ⟨0x040, 5, 8, .ro, 0, false⟩
def MR4_RATE : Fld := ⟨0x044, 0, 3, .ro, 0, false⟩
def SCRUB_EN : Fld := ⟨0x050, 0, 1, .rw, 0, false⟩
def INTERVAL : Fld := ⟨0x050, 8, 24, .rw, 250000, false⟩
def SCRUB_POS : Fld := ⟨0x054, 0, 24, .ro, 0, false⟩
def SCRUB_PASSES : Fld := ⟨0x054, 24, 8, .ro, 0, false⟩
def CE : Fld := ⟨0x058, 0, 1, .w1c, 0, false⟩
def UE : Fld := ⟨0x058, 1, 1, .w1c, 0, false⟩
def LASTING : Fld := ⟨0x058, 2, 1, .w1c, 0, false⟩
def LASTING_OVF : Fld := ⟨0x058, 3, 1, .w1c, 0, false⟩
def ATOM_SAT : Fld := ⟨0x058, 4, 1, .w1c, 0, false⟩
def TRAIN_ERR : Fld := ⟨0x058, 5, 1, .w1c, 0, false⟩
def CE_TRANSIENT : Fld := ⟨0x060, 0, 32, .rc, 0, false⟩
def CE_LASTING : Fld := ⟨0x064, 0, 32, .rc, 0, false⟩
def UE_CNT : Fld := ⟨0x068, 0, 32, .rc, 0, false⟩
def ATOM_SAT_CNT : Fld := ⟨0x06C, 0, 32, .rc, 0, false⟩
def ATOM_ADDS : Fld := ⟨0x070, 0, 64, .rc, 0, true⟩
def RD_BYTES : Fld := ⟨0x078, 0, 64, .rc, 0, true⟩
def WR_BYTES : Fld := ⟨0x080, 0, 64, .rc, 0, true⟩
def CHK_MISS : Fld := ⟨0x088, 0, 32, .rc, 0, false⟩
def MC_BUSY_OC : Fld := ⟨0x08C, 0, 32, .rc, 0, false⟩
def FAULT_PADDR : Fld := ⟨0x090, 0, 40, .ro, 0, true⟩
def FAULT_CH : Fld := ⟨0x090, 40, 3, .ro, 0, true⟩
def FAULT_KIND : Fld := ⟨0x090, 43, 2, .ro, 0, true⟩
def LF_PADDR (i : Nat) : Fld := ⟨0x100 + i * 8, 6, 34, .ro, 0, true⟩
def LF_CH (i : Nat) : Fld := ⟨0x100 + i * 8, 40, 3, .ro, 0, true⟩
def LF_UE (i : Nat) : Fld := ⟨0x100 + i * 8, 43, 1, .ro, 0, true⟩
def LF_VALID (i : Nat) : Fld := ⟨0x100 + i * 8, 63, 1, .ro, 0, true⟩
end MC

/-! The TL page (R221). -/
namespace TL

def STATE : Fld := ⟨0x040, 0, 3, .ro, 0, false⟩
def HEAD_OP : Fld := ⟨0x040, 8, 8, .ro, 0, false⟩
def TL_LIST : Fld := ⟨0x048, 0, 40, .ro, 0, true⟩
def TL_PC : Fld := ⟨0x050, 0, 40, .ro, 0, true⟩
def TL_JOB_SEQ : Fld := ⟨0x058, 0, 32, .ro, 0, false⟩
def CMD_ERR : Fld := ⟨0x05C, 0, 16, .ro, 0, false⟩
def ERR_OP : Fld := ⟨0x05C, 16, 8, .ro, 0, false⟩
def TL_ERR_PC : Fld := ⟨0x060, 0, 40, .ro, 0, true⟩
def ACC_SAT : Fld := ⟨0x068, 0, 1, .ro, 0, false⟩
def LONG_K : Fld := ⟨0x068, 1, 1, .ro, 0, false⟩
def S_MIX : Fld := ⟨0x068, 2, 1, .ro, 0, false⟩
def CLIP : Fld := ⟨0x068, 3, 1, .ro, 0, false⟩
def MODE : Fld := ⟨0x06C, 0, 1, .rws, 0, false⟩
def TL_CMD_CNT : Fld := ⟨0x070, 0, 64, .rc, 0, true⟩
def TL_GWAIT_OC : Fld := ⟨0x078, 0, 32, .rc, 0, false⟩
def TL_FENCE_OC : Fld := ⟨0x07C, 0, 32, .rc, 0, false⟩
end TL

/-! The LUT page (R223). -/
namespace LUT

def ARRAY_BUSY : Fld := ⟨0x040, 0, 1, .ro, 0, false⟩
def BUILD_BUSY : Fld := ⟨0x040, 1, 1, .ro, 0, false⟩
def NEXT_HALF : Fld := ⟨0x040, 2, 1, .ro, 0, false⟩
def WIN_LOAD : Fld := ⟨0x040, 3, 1, .ro, 0, false⟩
def P_ACT : Fld := ⟨0x040, 4, 2, .ro, 0, false⟩
def RETRY : Fld := ⟨0x040, 6, 1, .ro, 0, false⟩
def LUT_BUSY : Fld := ⟨0x048, 0, 64, .rc, 0, true⟩
def TBL_BUSY : Fld := ⟨0x050, 0, 32, .rc, 0, false⟩
def WIN_WAIT : Fld := ⟨0x054, 0, 32, .rc, 0, false⟩
def RES_TRANSIENT : Fld := ⟨0x058, 0, 32, .rc, 0, false⟩
def RES_LASTING : Fld := ⟨0x05C, 0, 32, .rc, 0, false⟩
def F_LANE : Fld := ⟨0x060, 0, 7, .ro, 0, false⟩
def F_PARITY : Fld := ⟨0x060, 7, 1, .ro, 0, false⟩
def F_ROW : Fld := ⟨0x060, 8, 8, .ro, 0, false⟩
def F_SC : Fld := ⟨0x060, 16, 16, .ro, 0, false⟩
def INJ_LANE : Fld := ⟨0x064, 0, 7, .wo, 0, false⟩
def INJ_ARM : Fld := ⟨0x064, 7, 1, .wo, 0, false⟩
end LUT

/-! The ACC page (R154). -/
namespace ACC

def BUF_STATE (b : Nat) : Fld := ⟨0x040, 0 + b * 2, 2, .ro, 0, false⟩
def HOLD (b : Nat) : Fld := ⟨0x040, 8 + b, 1, .ro, 0, false⟩
def ACC_SAT (b : Nat) : Fld := ⟨0x044, 0 + b, 1, .w1c, 0, false⟩
def LONG_K (b : Nat) : Fld := ⟨0x044, 2 + b, 1, .w1c, 0, false⟩
def S_MIX (b : Nat) : Fld := ⟨0x044, 4 + b, 1, .w1c, 0, false⟩
def ACC_ACCESS_ERR : Fld := ⟨0x044, 6, 1, .w1c, 0, false⟩
def ROW : Fld := ⟨0x048, 0, 8, .rw, 0, false⟩
def BUF : Fld := ⟨0x048, 8, 1, .rw, 0, false⟩
def RR_FIRST : Fld := ⟨0x050, 0, 8, .wo, 0, false⟩
def RR_COUNT : Fld := ⟨0x050, 8, 9, .wo, 0, false⟩
def RR_BUF : Fld := ⟨0x050, 17, 1, .wo, 0, false⟩
def RR_S : Fld := ⟨0x050, 18, 4, .wo, 0, false⟩
def PROMO_CNT : Fld := ⟨0x058, 0, 64, .rc, 0, true⟩
def ACC_HOLD_OC : Fld := ⟨0x060, 0, 32, .rc, 0, false⟩
def SAT_EVENTS : Fld := ⟨0x064, 0, 32, .rc, 0, false⟩
end ACC

/-! The CNV page (R183). -/
namespace CNV

def BUSY : Fld := ⟨0x040, 0, 1, .ro, 0, false⟩
def HWAIT : Fld := ⟨0x040, 1, 1, .ro, 0, false⟩
def WWAIT : Fld := ⟨0x040, 2, 1, .ro, 0, false⟩
def ROW : Fld := ⟨0x040, 8, 9, .ro, 0, false⟩
def REQ_CLAMP : Fld := ⟨0x044, 0, 1, .w1c, 0, false⟩
def LUT_CLAMP : Fld := ⟨0x044, 1, 1, .w1c, 0, false⟩
def SCALE_HI : Fld := ⟨0x044, 2, 1, .w1c, 0, false⟩
def HIST_FALLBACK : Fld := ⟨0x044, 3, 1, .w1c, 0, false⟩
def DESC_ERR : Fld := ⟨0x044, 4, 1, .w1c, 0, false⟩
def FORCE_NEAREST : Fld := ⟨0x048, 0, 1, .rws, 0, false⟩
def ROWS_DRAINED : Fld := ⟨0x050, 0, 64, .rc, 0, true⟩
def CLIP_ELEMS : Fld := ⟨0x058, 0, 32, .rc, 0, false⟩
def DEGEN_ROWS : Fld := ⟨0x05C, 0, 32, .rc, 0, false⟩
def REQ_CLAMP_CNT : Fld := ⟨0x060, 0, 32, .rc, 0, false⟩
def LUT_CLAMP_CNT : Fld := ⟨0x064, 0, 32, .rc, 0, false⟩
def HIST_FALLBACK_CNT : Fld := ⟨0x068, 0, 32, .rc, 0, false⟩
def SNAP_CTX : Fld := ⟨0x06C, 0, 3, .wo, 0, false⟩
def SNAP_CLEAR : Fld := ⟨0x06C, 8, 1, .wo, 0, false⟩
def SNAP_SSE : Fld := ⟨0x070, 0, 48, .ro, 0, true⟩
def SNAP_SAMPLES : Fld := ⟨0x078, 0, 32, .ro, 0, false⟩
def SNAP_CLIPS : Fld := ⟨0x07C, 0, 32, .ro, 0, false⟩
def SNAP_DEGEN : Fld := ⟨0x080, 0, 16, .ro, 0, false⟩
def CTX_SSE (k : Nat) : Fld := ⟨0x100 + k * 0x20, 0, 48, .ro, 0, true⟩
def CTX_SAMPLES (k : Nat) : Fld := ⟨0x108 + k * 0x20, 0, 32, .ro, 0, false⟩
def CTX_CLIPS (k : Nat) : Fld := ⟨0x10C + k * 0x20, 0, 32, .ro, 0, false⟩
def CTX_DEGEN (k : Nat) : Fld := ⟨0x110 + k * 0x20, 0, 16, .ro, 0, false⟩
end CNV

/-! The ROT page (R184). -/
namespace ROT

def ROT_SIZES : Fld := ⟨0x040, 0, 4, .ro, 15, false⟩
def BYPASS : Fld := ⟨0x044, 0, 1, .rws, 0, false⟩
def ROT_SEGS : Fld := ⟨0x048, 0, 64, .rc, 0, true⟩
def ROT_KODD : Fld := ⟨0x050, 0, 32, .ro, 46341, false⟩
end ROT

/-! The SPD page (R284). -/
namespace SPD

def BANK_PWR (b : Nat) : Fld := ⟨0x040, 0 + b * 2, 2, .rws, 0, false⟩
def BANK_STAT (b : Nat) : Fld := ⟨0x044, 0 + b * 2, 2, .ro, 0, false⟩
def CE : Fld := ⟨0x048, 0, 1, .w1c, 0, false⟩
def UE : Fld := ⟨0x048, 1, 1, .w1c, 0, false⟩
def LASTING : Fld := ⟨0x048, 2, 1, .w1c, 0, false⟩
def LASTING_OVF : Fld := ⟨0x048, 3, 1, .w1c, 0, false⟩
def SCRUB_EN : Fld := ⟨0x04C, 0, 1, .rw, 0, false⟩
def INTERVAL : Fld := ⟨0x04C, 8, 24, .rw, 10000, false⟩
def CE_TRANSIENT : Fld := ⟨0x050, 0, 32, .rc, 0, false⟩
def CE_LASTING : Fld := ⟨0x054, 0, 32, .rc, 0, false⟩
def UE_CNT : Fld := ⟨0x058, 0, 32, .rc, 0, false⟩
def MERGE_CNT : Fld := ⟨0x05C, 0, 32, .rc, 0, false⟩
def FAULT_ADDR : Fld := ⟨0x060, 0, 40, .ro, 0, true⟩
def FAULT_CLASS : Fld := ⟨0x060, 40, 4, .ro, 0, true⟩
def FAULT_KIND : Fld := ⟨0x060, 44, 2, .ro, 0, true⟩
def LF_WORD (i : Nat) : Fld := ⟨0x080 + i * 4, 0, 15, .ro, 0, false⟩
def LF_VALID (i : Nat) : Fld := ⟨0x080 + i * 4, 31, 1, .ro, 0, false⟩
def CONFL (m : Nat) : Fld := ⟨0x0A0 + m * 4, 0, 32, .rc, 0, false⟩
def BYP_MAX (m : Nat) : Fld := ⟨0x0C0 + m * 4, 0, 8, .rc, 0, false⟩
def RG_EN (m r : Nat) : Fld := ⟨0x100 + m * 0x100 + r * 0x10, 0, 1, .rws, 0, true⟩
def RG_R (m r : Nat) : Fld := ⟨0x100 + m * 0x100 + r * 0x10, 1, 1, .rws, 0, true⟩
def RG_W (m r : Nat) : Fld := ⟨0x100 + m * 0x100 + r * 0x10, 2, 1, .rws, 0, true⟩
def RG_X (m r : Nat) : Fld := ⟨0x100 + m * 0x100 + r * 0x10, 3, 1, .rws, 0, true⟩
def RG_BASE (m r : Nat) : Fld := ⟨0x100 + m * 0x100 + r * 0x10, 6, 34, .rws, 0, true⟩
def RG_LIMIT (m r : Nat) : Fld := ⟨0x108 + m * 0x100 + r * 0x10, 6, 34, .rws, 0, true⟩
end SPD

/-! The LFT page (R285). -/
namespace LFT

def CMD_BUSY : Fld := ⟨0x040, 0, 1, .ro, 0, false⟩
def LIST_BUSY : Fld := ⟨0x040, 1, 1, .ro, 0, false⟩
def SW_BUSY : Fld := ⟨0x040, 2, 1, .ro, 0, false⟩
def INFLIGHT : Fld := ⟨0x040, 3, 6, .ro, 0, false⟩
def LIST_BASE : Fld := ⟨0x048, 5, 35, .rw, 0, true⟩
def LIST_CNT : Fld := ⟨0x050, 0, 16, .rw, 0, false⟩
def START : Fld := ⟨0x054, 0, 1, .wo, 0, false⟩
def ABORT : Fld := ⟨0x054, 1, 1, .wo, 0, false⟩
def LIST_DONE : Fld := ⟨0x058, 0, 16, .ro, 0, false⟩
def LIST_ERR_CODE : Fld := ⟨0x05C, 0, 16, .ro, 0, false⟩
def LIST_ERR_IDX : Fld := ⟨0x05C, 16, 16, .ro, 0, false⟩
def SW_BASE : Fld := ⟨0x060, 5, 35, .rws, 0, true⟩
def SW_CNT : Fld := ⟨0x060, 40, 7, .rws, 0, true⟩
def SEQ : Fld := ⟨0x060, 47, 1, .rws, 0, true⟩
def LFT_BYTES : Fld := ⟨0x068, 0, 64, .rc, 0, true⟩
def LFT_WAIT : Fld := ⟨0x070, 0, 32, .rc, 0, false⟩
def LFT_CRC_ERR : Fld := ⟨0x074, 0, 32, .rc, 0, false⟩
end LFT

/-! The DBG page (R249). -/
namespace DBG

def BIN_STEPS : Fld := ⟨0x040, 0, 64, .rc, 0, true⟩
def BIN_CONFLICT : Fld := ⟨0x048, 0, 32, .rc, 0, false⟩
def UPD_ELEMS : Fld := ⟨0x04C, 0, 32, .rc, 0, false⟩
def UPD_SKIP : Fld := ⟨0x050, 0, 32, .rc, 0, false⟩
def MOM_CLIPS : Fld := ⟨0x054, 0, 32, .rc, 0, false⟩
def PAR_CLAMP : Fld := ⟨0x058, 0, 32, .rc, 0, false⟩
def ERR_CMD (w : Nat) : Fld := ⟨0x090 + w * 4, 0, 32, .ro, 0, false⟩
end DBG

/-- Every field of the HDR page that has a register of its own. -/
def HDR.fields : List Fld :=
  [HDR.MINOR, HDR.MAJOR, HDR.ERR_HOLD, HDR.ERR_HI, HDR.CNT_CLR, HDR.ERR_VALID, HDR.IRQ_STAT, HDR.IRQ_EN] ++
  [HDR.IRQ_FORCE, HDR.ERR_CNT, HDR.REVERT, HDR.SWAP_CNT]

/-- Every field of the ENG page that has a register of its own. -/
def ENG.fields : List Fld :=
  [ENG.SYS_HOLD, ENG.SYS_GRANT, ENG.SYS_STALL] ++
  ((List.range 4).map ENG.SYS_STALL_P) ++
  [ENG.SYS_RD_BYTES, ENG.SYS_WR_BYTES, ENG.SYS_TMO, ENG.SYS_TMO_CNT, ENG.SYS_ERR_ADDR]

/-- Every field of the DLW page that has a register of its own. -/
def DLW.fields : List Fld :=
  [DLW.EN, DLW.AUTO_RESET, DLW.REPLAY_EN, DLW.CONFIRM_OC, DLW.STALL_TMO, DLW.ELEM_TMO, DLW.FENCE_TMO, DLW.REPLAY_TMO] ++
  [DLW.PCC_WDOG] ++
  ((List.range 4).map DLW.STATE) ++
  ((List.range 4).map DLW.CAUSE) ++
  ((List.range 4).map DLW.EPOCH) ++
  ((List.range 4).map DLW.DIRTY) ++
  [DLW.PRESET, DLW.SLOT, DLW.PAGE, DLW.VALID, DLW.BUSY, DLW.DUMP_REL, DLW.CYC_QMASK, DLW.HANG_CNT] ++
  [DLW.STALL_CNT, DLW.RESET_CNT, DLW.UNREADABLE_CNT, DLW.EPOCH_DROP, DLW.QUARANTINE_CNT, DLW.REPLAY_CLEAR, DLW.REPLAY_SUPPRESS, DLW.FENCE_DIRTY_CNT] ++
  ((List.range 8).map DLW.A_PART) ++
  ((List.range 8).map DLW.A_QUEUE) ++
  ((List.range 8).map DLW.B_PART) ++
  ((List.range 8).map DLW.B_QUEUE) ++
  ((List.range 8).map DLW.PEN) ++
  ((List.range 8).map DLW.CRIT) ++
  ((List.range 8).map DLW.STATUS) ++
  ((List.range 8).map DLW.PAIR_FLIPS)

/-- Every field of the LINK page that has a register of its own. -/
def LINK.fields : List Fld :=
  [LINK.EN, LINK.STN, LINK.MASTER, LINK.JOIN, LINK.LEAVE, LINK.STATE, LINK.LAPSYNC, LINK.MAPVER] ++
  [LINK.DEPOCH, LINK.PST_RANGE, LINK.LAP, LINK.JOB, LINK.KGEN_CUR, LINK.KGEN_NEXT, LINK.NEXT_VALID, LINK.SWAP] ++
  ((List.range 4).map LINK.KEY_CUR) ++
  ((List.range 4).map LINK.KEY_NEXT) ++
  [LINK.SILENCE, LINK.SLOT_LATE, LINK.DOWN_LAPS, LINK.ALARM_LAPS, LINK.RTX_TMO, LINK.REQ_TMO, LINK.MEMBER, LINK.UP] ++
  ((List.range 4).map LINK.LAPMAP_ACT) ++
  ((List.range 4).map LINK.LAPMAP_NEW) ++
  [LINK.EFF_LAP, LINK.VER, LINK.GO, LINK.FR_TX, LINK.FR_RX, LINK.FEC_SYM, LINK.FEC_UNCORR, LINK.STRANGER] ++
  [LINK.COLLISION, LINK.GARBLED_ECHO, LINK.RTX, LINK.DUP_DROP, LINK.OOO_DROP, LINK.OLD_EPOCH, LINK.PST_QWAIT, LINK.ATOM_REFUSED] ++
  [LINK.NOWIN, LINK.WIN_DUP]

/-- Every field of the PEER page that has a register of its own. -/
def PEER.fields : List Fld :=
  ((List.range 12).map PEER.P_DEPOCH) ++
  ((List.range 12).map PEER.P_MEMBER) ++
  ((List.range 12).map PEER.P_UP) ++
  ((List.range 12).map PEER.TX_SEQ) ++
  ((List.range 12).map PEER.TX_ACK) ++
  ((List.range 12).map PEER.RX_NEXT) ++
  ((List.range 12).map PEER.P_PEPOCH) ++
  ((List.range 12).map PEER.P_FENCED) ++
  [PEER.OWN_PEPOCH] ++
  ((List.range 4).map PEER.XR_BASE) ++
  ((List.range 4).map PEER.XR_LOG2) ++
  ((List.range 4).map PEER.XR_HEAD) ++
  ((List.range 4).map PEER.XR_TAIL) ++
  ((List.range 32).map PEER.TAG) ++
  ((List.range 32).map PEER.GATE) ++
  ((List.range 32).map PEER.ARM) ++
  ((List.range 32).map PEER.DISARM) ++
  ((List.range 32).map PEER.WSTATE) ++
  ((List.range 32).map PEER.WSAT) ++
  ((List.range 32).map PEER.TCAUSE) ++
  ((List.range 32).map PEER.TCONTRIB) ++
  ((List.range 32).map PEER.EXPECT) ++
  ((List.range 32).map PEER.ARRIVED) ++
  ((List.range 32).map PEER.WIN_ADDS)

/-- Every field of the SEC page that has a register of its own. -/
def SEC.fields : List Fld :=
  [SEC.LC_STATE, SEC.DBG_OPEN, SEC.BOOT_COPY, SEC.BOOT_TIE, SEC.BOOT_ALT, SEC.BOOT_RCV, SEC.A_ERR, SEC.B_ERR] ++
  [SEC.FW_VER_RUN, SEC.SVN_CTR, SEC.KEY_PROV, SEC.KEY_REVOKED, SEC.DEV_ID, SEC.NONCE, SEC.INST_VALID, SEC.INST_COPY] ++
  [SEC.INST_VER, SEC.MB_OP, SEC.MB_ADDR, SEC.MB_LEN, SEC.MB_SLOT, SEC.BUSY, SEC.DONE, SEC.OVR] ++
  [SEC.STATUS]

/-- Every field of the PWR page that has a register of its own. -/
def PWR.fields : List Fld :=
  [PWR.EMG_LEVEL, PWR.EMG_DONE, PWR.EMG1_V] ++
  ((List.range 4).map PWR.PVREQ) ++
  ((List.range 4).map PWR.PVACT) ++
  ((List.range 4).map PWR.SETTLED) ++
  ((List.range 4).map PWR.TILE_GATE) ++
  ((List.range 4).map PWR.TILE_GATED) ++
  ((List.range 4).map PWR.TJ) ++
  ((List.range 4).map PWR.TJ_PEAK) ++
  ((List.range 4).map PWR.RATE) ++
  ((List.range 4).map PWR.OSC_CAL) ++
  ((List.range 4).map PWR.OSC_TRIM) ++
  ((List.range 4).map PWR.CAL_TJ) ++
  [PWR.OSC_CAL_E] ++
  ((List.range 2).map PWR.OSC_CAL_T) ++
  [PWR.OSC_ERR_P, PWR.OSC_ERR_E, PWR.OSC_ERR_T, PWR.SRC_MARK, PWR.SRC_ORPHAN, PWR.SRC_PAIR_DOWN, PWR.ALERT_FORCE, PWR.ALERT_PIN] ++
  [PWR.WAKE_SEEN, PWR.WAKE_PIN, PWR.EMG_CHANGES, PWR.EMG2_OC, PWR.ALERT_CNT]

/-- Every field of the PCTL page that has a register of its own. -/
def PCTL.fields : List Fld :=
  [PCTL.HOST, PCTL.DB_IGNORE, PCTL.FW_READY, PCTL.ACT_DEFER, PCTL.HWIN_SEL, PCTL.BND_GATE, PCTL.BND_EN, PCTL.BND_CNT] ++
  [PCTL.BND_REQ, PCTL.OC_NOW, PCTL.HB, PCTL.HB_TMO, PCTL.HB_AGE, PCTL.HOST_GRACE, PCTL.ORPH_ALERT, PCTL.FC_BASE] ++
  [PCTL.FC_LOG2, PCTL.FC_DB, PCTL.FC_HEAD, PCTL.FR_BASE, PCTL.FR_LOG2, PCTL.FR_HEAD, PCTL.FR_TAIL, PCTL.LG_BASE] ++
  [PCTL.LG_LOG2, PCTL.LG_HEAD, PCTL.TR_BASE, PCTL.TR_LOG2, PCTL.TR_MODE, PCTL.TR_HEAD, PCTL.TR_TAIL, PCTL.TR_LOST] ++
  [PCTL.FW_VER]

/-- Every field of the QMG page that has a register of its own. -/
def QMG.fields : List Fld :=
  [QMG.SIG_INDEX, QMG.SIG_GLOBAL, QMG.SIG_INC] ++
  ((List.range 3).map QMG.SEL_INDEX) ++
  ((List.range 3).map QMG.SEL_GLOBAL) ++
  [QMG.OP_INDEX, QMG.OP_GLOBAL, QMG.OP_OP] ++
  ((List.range 3).map QMG.GT_ARG) ++
  ((List.range 3).map QMG.GT_ARG2) ++
  ((List.range 3).map QMG.GT_RES) ++
  [QMG.GT_REFUSED, QMG.DB_IGNORED, QMG.CR_OVERWRITE, QMG.DISPATCHES] ++
  ((List.range 16).map QMG.Q_BASE) ++
  ((List.range 16).map QMG.Q_LOG2) ++
  ((List.range 16).map QMG.Q_EN) ++
  ((List.range 16).map QMG.Q_PRIO) ++
  ((List.range 16).map QMG.Q_STANDING) ++
  ((List.range 16).map QMG.Q_DB) ++
  ((List.range 16).map QMG.Q_HEAD) ++
  ((List.range 16).map QMG.Q_STATE) ++
  ((List.range 16).map QMG.DB_ERR) ++
  ((List.range 16).map QMG.CFG_ERR) ++
  ((List.range 16).map QMG.INFLIGHT) ++
  ((List.range 16).map QMG.CR_BASE) ++
  ((List.range 16).map QMG.CR_LOG2) ++
  ((List.range 16).map QMG.CR_TAIL) ++
  ((List.range 16).map QMG.CR_HEAD) ++
  ((List.range 16).map QMG.STD_FGATE) ++
  ((List.range 16).map QMG.STD_FGLOBAL) ++
  ((List.range 16).map QMG.STD_LEN) ++
  ((List.range 16).map QMG.STD_FBASE) ++
  ((List.range 16).map QMG.STD_SEQ) ++
  ((List.range 16).map QMG.STD_MAXLAG) ++
  [QMG.CR_FULL_OC]

/-- Every field of the MC page that has a register of its own. -/
def MC.fields : List Fld :=
  [MC.TRAINED, MC.THROT, MC.CH_TRAINED, MC.MR4_RATE, MC.SCRUB_EN, MC.INTERVAL, MC.SCRUB_POS, MC.SCRUB_PASSES] ++
  [MC.CE, MC.UE, MC.LASTING, MC.LASTING_OVF, MC.ATOM_SAT, MC.TRAIN_ERR, MC.CE_TRANSIENT, MC.CE_LASTING] ++
  [MC.UE_CNT, MC.ATOM_SAT_CNT, MC.ATOM_ADDS, MC.RD_BYTES, MC.WR_BYTES, MC.CHK_MISS, MC.MC_BUSY_OC, MC.FAULT_PADDR] ++
  [MC.FAULT_CH, MC.FAULT_KIND] ++
  ((List.range 16).map MC.LF_PADDR) ++
  ((List.range 16).map MC.LF_CH) ++
  ((List.range 16).map MC.LF_UE) ++
  ((List.range 16).map MC.LF_VALID)

/-- Every field of the TL page that has a register of its own. -/
def TL.fields : List Fld :=
  [TL.STATE, TL.HEAD_OP, TL.TL_LIST, TL.TL_PC, TL.TL_JOB_SEQ, TL.CMD_ERR, TL.ERR_OP, TL.TL_ERR_PC] ++
  [TL.ACC_SAT, TL.LONG_K, TL.S_MIX, TL.CLIP, TL.MODE, TL.TL_CMD_CNT, TL.TL_GWAIT_OC, TL.TL_FENCE_OC]

/-- Every field of the LUT page that has a register of its own. -/
def LUT.fields : List Fld :=
  [LUT.ARRAY_BUSY, LUT.BUILD_BUSY, LUT.NEXT_HALF, LUT.WIN_LOAD, LUT.P_ACT, LUT.RETRY, LUT.LUT_BUSY, LUT.TBL_BUSY] ++
  [LUT.WIN_WAIT, LUT.RES_TRANSIENT, LUT.RES_LASTING, LUT.F_LANE, LUT.F_PARITY, LUT.F_ROW, LUT.F_SC, LUT.INJ_LANE] ++
  [LUT.INJ_ARM]

/-- Every field of the ACC page that has a register of its own. -/
def ACC.fields : List Fld :=
  ((List.range 2).map ACC.BUF_STATE) ++
  ((List.range 2).map ACC.HOLD) ++
  ((List.range 2).map ACC.ACC_SAT) ++
  ((List.range 2).map ACC.LONG_K) ++
  ((List.range 2).map ACC.S_MIX) ++
  [ACC.ACC_ACCESS_ERR, ACC.ROW, ACC.BUF, ACC.RR_FIRST, ACC.RR_COUNT, ACC.RR_BUF, ACC.RR_S, ACC.PROMO_CNT] ++
  [ACC.ACC_HOLD_OC, ACC.SAT_EVENTS]

/-- Every field of the CNV page that has a register of its own. -/
def CNV.fields : List Fld :=
  [CNV.BUSY, CNV.HWAIT, CNV.WWAIT, CNV.ROW, CNV.REQ_CLAMP, CNV.LUT_CLAMP, CNV.SCALE_HI, CNV.HIST_FALLBACK] ++
  [CNV.DESC_ERR, CNV.FORCE_NEAREST, CNV.ROWS_DRAINED, CNV.CLIP_ELEMS, CNV.DEGEN_ROWS, CNV.REQ_CLAMP_CNT, CNV.LUT_CLAMP_CNT, CNV.HIST_FALLBACK_CNT] ++
  [CNV.SNAP_CTX, CNV.SNAP_CLEAR, CNV.SNAP_SSE, CNV.SNAP_SAMPLES, CNV.SNAP_CLIPS, CNV.SNAP_DEGEN] ++
  ((List.range 8).map CNV.CTX_SSE) ++
  ((List.range 8).map CNV.CTX_SAMPLES) ++
  ((List.range 8).map CNV.CTX_CLIPS) ++
  ((List.range 8).map CNV.CTX_DEGEN)

/-- Every field of the ROT page that has a register of its own. -/
def ROT.fields : List Fld :=
  [ROT.ROT_SIZES, ROT.BYPASS, ROT.ROT_SEGS, ROT.ROT_KODD]

/-- Every field of the SPD page that has a register of its own. -/
def SPD.fields : List Fld :=
  ((List.range 16).map SPD.BANK_PWR) ++
  ((List.range 16).map SPD.BANK_STAT) ++
  [SPD.CE, SPD.UE, SPD.LASTING, SPD.LASTING_OVF, SPD.SCRUB_EN, SPD.INTERVAL, SPD.CE_TRANSIENT, SPD.CE_LASTING] ++
  [SPD.UE_CNT, SPD.MERGE_CNT, SPD.FAULT_ADDR, SPD.FAULT_CLASS, SPD.FAULT_KIND] ++
  ((List.range 8).map SPD.LF_WORD) ++
  ((List.range 8).map SPD.LF_VALID) ++
  ((List.range 8).map SPD.CONFL) ++
  ((List.range 8).map SPD.BYP_MAX) ++
  ((List.range 7).flatMap fun a => (List.range 16).map (SPD.RG_EN a)) ++
  ((List.range 7).flatMap fun a => (List.range 16).map (SPD.RG_R a)) ++
  ((List.range 7).flatMap fun a => (List.range 16).map (SPD.RG_W a)) ++
  ((List.range 7).flatMap fun a => (List.range 16).map (SPD.RG_X a)) ++
  ((List.range 7).flatMap fun a => (List.range 16).map (SPD.RG_BASE a)) ++
  ((List.range 7).flatMap fun a => (List.range 16).map (SPD.RG_LIMIT a))

/-- Every field of the LFT page that has a register of its own. -/
def LFT.fields : List Fld :=
  [LFT.CMD_BUSY, LFT.LIST_BUSY, LFT.SW_BUSY, LFT.INFLIGHT, LFT.LIST_BASE, LFT.LIST_CNT, LFT.START, LFT.ABORT] ++
  [LFT.LIST_DONE, LFT.LIST_ERR_CODE, LFT.LIST_ERR_IDX, LFT.SW_BASE, LFT.SW_CNT, LFT.SEQ, LFT.LFT_BYTES, LFT.LFT_WAIT] ++
  [LFT.LFT_CRC_ERR]

/-- Every field of the DBG page that has a register of its own. -/
def DBG.fields : List Fld :=
  [DBG.BIN_STEPS, DBG.BIN_CONFLICT, DBG.UPD_ELEMS, DBG.UPD_SKIP, DBG.MOM_CLIPS, DBG.PAR_CLAMP] ++
  ((List.range 4).map DBG.ERR_CMD)


/-- The 64-bit error record of a page (R476). It is reached through ERR_INFO only, so it has no offset of its own. -/
def HDR.ERR_REC : Fld := ⟨0x3000, 0, 64, .ro, 0, true⟩

end Sys2Proof.Machine
end

