-- ==== Sys2Proof/Machine/State.lean ====
section
/-! DEFINITION. The state of the block as plain data: every register, buffer, queue, counter and mode that the spec
gives it (INVENTORY.md, State), and the state after reset. -/
namespace Sys2Proof.Machine

/-! ### A tile -/

/-- The eight register pages of a tile (R37). -/
structure TilePages where
  tl : Bank
  lut : Bank
  acc : Bank
  cnv : Bank
  rot : Bank
  spd : Bank
  lft : Bank
  dbg : Bank
  deriving DecidableEq, Repr

/-- An access from outside the tile's units that a waking bank holds (R264), with the port of the partition fabric that it
came in by, the OC since then (R268, R405), and what its words have answered, ERR_ code and bytes, or nothing where the bank
still holds them (R252, R262). With `latch` it is the read of a released DRAIN's descriptor or records (R161, R163). -/
structure HeldAccess where
  cls : Nat
  addr : Nat
  acc : Access
  port : Nat
  age : Nat
  got : List (Option (Nat × List Byte))
  latch : Bool
  deriving DecidableEq, Repr

/-- The scratchpad (R250 to R258): content, check symbols (3 bytes a codeword), codewords that wait for their
corrected write-back with the class of the read that found them, the scrubber's next word, the port that each bank
granted last (R267), and the accesses that waking banks hold (R264). -/
structure Spd where
  data : Memory
  chk : Memory
  fixups : List (Nat × Nat)
  scrubNext : Nat
  lastPort : Assoc Nat
  waiting : List HeldAccess
  deriving DecidableEq, Repr

/-- The row state of R128. -/
structure RowState where
  pcnt : Nat
  s : Nat
  written : Bool
  sMix : Bool
  longK : Bool
  sat : Bool
  deriving DecidableEq, Repr

/-- One accumulator buffer: entries at row × 0x200 + lane × 4 (R44), and the rows whose state is not clear. -/
structure AccBuf where
  mem : Memory
  rows : Assoc RowState
  deriving DecidableEq, Repr

/-- One lane accumulator entry: its L22 value and the residue it carries (R64, R112). -/
structure Lane where
  v : Int
  res : Nat
  deriving DecidableEq, Repr

/-- A row of lane values on its way to the promotion unit: the target row, and each lane's value (R126, R235). -/
structure Promo where
  row : Nat
  vals : List (Nat × Int)
  deriving DecidableEq, Repr

/-- A command in a unit or in the sequencer: address, bits, acceptance number, the buffers it names and has not
released, whether it has passed its hold, whether it has begun, and its status flags ACC_SAT, LONG_K, S_MIX and CLIP in
bits 0 to 3 (R195). -/
structure Active where
  pc : Nat
  bits : CmdWord
  num : Nat
  bufs : List Nat
  released : Bool
  begun : Bool
  flags : Nat
  deriving DecidableEq, Repr

/-- A residue retry in progress (R113): the lanes of M, and the retries made. -/
structure Retry where
  lanes : List Nat
  made : Nat
  deriving DecidableEq, Repr

/-- A position in the loop of R106: row block, super-chunk, row of the block, step of the super-chunk. -/
structure Pos where
  rb : Nat
  sc : Nat
  r : Nat
  q : Nat
  deriving DecidableEq, Repr

/-- The running array-unit command: its latched descriptors (walk, or update descriptor; gradient descriptor; moment
books), the next step to run and to build, what the window holds, the lanes that parity has marked, promotions on their
way and held in the bin adder, rows it has promoted into, the staging pair of the pass's first step, the next element of
an UPDATE, and the lanes at which a BIN step of the pass has missed its residue (R235). -/
structure ArrayRun where
  desc : Nat
  grad : Nat
  m1 : List Byte
  m2 : List Byte
  pos : Pos
  bpos : Pos
  window : Option (Nat × Nat)
  parity : List Nat
  promo : List Promo
  held : List Promo
  retry : Option Retry
  touched : List Nat
  pair : Nat
  elem : Nat
  missed : List Nat
  deriving DecidableEq, Repr

/-- A drained row that the CNV has read and not yet written (R158): row, the values that enter quantisation, or a raw
row's entries, the row's saturation, the word that its history operation returned, whether the CNV has that reply or needs
none, the row's S, and OC since the operation (R405). -/
structure HistRow where
  row : Nat
  vals : List Int
  sat : Bool
  reply : Nat
  arrived : Bool
  shift : Nat
  age : Nat
  deriving DecidableEq, Repr

/-- The running DRAIN: its latched descriptor and channel records, the next row to read, rows that are read and not yet
written, oldest first, the next row to write, and the header of the current block. -/
structure DrainRun where
  desc : Nat
  params : List Byte
  next : Nat
  hist : List HistRow
  done : Nat
  header : List Byte
  deriving DecidableEq, Repr

/-- What a DRAIN has read since its release: descriptor and channel records, the ERR_ code of the first read that was
refused, and whether it has read all (R161, R163). -/
structure DrainLatch where
  desc : Nat
  params : List Byte
  err : Nat
  full : Bool
  deriving DecidableEq, Repr

/-- A copy in the lift engine: the bytes done, the running CRC-32C register, and the descriptor's index in its list. -/
structure CopyRun where
  done : Nat
  crc : Nat
  idx : Nat
  desc : Option Nat
  deriving DecidableEq, Repr

/-- A command that the sequencer has read and not yet accepted: its address, its bits and, where its fetch was
refused, the refusal's ERR_ code (R185, R186). -/
structure Fetched where
  pc : Nat
  bits : CmdWord
  err : Nat
  deriving DecidableEq, Repr

/-- The sequencer: next fetch address, commands read ahead, the synchronising commands accepted and not completed, oldest
first, commands accepted so far in the list, and whether the command with LAST has been accepted (R185 to R194). -/
structure Seqr where
  fetchPc : Option Nat
  ahead : List Fetched
  sync : List Active
  accepted : Nat
  ended : Bool
  deriving DecidableEq, Repr

/-- A write that the book store or a LUT holds back (R82, R87): address and bytes. -/
structure HeldWrite where
  addr : Nat
  bytes : List Byte
  deriving DecidableEq, Repr

/-- The table store, window and lanes of the lookup array (R76, R83, R91, R107, R112). `ready` lists the halves built
and not yet consumed, oldest first; `residues` holds each table entry's residue at half × 256 + slot × 16 + entry. -/
structure ArrayMem where
  table : Memory
  residues : Memory
  ready : List Nat
  window : List Byte
  lanes : Assoc (List Lane)
  inject : Option Nat
  deriving DecidableEq, Repr

/-- The book store with its tags (INVALID where none is listed), the activation LUTs, and the writes they hold
back (R77 to R87). -/
structure Books where
  mem : Memory
  tags : Assoc Nat
  held : List HeldWrite
  luts : Memory
  heldLut : List HeldWrite
  deriving DecidableEq, Repr

/-- A descriptor of a placement list (R280): its 32 bytes as one number, and the bytes of the firmware's partition-memory copy
where it copies from there, whose place the spec does not give (log entry 142). -/
structure LoadDesc where
  desc : Nat
  copy : Option (List Byte)
  deriving DecidableEq, Repr

/-- A lift list with which the firmware places a model (R280): the model's handle, and the descriptors. -/
structure LoadRun where
  handle : Nat
  descs : List LoadDesc
  deriving DecidableEq, Repr

/-- The execution units: accepted, uncompleted commands oldest first, and what the head of each unit is doing
(R188, R189). The lift engine also holds its lift list with an ABORT that waits for a piece boundary, the switch list,
the error of a switch list that stops the tile's next list (R274), and whose turn of 4 KiB it is, with the bytes that the
turn has moved (R270). `latched` holds what each released DRAIN has read, by acceptance number (R161, R163), `loads` the
placement lists that the lift engine has not finished, and `loading` whether its lift list is the first of them (R280). -/
structure Units where
  array : List Active
  cnv : List Active
  lift : List Active
  arrayRun : Option ArrayRun
  drain : Option DrainRun
  copy : Option CopyRun
  list : Option CopyRun
  listAbort : Bool
  switch : Option CopyRun
  switchErr : Nat
  turnList : Bool
  turnBytes : Nat
  latched : Assoc DrainLatch
  loads : List LoadRun
  loading : Bool
  deriving DecidableEq, Repr

/-- The job that a tile runs: the job's number, its queue, its DESC_INDEX and the bytes its drains have written (R374). -/
structure TileJob where
  id : Nat
  queue : Nat
  index : Nat
  extent : Nat
  deriving DecidableEq, Repr

/-- A tile. `progress` is OC_NOW of its partition at its last completed step, promotion, row, piece or access (R400,
R487). -/
structure Tile where
  pg : TilePages
  spd : Spd
  acc0 : AccBuf
  acc1 : AccBuf
  arr : ArrayMem
  books : Books
  dither : BitVec 64
  seq : Seqr
  units : Units
  job : Option TileJob
  progress : Nat
  deriving DecidableEq, Repr

/-! ### A partition -/

/-- A gate (R361, R366, R398). `cfg` holds QMASK, PMASK, HOST, XSRC, PISTE, FW and ALLOW at the bits of R366; VALID and
ERR have fields of their own. `quiet` counts OC since the last applied external signal or the moment the gate became
WAITED. -/
structure Gate where
  value : Nat
  cfg : Nat
  valid : Bool
  err : Bool
  quiet : Nat
  deriving DecidableEq, Repr

/-- A dispatched job (R370 to R374): its number, queue, descriptor, DESC_INDEX, sequence number, OC_NOW at dispatch, first
error with its tile (0xFF: none), OVERRUN, its standing instance, whether it has completed and only its record waits, its
flags and extent so far, OC_NOW at completion, and the number of the free value that stands for RUN_OC where dispatch and
completion have no common count (0: they have; R374, R454). -/
structure Job where
  id : Nat
  queue : Nat
  desc : Nat
  index : Nat
  seq : Nat
  start : Nat
  status : Nat
  errTile : Nat
  overrun : Bool
  inst : Option Nat
  ended : Bool
  flags : Nat
  extent : Nat
  endOc : Nat
  runFree : Nat
  deriving DecidableEq, Repr

/-- A standing chain: the next entry of the running instance to dispatch (0: none runs part-way), whether that instance's
records carry OVERRUN, whether every entry had PAIR = 1 when the chain was last judged, and the value that its arming gate
had at the end of a restriction after which it has not been judged yet (R378, R380, R462, R465). -/
structure Chain where
  next : Nat
  overrun : Bool
  paired : Option Bool
  due : Option Nat
  deriving DecidableEq, Repr

/-- A write of the FW class to an enabled queue's Q_STANDING (field 0) or an STD_ field (1 FGATE, 2 FGLOBAL, 3 LEN,
4 FBASE, 5 MAXLAG) that waits for its moment (R377). -/
structure ChainWrite where
  queue : Nat
  field : Nat
  value : Nat
  deriving DecidableEq, Repr

/-- A firmware command that has been fetched: its 64 bytes as one number, its command count, and its phase: 0 until it is
under way, then what it goes on with, the handle of a model that is being placed or BND_CNT at a switch (R386, R387, R390). -/
structure FwCmd where
  bits : Nat
  count : Nat
  phase : Nat
  deriving DecidableEq, Repr

/-- A reply that is not yet written: OP, command count, STATUS, COOKIE, and the 16 result bytes as one number (R386). -/
structure FwReply where
  op : Nat
  count : Nat
  status : Nat
  cookie : Nat
  results : Nat
  deriving DecidableEq, Repr

/-- A suspect of a reset and its verdict: clear or guilty (R417, R419). -/
structure Suspect where
  job : Job
  verdict : Option Bool
  deriving DecidableEq, Repr

/-- A firmware event that its firmware has not yet written into its rings: EVENT, SEVERITY, ERR_ code, first argument
(R391, R393). -/
structure FwEvent where
  event : Nat
  sev : Nat
  err : Nat
  arg : Nat
  deriving DecidableEq, Repr

/-- What a declaration found, as the GRAPH element holds it (R487). -/
structure Graph where
  kind : Nat
  who : Nat
  gates : List Nat
  progress : Nat
  deriving DecidableEq, Repr

/-- The firmware's journal (R415), which it restores in RESTART: ring registers and counts, host state and timeouts,
partition gates with the values that the dump recorded, active scratchpad regions and switch lists of each tile with a
resident model. -/
structure Journal where
  qmg : Bank
  pctl : Bank
  gates : Assoc Gate
  tiles : Assoc (Bank × Bank)
  deriving DecidableEq, Repr

/-- A partition reset in progress: the declaration, the next dump element, UNREADABLE elements and bytes written so
far, OC_NOW at the declaration, whether the slot may be written, whether a replay follows, and whether the partition
ends OFF (R403 to R419, R463). -/
structure ResetRun where
  graph : Graph
  elem : Nat
  unread : Nat
  bytes : Nat
  declOc : Nat
  slotFree : Bool
  replay : Bool
  toOff : Bool
  deriving DecidableEq, Repr

/-- One channel group's memory controller: page, stack content by physical address with its check region, cached check
blocks and buffered bursts, oldest first, and the corrected bursts whose write-back waits, with the position of the wrong
symbol (R289, R293, R294, R301, R306). -/
structure MemCtl where
  bank : Bank
  mem : Memory
  cache : List Nat
  merge : List Nat
  fixups : List (Nat × Nat)
  deriving DecidableEq, Repr

/-- A remote transfer in progress (R347, R348): its descriptor, the bytes sent, the RIDs whose replies are outstanding
with their offset and length, the first error, and OC since its start. -/
structure Xfer where
  desc : Nat
  sent : Nat
  open_ : List (Nat × Nat × Nat)
  err : Nat
  age : Nat
  deriving DecidableEq, Repr

/-- A partition. `heads` holds the head descriptors that the queue manager has fetched, `lastQueue` the queue that each
priority dispatched last (R372), `nextJob` the number of the next job, `grace` the instances that each chain has started
in GRACE (R388), `replaying` the number of the suspect that is replayed (R418), `levelBnd` a boundary request of emergency
level 2 and `only2` the restriction after that boundary (R462), `actHold` the hold of an activation and `bndAct` a boundary
request that it alone has made (R390), `switchWait`
a SWITCH_MODEL that waits for its boundary (R281), `gateErr` the global gates whose error the firmware clears after the
restart (R402), `fenceOf` the epoch that its latest fence ended (R358). -/
structure Part where
  pctl : Bank
  qmg : Bank
  mc : Vector MemCtl 2
  gates : Assoc Gate
  jobs : List Job
  chains : Assoc Chain
  chainWrites : List ChainWrite
  heads : Assoc Nat
  lastQueue : Assoc Nat
  nextJob : Nat
  fw : Option FwCmd
  replies : List FwReply
  events : List FwEvent
  journal : Option Journal
  rst : Option ResetRun
  suspects : List Suspect
  replaying : Option Nat
  xfer : Option Xfer
  nextRid : Nat
  grace : Assoc Nat
  levelBnd : Bool
  only2 : Bool
  actHold : Bool
  bndAct : Bool
  switchWait : Bool
  gateErr : List Nat
  fenceOf : Option Nat
  deriving DecidableEq, Repr

/-! ### A Piste port -/

/-- What a queued message belongs to: an ATOMIC or GATE_SIGNAL of a tile, a transfer, or a reply of the port. -/
inductive MsgOrigin where
  | tile (g : TileId)
  | xfer (p : PartId)
  | port
  deriving DecidableEq, Repr

/-- A sequenced message held by the sender: destination, issuing partition with its epoch, SEQ once placed in a frame,
OC since it was last sent, and whether it is to be sent again at once (R340, R342, R330). -/
structure TxMsg where
  dst : Nat
  part : PartId
  epoch : Nat
  msg : Msg
  seq : Option Nat
  age : Nat
  resend : Bool
  origin : MsgOrigin
  deriving DecidableEq, Repr

/-- A lap map on its way: its four words, EFF_LAP, VER, whether this station distributes it, and the members that have
reported VER (R328). -/
structure NewMap where
  words : List Nat
  eff : Nat
  ver : Nat
  mine : Bool
  reported : List Nat
  deriving DecidableEq, Repr

/-- An inbound message that cannot be taken yet: its sender, and whether its stream advances when it is delivered (R341). -/
structure HeldMsg where
  src : Sender
  msg : Msg
  inStream : Bool
  deriving DecidableEq, Repr

/-- A Piste port: its pages, both keys and whether a frame has been sealed under each (R326), the slot it is in, queued and
unacknowledged messages, inbound messages that it holds (R341), the frames it sent in this slot, the stations accepted in
this lap, laps without one (R355), own echoes bad in this lap and in past laps, and OC without a signal (R356), garbled
slots in this lap and laps (R332), collisions, laps of backoff and whether it has contended in this lap (R331), a map on its
way and the newer version that mutes it (R328), stations that a JOIN_ACK is due to, whether its own JOIN_ACK has come and
whether it has used a DEPOCH (R339, R353), slots since LEAVE, ended epochs and recorded states of remote partitions at
index 4 × station + partition (R345). -/
structure Port where
  link : Bank
  peer : Bank
  keyCur : BitVec 128
  keyNext : BitVec 128
  sealed : Bool
  sealedNext : Bool
  slot : Nat
  tx : List TxMsg
  held : List HeldMsg
  out : List Frame
  heard : List Nat
  downLaps : Assoc Nat
  echoBad : Bool
  badLaps : Nat
  dark : Nat
  slotBad : Bool
  alarmLaps : Nat
  collisions : Nat
  backoff : Nat
  contended : Bool
  newMap : Option NewMap
  muted : Option Nat
  joinAcks : List (Nat × Nat)
  joinAcked : Bool
  depochUsed : Bool
  leaveSlots : Nat
  epochsEnded : Assoc Nat
  peerState : Assoc Nat
  deriving DecidableEq, Repr

/-! ### The engine -/

/-- Who waits at the system port. -/
inductive Who where
  | tile (g : TileId) (unit : Nat)
  | qmg (p : PartId)
  | fw (p : PartId)
  | xfer (p : PartId)
  /-- nobody waits: a posted write, or one whose requester's command has ended -/
  | gone (p : PartId)
  /-- the engine manager core (R309), which waits for no answer to what it writes -/
  | emc
  deriving DecidableEq, Repr

/-- A request at the system port: number, requester, originator class (R267), port, address and length (64 or 128 bytes,
aligned), a write's bytes with their place in it, whether it has been handed over, OC since hand-over, its bypass count, and
OC since it entered the table (R308 to R313, R405). -/
structure SysReq where
  id : Nat
  who : Who
  cls : Nat
  port : Fin 5
  addr : Nat
  len : Nat
  data : Option (Nat × List Byte)
  handed : Bool
  age : Nat
  count : Nat
  waited : Nat
  deriving DecidableEq, Repr

/-- An answer that its requester has not yet taken: for which access, its ERR_ code, and read data. `used` marks it while
the micro-operation that takes it is under way. -/
structure SysAns where
  who : Who
  addr : Nat
  len : Nat
  write : Bool
  err : Nat
  bytes : List Byte
  used : Bool
  deriving DecidableEq, Repr

/-- The system port: requests oldest first, answers not yet taken, the request that the SoC fabric has not accepted
(R310), the port granted last (R309), and the requests that a fence has ended without a reply: number, partition, epoch
(R411, R412). -/
structure SysPort where
  nextId : Nat
  reqs : List SysReq
  answers : List SysAns
  held : Option Nat
  lastPort : Nat
  late : List (Nat × Nat × Nat)
  deriving DecidableEq, Repr

/-- What a resident model holds on one tile (R277). -/
structure TileAlloc where
  tile : Nat
  spdBase : Nat
  spdBytes : Nat
  book0 : Nat
  nbook : Nat
  a0row0 : Nat
  a0rows : Nat
  a1row0 : Nat
  a1rows : Nat
  stats : Nat
  luts : Nat
  bsrc : Nat
  deriving DecidableEq, Repr

/-- What a resident model holds in one partition. -/
structure PartAlloc where
  part : Nat
  gate0 : Nat
  gates : Nat
  queues : Nat
  pmem0 : Nat
  pmemBytes : Nat
  deriving DecidableEq, Repr

/-- An accepted model: handle, MODEL_ID, MODEL_VER, allocations, its copy of what it holds in scratchpads (tile, offset,
bytes; R415), 0 RESIDENT, 1 DEGRADED, 2 QUARANTINED, the value of its load gate, the number of lists whose last descriptor
signals it, and the ERR_ code of one that has failed (R280), the tiles on which it is active, and those on which the
partition's next boundary makes it so (R281, R283). -/
structure Model where
  handle : Nat
  id : Nat
  ver : Nat
  tiles : List TileAlloc
  parts : List PartAlloc
  copies : List (Nat × Nat × List Byte)
  status : Nat
  loadGate : Nat
  loadLists : Nat
  loadErr : Nat
  active : List Nat
  next : List Nat
  deriving DecidableEq, Repr

/-- An entry of the fault log (R425, R485): kind, partition, tile or channel group, uncorrectable, address. -/
structure FaultEntry where
  kind : Nat
  part : Nat
  unit : Nat
  unc : Bool
  addr : Nat
  deriving DecidableEq, Repr

/-- A reduction window's latch (R351). -/
structure WinLatch where
  tag : Nat
  gate : Nat
  expect : Nat
  deriving DecidableEq, Repr

/-- OTP (R433 to R435, R446): the hash of each key slot, the device secret and its class. PROV, REVOKED, the counter and
the state are read through their SEC fields. -/
structure Otp where
  hashes : Assoc Nat
  secret : BitVec 256
  returned : Bool
  deriving DecidableEq, Repr

/-- The recovery loader (R444, R445): running or not, staging buffer, previous valid frame with its response, the last
response, and the bytes received since the last whole frame. -/
structure Loader where
  running : Bool
  staging : Memory
  prev : Option (UartFrame × List Byte)
  response : List Byte
  rx : List Byte
  deriving DecidableEq, Repr

/-- Whom the debug port answers, as the ROM has fixed it at the last boot (R446). -/
inductive DebugPort where
  | opened | vendorOnly | locked
  deriving DecidableEq, Repr

/-- The engine-wide part (R28). `inReset` holds the engine in reset (R438, R446, R456), and `bootWait` until its oscillator is
calibrated (R455); `runSvn` and `runCopy` are the running bundle's SVN and copy, `emcMem` and `pccMem` the images in the
engine cores' memory (R438, R440); `activating` is the window of R441; bit p of `tjUnread` is set while partition p's sensor
has not been seen since the last read of its TJ_PEAK (R471). -/
structure Engine where
  eng : Bank
  dlw : Bank
  sec : Bank
  pwr : Bank
  ggates : Assoc Gate
  sys : SysPort
  /-- the port that each arbiter of R268 granted last -/
  arbLast : Assoc Nat
  dump : Memory
  gateSave : Memory
  windows : Assoc WinLatch
  faultLog : List FaultEntry
  faulted : List Nat
  models : List Model
  nextHandle : Nat
  otp : Otp
  flash : Memory
  loader : Loader
  inReset : Bool
  bootWait : Bool
  runSvn : Nat
  runCopy : Nat
  emcMem : Memory
  pccMem : Memory
  activating : Option PartId
  heldMailbox : Option (List Byte)
  debug : DebugPort
  tjUnread : Nat
  deriving DecidableEq, Repr

/-- The assembly variants of R2. -/
inductive Variant where
  | m4i1 | m8i1 | m8i2
  deriving DecidableEq, Repr

/-- What the interface returned for the last access command: its ERR_ code as the requester sees it, data, and the
decode error response of R15. -/
structure Response where
  err : Nat
  data : List Byte
  decodeError : Bool
  deriving DecidableEq, Repr

/-- The block. `fresh` is the MODEL's own field: it numbers the occasions on which a value is left open (log entry 4).
`clock`, the MODEL's own too, is the oscillator whose next period an idle step shows: 0 to 3 the partitions', 4 the
engine's, 5 and 6 the ports' (log entry 5). `pending` is the queue of commands, first in, first out. -/
structure State where
  variant : Variant
  tiles : Vector Tile 48
  parts : Vector Part 4
  ports : Vector Port 2
  eng : Engine
  resp : Response
  fresh : Nat
  clock : Fin 7
  pending : List Instr
  deriving DecidableEq, Repr

/-! ### Stops -/

/-- The model ends no run with a fault: every error of the block is an ERR_ code, a flag or a response, and the block
goes on. -/
inductive Fault where
  /-- never raised; safe -/
  | none
  deriving DecidableEq, Repr

/-- Why a command has no meaning. -/
inductive Refusal where
  /-- Raised by `exec` for a command that the model does not have yet; safe. -/
  | notModelled (mnemonic : String)
  deriving DecidableEq, Repr

/-! ### Reset -/

/-- The value that every tile's dither source holds until its firmware has seeded it (R123; DESIGN CHOICE, log
entry 3). -/
def ditherReset : BitVec 64 := 0x5EED000000000001#64

def TilePages.reset : TilePages := ⟨[], [], [], [], [], [], [], []⟩
def Spd.reset : Spd := ⟨.empty, .empty, [], 0, [], []⟩
def AccBuf.reset : AccBuf := ⟨.empty, []⟩
def ArrayMem.reset : ArrayMem := ⟨.empty, .empty, [], [], [], none⟩
def Books.reset : Books := ⟨.empty, [], [], .empty, []⟩
def Seqr.reset : Seqr := ⟨none, [], [], 0, false⟩
def Units.reset : Units := ⟨[], [], [], none, none, none, none, false, none, 0, false, 0, [], [], false⟩

/-- A tile after machine reset (R266, R153, R22). -/
def Tile.reset : Tile :=
  ⟨.reset, .reset, .reset, .reset, .reset, .reset, ditherReset, .reset, .reset, none, 0⟩

def MemCtl.reset : MemCtl := ⟨[], .empty, [], [], []⟩

/-- A partition after engine reset (R22, R367). -/
def Part.reset : Part where
  pctl := []
  qmg := []
  mc := Vector.replicate 2 .reset
  gates := []
  jobs := []
  chains := []
  chainWrites := []
  heads := []
  lastQueue := []
  nextJob := 0
  fw := none
  replies := []
  events := []
  journal := none
  rst := none
  suspects := []
  replaying := none
  xfer := none
  nextRid := 0
  grace := []
  levelBnd := false
  only2 := false
  actHold := false
  bndAct := false
  switchWait := false
  gateErr := []
  fenceOf := none

/-- A port after engine reset (R353); its slot is 15 so that the first slot started is slot 0 (log entry 3). -/
def Port.reset : Port where
  link := []
  peer := []
  keyCur := 0
  keyNext := 0
  sealed := false
  sealedNext := false
  slot := 15
  tx := []
  held := []
  out := []
  heard := []
  downLaps := []
  echoBad := false
  badLaps := 0
  dark := 0
  slotBad := false
  alarmLaps := 0
  collisions := 0
  backoff := 0
  contended := false
  newMap := none
  muted := none
  joinAcks := []
  joinAcked := false
  depochUsed := false
  leaveSlots := 0
  epochsEnded := []
  peerState := []

/-- The engine-wide part after engine reset. The security block holds DEVELOP, with the debug port open, no key and no
bundle (DESIGN CHOICE, log entry 3). -/
def Engine.reset : Engine where
  eng := []
  dlw := []
  sec := Bank.set (Bank.set [] SEC.LC_STATE 1) SEC.DBG_OPEN 1
  pwr := []
  ggates := []
  sys := ⟨0, [], [], none, 0, []⟩
  arbLast := []
  dump := .empty
  gateSave := .empty
  windows := []
  faultLog := []
  faulted := []
  models := []
  nextHandle := 1
  otp := ⟨[], 0, false⟩
  flash := .empty
  loader := ⟨false, .empty, none, [], []⟩
  inReset := false
  bootWait := false
  runSvn := 0
  runCopy := 0
  emcMem := .empty
  pccMem := .empty
  activating := none
  heldMailbox := none
  debug := .opened
  tjUnread := 15

/-- The block right after reset: every register at the value its map gives, no command waiting. -/
def State.reset : State where
  variant := .m4i1
  tiles := Vector.replicate 48 .reset
  parts := Vector.replicate 4 .reset
  ports := Vector.replicate 2 .reset
  eng := .reset
  resp := ⟨0, [], false⟩
  fresh := 0
  clock := 0
  pending := []

end Sys2Proof.Machine
end

