-- ==== Sys2Proof/Machine/Ops.lean ====
section
/-! DEFINITION. The named operations over the state that every meaning is written with: pages and their fields,
counters, flags, interrupts and error records (R20, R475, R476), and the monad in which an access may end with an ERR_
code or have to wait. -/
namespace Sys2Proof.Machine

/-! ### Reaching the parts of the state -/

/-- The pages of a tile (R37). -/
inductive TPage where
  | tl | lut | acc | cnv | rot | spd | lft | dbg
  deriving DecidableEq, Repr

/-- The pages of the register window (R35, R36, R37). -/
inductive PageId where
  | eng | dlw | sec | pwr
  | link (n : PortId) | peer (n : PortId)
  | pctl (p : PartId) | qmg (p : PartId)
  | mc (p : PartId) (c : Fin 2)
  | tile (g : TileId) (k : TPage)
  deriving DecidableEq, Repr

def TilePages.get (t : TilePages) : TPage → Bank
  | .tl => t.tl | .lut => t.lut | .acc => t.acc | .cnv => t.cnv
  | .rot => t.rot | .spd => t.spd | .lft => t.lft | .dbg => t.dbg

def TilePages.set (t : TilePages) (k : TPage) (b : Bank) : TilePages :=
  match k with
  | .tl => { t with tl := b } | .lut => { t with lut := b } | .acc => { t with acc := b }
  | .cnv => { t with cnv := b } | .rot => { t with rot := b } | .spd => { t with spd := b }
  | .lft => { t with lft := b } | .dbg => { t with dbg := b }

def State.tile (s : State) (g : TileId) : Tile := s.tiles.get g
def State.setTile (s : State) (g : TileId) (t : Tile) : State := { s with tiles := s.tiles.set g.val t g.isLt }
def State.part (s : State) (p : PartId) : Part := s.parts.get p
def State.setPart (s : State) (p : PartId) (x : Part) : State := { s with parts := s.parts.set p.val x p.isLt }
def State.port (s : State) (n : PortId) : Port := s.ports.get n
def State.setPort (s : State) (n : PortId) (x : Port) : State := { s with ports := s.ports.set n.val x n.isLt }
def Part.ctl (x : Part) (c : Fin 2) : MemCtl := x.mc.get c
def Part.setCtl (x : Part) (c : Fin 2) (m : MemCtl) : Part := { x with mc := x.mc.set c.val m c.isLt }

/-- The bank of a page. -/
def State.bank (s : State) : PageId → Bank
  | .eng => s.eng.eng
  | .dlw => s.eng.dlw
  | .sec => s.eng.sec
  | .pwr => s.eng.pwr
  | .link n => (s.port n).link
  | .peer n => (s.port n).peer
  | .pctl p => (s.part p).pctl
  | .qmg p => (s.part p).qmg
  | .mc p c => ((s.part p).ctl c).bank
  | .tile g k => (s.tile g).pg.get k

/-- The bank of a page becomes `b`. -/
def State.setBank (s : State) (i : PageId) (b : Bank) : State :=
  match i with
  | .eng => { s with eng := { s.eng with eng := b } }
  | .dlw => { s with eng := { s.eng with dlw := b } }
  | .sec => { s with eng := { s.eng with sec := b } }
  | .pwr => { s with eng := { s.eng with pwr := b } }
  | .link n => s.setPort n { s.port n with link := b }
  | .peer n => s.setPort n { s.port n with peer := b }
  | .pctl p => s.setPart p { s.part p with pctl := b }
  | .qmg p => s.setPart p { s.part p with qmg := b }
  | .mc p c => s.setPart p ((s.part p).setCtl c { (s.part p).ctl c with bank := b })
  | .tile g k => s.setTile g { s.tile g with pg := (s.tile g).pg.set k b }

/-- The partition of a tile (R14). -/
def partOf (g : TileId) : PartId := ⟨g.val / 12, by omega⟩
/-- The local number of a tile (R14). -/
def localOf (g : TileId) : Nat := g.val % 12
/-- Tile p.t (R14). -/
def tileAt (p : PartId) (t : Fin 12) : TileId := ⟨p.val * 12 + t.val, by omega⟩
/-- The tiles of a partition, ascending. -/
def tilesOf (p : PartId) : List TileId := (List.finRange 12).map (tileAt p)
/-- The tiles of partition `p` whose bit is set in a mask. -/
def tilesIn (p : PartId) (mask : Nat) : List TileId := (tilesOf p).filter fun g => mask.testBit (localOf g)

/-- A field of a page. -/
def State.reg (s : State) (i : PageId) (f : Fld) : Nat := Bank.get (s.bank i) f
/-- A field of a page takes a value. -/
def State.setReg (s : State) (i : PageId) (f : Fld) (v : Nat) : State := s.setBank i (Bank.set (s.bank i) f v)
/-- A counter of a page rises by `n`. -/
def State.count (s : State) (i : PageId) (f : Fld) (n : Nat) : State := s.setBank i (Bank.inc (s.bank i) f n)

/-! ### The monad of accesses and micro-operations -/

/-- Why an access or a micro-operation does not go on: it ends with an ERR_ code, or it has to wait. -/
inductive Stop where
  | err (code : Nat)
  | wait
  deriving DecidableEq, Repr

/-- Operations on the state that may stop. What was done before a stop stays done. -/
abbrev M := EStateM Stop State

/-- The state that an operation leaves, whether or not it stops. -/
def M.after (m : M α) (s : State) : State :=
  match m s with
  | .ok _ s' => s'
  | .error _ s' => s'

/-- A command whose meaning is an operation: it always gives a next state. -/
def M.next (m : M α) (s : State) : Host.Outcome State Fault Refusal := .next (m.after s)

def fail (code : Nat) : M α := throw (.err code)
def wait : M α := throw .wait

/-- Run `m`; an ERR_ code it ends with is answered, a wait goes on. -/
def catchErr (m : M α) : M (Except Nat α) := fun s =>
  match m s with
  | .ok a s' => .ok (.ok a) s'
  | .error (.err c) s' => .ok (.error c) s'
  | .error .wait s' => .error .wait s'

/-- The model's load gate has advanced by the last descriptor of each of its lists: it is resident (R280). -/
def Model.resident (m : Model) : Bool := m.loadErr = Err.none && m.loadLists ≤ m.loadGate

/-- Run `m`, giving up in silence where it stops. -/
def attempt (m : M Unit) : M Unit := fun s => .ok () (m.after s)

/-- Do `m` for each element in order. -/
def forAll (l : List α) (m : α → M Unit) : M Unit :=
  match l with
  | [] => pure ()
  | a :: t => do m a; forAll t m

/-- The answers of `m` for each element in order. -/
def mapAll (l : List α) (m : α → M β) : M (List β) :=
  match l with
  | [] => pure []
  | a :: t => do
    let b ← m a
    let bs ← mapAll t m
    pure (b :: bs)

/-- Do `m` while it answers true, at most `n` times. -/
def repeatM : Nat → M Bool → M Unit
  | 0, _ => pure ()
  | n + 1, m => do if ← m then repeatM n m else pure ()

def rd (i : PageId) (f : Fld) : M Nat := do return (← get).reg i f
def wr (i : PageId) (f : Fld) (v : Nat) : M Unit := modify fun s => s.setReg i f v
def cnt (i : PageId) (f : Fld) (n : Nat) : M Unit := modify fun s => s.count i f n
def getTile (g : TileId) : M Tile := do return (← get).tile g
def modTile (g : TileId) (f : Tile → Tile) : M Unit := modify fun s => s.setTile g (f (s.tile g))
def getPart (p : PartId) : M Part := do return (← get).part p
def modPart (p : PartId) (f : Part → Part) : M Unit := modify fun s => s.setPart p (f (s.part p))
def getPort (n : PortId) : M Port := do return (← get).port n
def modPort (n : PortId) (f : Port → Port) : M Unit := modify fun s => s.setPort n (f (s.port n))
def modEng (f : Engine → Engine) : M Unit := modify fun s => { s with eng := f s.eng }

/-- A number that no other occasion has had (log entry 4). -/
def freshNum : M Nat := do
  let n := (← get).fresh
  modify fun s => { s with fresh := n + 1 }
  return n

/-- A flag or interrupt bit `b` of field `f` is set. -/
def setBit (i : PageId) (f : Fld) (b : Nat) : M Unit := do
  wr i f ((← rd i f) ||| 2 ^ b)

/-- A source of the page's IRQ_STAT is set (R475). -/
def raise (i : PageId) (b : Nat) : M Unit := setBit i HDR.IRQ_STAT b

/-- An error that the page counts: ERR_CNT rises and, while ERR_HOLD is 0, the record takes code, class, kind and
detail and ERR_VALID is set (R472, R476). -/
def logErr (i : PageId) (code cls sub detail : Nat) : M Unit := do
  cnt i HDR.ERR_CNT 1
  if (← rd i HDR.ERR_HOLD) = 0 then
    wr i HDR.ERR_REC (code % 2 ^ 16 + (cls % 16) * 2 ^ 16 + (sub % 16) * 2 ^ 20 + (detail % 2 ^ 40) * 2 ^ 24)
    wr i HDR.ERR_VALID 1

/-- The number of channel groups of a partition (R26). -/
def Variant.groups : Variant → Nat
  | .m4i1 => 1
  | _ => 2

/-- The usable capacity of a partition (R290). -/
def Variant.capacity : Variant → Nat
  | .m4i1 => 16361779200
  | _ => 32723558400

/-- The number of Piste ports (R27). -/
def Variant.ports : Variant → Nat
  | .m8i2 => 2
  | _ => 1

end Sys2Proof.Machine
end

