-- ==== Sys2Proof/Machine/SymbolCode.lean ====
section
/-! DEFINITION. The Reed-Solomon symbol code of scratchpad codewords and partition-memory bursts (R253, R254,
R293). -/
namespace Sys2Proof.Machine

/-- Multiplication by α = 0x02 in GF(2⁸) with field polynomial 0x11D (R253). -/
def gfAlpha (a : Nat) : Nat :=
  if a < 128 then 2 * a else (2 * a).xor 0x11D

/-- The product of two field elements, over the low `n` bits of `b`. -/
def gfMulBits (a b : Nat) : Nat → Nat
  | 0 => 0
  | n + 1 => (if b.testBit 0 then a else 0).xor (gfMulBits (gfAlpha a) (b / 2) n)

/-- The product of two field elements. -/
def gfMul (a b : Nat) : Nat := gfMulBits a b 8

/-- One step of the division by g(x) = x³ + 0x07x² + 0x0Ex + 0x08: the remainder takes in one more data symbol. -/
def checkStep (c : Nat × Nat × Nat) (d : Nat) : Nat × Nat × Nat :=
  let f := c.1.xor d
  let f2 := gfAlpha f
  let f4 := gfAlpha f2
  let f8 := gfAlpha f4
  (c.2.1.xor (f.xor (f2.xor f4)), c.2.2.xor (f2.xor (f4.xor f8)), f8)

/-- The check symbols (c₂, c₁, c₀) of data bytes (R253, R293). -/
def checkOf (ds : List Byte) : List Byte :=
  let c := ds.foldl (fun c d => checkStep c d.toNat) (0, 0, 0)
  [BitVec.ofNat 8 c.1, BitVec.ofNat 8 c.2.1, BitVec.ofNat 8 c.2.2]

/-- What a codeword's syndromes say (R254). -/
inductive CodeResult where
  | clean
  | one (pos : Nat) (value : Nat)
  | bad
  deriving DecidableEq, Repr

/-- The position p at most `n` steps from `i` with x × αᵖ = y, where `x` is taken times αⁱ already. -/
def gfLog (x y i : Nat) : Nat → Option Nat
  | 0 => if x = y then some i else none
  | n + 1 => if x = y then some i else gfLog (gfAlpha x) y (i + 1) n

/-- The classification of R254 of the data bytes followed by c₂, c₁, c₀. The largest position is the length less
one: 34 for a scratchpad codeword, 66 for a burst. -/
def classify (word : List Byte) : CodeResult :=
  let s := word.foldl
    (fun s b => (s.1.xor b.toNat, (gfAlpha s.2.1).xor b.toNat, (gfAlpha (gfAlpha s.2.2)).xor b.toNat)) (0, 0, 0)
  if s.1 = 0 ∧ s.2.1 = 0 ∧ s.2.2 = 0 then .clean
  else if s.1 = 0 ∨ s.2.1 = 0 ∨ s.2.2 = 0 then .bad
  else if gfMul s.2.1 s.2.1 ≠ gfMul s.1 s.2.2 then .bad
  else match gfLog s.1 s.2.1 0 (word.length - 1) with
    | some p => .one p s.1
    | none => .bad

/-- The codeword with one symbol put right: the symbol at position `p` stands at index length − 1 − p. -/
def correctAt (word : List Byte) (p v : Nat) : List Byte :=
  word.modify (word.length - 1 - p) fun b => b ^^^ BitVec.ofNat 8 v

end Sys2Proof.Machine
end

