-- ==== Sys2Proof/Machine/MemCtl.lean ====
section
/-! DEFINITION. Partition memory: interleave, inline check, correction and classification, writes, atomic adds and
history operations (R289 to R307). -/
namespace Sys2Proof.Machine

/-- Bytes of data of one stack; its check region begins there (R289). -/
def stackBytes : Nat := 16361779200

/-- Channel group and stack offset of a partition-memory offset (R291). -/
def interleave (v : Variant) (a : Nat) : Fin 2 × Nat :=
  match v with
  | .m4i1 => (0, a)
  | _ =>
    let i := a / 4096
    (if bitAt i 0 = bitAt i 9 then 0 else 1, i / 2 * 4096 + a % 4096)

/-- The tile address of offset `off` in partition `p`'s memory (R41). -/
def memAddr (p : PartId) (off : Nat) : Nat := 0x1000000000 + p.val * 0x800000000 + off

/-- The partition-memory offset of a stack offset: the inverse of `interleave` (R291). -/
def uninterleave (v : Variant) (c : Fin 2) (o : Nat) : Nat :=
  match v with
  | .m4i1 => o
  | _ =>
    let h := o / 4096
    (2 * h + (if bitAt h 8 = decide (c.val = 1) then 0 else 1)) * 4096 + o % 4096

/-- The x16 channel of a physical address (R292). -/
def channelOf (x : Nat) : Nat := (bitsAt x 8 3).xor (bitsAt x 13 3)

/-- The physical address of the check block of a data offset (R289). -/
def checkBlock (o : Nat) : Nat := stackBytes + 64 * (o / 1280)
/-- The physical address of the three check bytes of the burst at data offset `o` (R293). -/
def checkBytes (o : Nat) : Nat := checkBlock o + 3 * (o % 1280 / 64)

/-- An error of partition memory for the fault log, with the models it degrades (R299, R425). -/
def granulesOf (v : Variant) (c : Fin 2) (paddr : Nat) : List Nat :=
  if paddr < stackBytes then [uninterleave v c paddr / 4096]
  else
    let j := (paddr - stackBytes) / 64
    [uninterleave v c (1280 * j) / 4096, uninterleave v c (1280 * j + 1279) / 4096]

/-- A model's allocation covers a granule of partition `p`. -/
def Model.coversGranule (m : Model) (p : PartId) (gr : Nat) : Bool :=
  m.parts.any fun a => a.part = p.val ∧ a.pmem0 < (gr + 1) * 4096 ∧ gr * 4096 < a.pmem0 + a.pmemBytes

/-- A model's scratchpad range covers a word of tile `g`. -/
def Model.coversWord (m : Model) (g : TileId) (addr : Nat) : Bool :=
  m.tiles.any fun a => a.tile = g.val ∧ a.spdBase < addr / 128 * 128 + 128 ∧ addr / 128 * 128 < a.spdBase + a.spdBytes

/-- An event argument that the spec does not give (R428; log entry 4). -/
def freeArg : M Nat := do return Config.freeBelow (← freshNum) (2 ^ 64)

/-- An event that concerns partition `p` waits for the firmware of that partition, which writes it once it runs (R486). -/
def postEvent (p : PartId) (event sev err arg : Nat) : M Unit :=
  modPart p fun x => { x with events := x.events ++ [⟨event, sev, err, arg⟩] }

/-- An event of the engine as a whole goes to partition `p` only where its firmware runs (R486). -/
def postRunning (p : PartId) (event sev err arg : Nat) : M Unit := do
  if (← rd (.pctl p) PCTL.FW_READY) = 1 then postEvent p event sev err arg

/-- Models that a logged fault touches become DEGRADED, unless they are already marked (R425). -/
def degradeModels (p : PartId) (hit : Model → Bool) : M Unit := do
  let ms := (← get).eng.models
  modEng fun e => { e with models := e.models.map fun m => if hit m ∧ m.status = 0 then { m with status := 1 } else m }
  forAll (ms.filter fun m => hit m ∧ m.status = 0) fun _ => do postEvent p 0x0107 1 Err.none (← freeArg)

/-- The firmware logs a lasting or uncorrectable fault once (R298, R257, R425). -/
def logFault (p : PartId) (f : FaultEntry) (hit : Model → Bool) : M Unit := do
  if (← get).eng.faultLog.any fun x => x.kind = f.kind ∧ x.part = f.part ∧ x.unit = f.unit ∧ x.addr = f.addr then
    pure ()
  else
    modEng fun e => { e with faultLog := e.faultLog ++ [f] }
    let code := if f.unc then (if f.kind = 0 then Err.spdUncorr else Err.memUncorr) else Err.none
    postEvent p 0x0106 1 code (← freeArg)
    if f.kind = 2 then postEvent p 0x0108 2 Err.residueLasting (← freeArg)
    else degradeModels p hit

/-- A burst is entered in the lasting-fault table and in MC_FAULT (R296 to R298). -/
def mcEnterFault (p : PartId) (c : Fin 2) (paddr : Nat) (ue : Bool) : M Unit := do
  let pg : PageId := .mc p c
  wr pg MC.FAULT_PADDR paddr
  wr pg MC.FAULT_CH (channelOf paddr)
  wr pg MC.FAULT_KIND (b2n ue)
  let b := (← get).bank pg
  let idx := List.range 16
  if idx.any fun i => Bank.get b (MC.LF_VALID i) = 1 ∧ Bank.get b (MC.LF_PADDR i) = paddr / 64 then pure ()
  else
    match idx.find? fun i => Bank.get b (MC.LF_VALID i) = 0 with
    | none => wr pg MC.LASTING_OVF 1
    | some i =>
      wr pg (MC.LF_PADDR i) (paddr / 64)
      wr pg (MC.LF_CH i) (channelOf paddr)
      wr pg (MC.LF_UE i) (b2n ue)
      wr pg (MC.LF_VALID i) 1
  let v := (← get).variant
  logFault p ⟨1, p.val, c.val, ue, paddr⟩ fun m => (granulesOf v c paddr).any (m.coversGranule p)

def getCtl (p : PartId) (c : Fin 2) : M MemCtl := do return (← getPart p).ctl c
def modCtl (p : PartId) (c : Fin 2) (f : MemCtl → MemCtl) : M Unit :=
  modPart p fun x => x.setCtl c (f (x.ctl c))

/-- The check block of data offset `o` comes into the check cache; the oldest of more than 1,024 leaves (R294). -/
def mcCheckFetch (p : PartId) (c : Fin 2) (o : Nat) : M Unit := do
  let j := o / 1280
  let m ← getCtl p c
  if m.merge.contains (o / 64) || m.cache.contains j then pure ()
  else
    cnt (.mc p c) MC.CHK_MISS 1
    modCtl p c fun m =>
      let l := m.cache ++ [j]
      { m with cache := l.drop (l.length - 1024) }

/-- The 64 data bytes and 3 check bytes of the burst at data offset `o`. -/
def MemCtl.burst (m : MemCtl) (o : Nat) : List Byte := m.mem.read o 64 ++ m.mem.read (checkBytes o) 3

/-- A burst and its check bytes are stored (R293). -/
def MemCtl.putBurst (m : MemCtl) (o : Nat) (w : List Byte) : MemCtl :=
  { m with mem := (m.mem.write o (w.take 64)).write (checkBytes o) (w.drop 64) }

/-- Data bytes with fresh check bytes are stored. -/
def MemCtl.putData (m : MemCtl) (o : Nat) (d : List Byte) : MemCtl := m.putBurst o (d ++ checkOf d)

/-- Flipped bits of the stored burst. -/
def flipWord (fs : List Flip) (w : List Byte) : List Byte :=
  fs.foldl (fun w f => w.modify f.sym fun b => b ^^^ f.mask) w

/-- The physical address that a wrong symbol at position `pos` belongs to: the check block for a check symbol. -/
def faultAddr (o pos : Nat) : Nat := if pos < 3 then checkBlock o else o

/-- The re-read after a correction: a clean one makes the error at position `pos` transient, any other lasting (R296). -/
def mcReread (p : PartId) (c : Fin 2) (o pos : Nat) (again : List Flip) : M Unit := do
  if again ≠ [] then modCtl p c fun m => m.putBurst o (flipWord again (m.burst o))
  if classify ((← getCtl p c).burst o) = .clean then
    cnt (.mc p c) MC.CE_TRANSIENT 1
    wr (.mc p c) MC.CE 1
  else
    cnt (.mc p c) MC.CE_LASTING 1
    wr (.mc p c) MC.LASTING 1
    mcEnterFault p c (faultAddr o pos) false
    raise (.mc p c) 0

/-- A burst has been found uncorrectable (R297). -/
def mcUncorr (p : PartId) (c : Fin 2) (o : Nat) : M Unit := do
  cnt (.mc p c) MC.UE_CNT 1
  wr (.mc p c) MC.UE 1
  mcEnterFault p c o true
  raise (.mc p c) 1

/-- The stored burst with its error corrected. -/
def MemCtl.fixBurst (m : MemCtl) (o : Nat) : MemCtl :=
  match classify (m.burst o) with
  | .one pos v => m.putBurst o (correctAt (m.burst o) pos v)
  | _ => m

/-- A burst as the checked read at data offset `o` finds it: what its check says, and its 67 bytes. `flips` are upsets of
the stored bits. -/
def mcFind (p : PartId) (c : Fin 2) (o : Nat) (flips : List Flip) : M (CodeResult × List Byte) := do
  mcCheckFetch p c o
  if flips ≠ [] then modCtl p c fun m => m.putBurst o (flipWord flips (m.burst o))
  let w := (← getCtl p c).burst o
  return (classify w, w)

/-- One checked read of the burst at data offset `o`: corrected data, or `none` where it is uncorrectable. `again` are the
upsets that the re-read meets; `late` leaves the corrected write-back waiting (R296, R297, R301). -/
def mcReadBurst (p : PartId) (c : Fin 2) (o : Nat) (flips again : List Flip) (late : Bool) : M (Option (List Byte)) := do
  let (x, w) ← mcFind p c o flips
  match x with
  | .clean => return some (w.take 64)
  | .one pos v =>
    if late then modCtl p c fun m => { m with fixups := if m.fixups.any fun f => f.1 = o then m.fixups else m.fixups ++ [(o, pos)] }
    else
      modCtl p c fun m => m.fixBurst o
      mcReread p c o pos again
    return some ((correctAt w pos v).take 64)
  | .bad =>
    mcUncorr p c o
    return none

/-- The write-backs that wait, but for one of the burst at `o`, are carried out with their re-reads (R296). -/
def mcFlush (p : PartId) (c : Fin 2) (o : Option Nat) : M Unit := do
  let go := (← getCtl p c).fixups.filter fun f => some f.1 ≠ o
  modCtl p c fun m => { m with fixups := m.fixups.filter fun f => some f.1 = o }
  forAll go fun f => do
    modCtl p c fun m => m.fixBurst f.1
    mcReread p c f.1 f.2 []

/-- The write-back that waits for the burst at `o` is discarded: the position of its wrong symbol (R301). -/
def mcDiscard (p : PartId) (c : Fin 2) (o : Nat) : M (Option Nat) := do
  let f := (← getCtl p c).fixups.find? fun f => f.1 = o
  modCtl p c fun m => { m with fixups := m.fixups.filter fun f => f.1 ≠ o }
  return f.map Prod.snd

/-- An indivisible read, correction, change and write of the burst at `o`: the data before it, or `none` where the burst is
uncorrectable and stays as it is (R295, R303, R305). Where it overtakes a write-back, that one is discarded and the burst
is classed by a re-read as it then stands (R301). -/
def mcUpdate (p : PartId) (c : Fin 2) (o : Nat) (flips again : List Flip) (f : List Byte → List Byte) :
    M (Option (List Byte)) := do
  mcFlush p c (some o)
  match ← mcDiscard p c o with
  | none =>
    match ← mcReadBurst p c o flips again false with
    | none => return none
    | some d =>
      modCtl p c fun m => m.putData o (f d)
      return some d
  | some pos =>
    let (x, w) ← mcFind p c o flips
    let d := match x with | .one q v => (correctAt w q v).take 64 | _ => w.take 64
    if x = .bad then
      mcUncorr p c o
      return none
    else
      modCtl p c fun m => m.putData o (f d)
      mcReread p c o pos again
      return some d

/-- A burst is replaced whole; a write-back that waits for it is discarded (R295, R301). -/
def mcReplace (p : PartId) (c : Fin 2) (o : Nat) (again : List Flip) (d : List Byte) : M Unit := do
  mcFlush p c (some o)
  let pend ← mcDiscard p c o
  mcCheckFetch p c o
  modCtl p c fun m => m.putData o d
  match pend with
  | some pos => mcReread p c o pos again
  | none => pure ()

/-- The bursts that an access of `n` bytes at offset `a` touches: for each, its first byte's offset within the access,
the partition-memory offset of the burst, where the access begins in it, and how many bytes it covers. -/
def burstPieces (a : Nat) : Nat → Nat → Nat → List (Nat × Nat × Nat × Nat)
  | 0, _, _ => []
  | fuel + 1, i, n =>
    if n = 0 then []
    else
      let k := (a + i) % 64
      let m := min n (64 - k)
      (i, a + i - k, k, m) :: burstPieces a fuel (i + m) (n - m)

def piecesOf (a n : Nat) : List (Nat × Nat × Nat × Nat) := burstPieces a (n / 64 + 2) 0 n

/-- The flips that meet burst `i` of a request, as flips of that burst. -/
def flipsAt (i : Nat) (fs : List Flip) : List Flip :=
  (fs.filter fun f => f.sym / 67 = i).map fun f => { f with sym := f.sym % 67 }

/-- A request ends with an ERR_ code (R315). -/
def mcEnd (p : PartId) (c : Fin 2) (code cls kind off : Nat) : M α := do
  logErr (.mc p c) code cls kind off
  fail code

/-- A read of `n` bytes at offset `a`, by requester class `cls` (R296, R297, R302). -/
def mcReadOp (p : PartId) (cls a n : Nat) (flips again : List Flip) (late : Bool) : M (List Byte) := do
  let v := (← get).variant
  let ps := piecesOf a n
  let ds ← mapAll (ps.zipIdx) fun (x, i) => do
    let (c, o) := interleave v x.2.1
    mcFlush p c none
    return (c, x, ← mcReadBurst p c o (flipsAt i flips) (flipsAt i again) late)
  match ds.find? fun d => d.2.2.isNone with
  | some d => mcEnd p d.1 Err.memUncorr cls 1 a
  | none =>
    forAll ds fun d => cnt (.mc p d.1) MC.RD_BYTES d.2.1.2.2.2
    return ds.flatMap fun d => ((d.2.2.getD []).drop d.2.1.2.2.1).take d.2.1.2.2.2

/-- A write of `bs` at offset `a`: whole bursts are replaced, part of a burst is merged indivisibly, and a burst that is
uncorrectable stays as it is while the others are written (R295). -/
def mcWriteOp (p : PartId) (cls a : Nat) (bs : List Byte) (flips again : List Flip) : M Unit := do
  let v := (← get).variant
  let rs ← mapAll ((piecesOf a bs.length).zipIdx) fun (x, i) => do
    let (c, o) := interleave v x.2.1
    let new := (bs.drop x.1).take x.2.2.2
    if x.2.2.2 = 64 then
      mcReplace p c o (flipsAt i again) new
      cnt (.mc p c) MC.WR_BYTES 64
      return (c, true)
    else
      let merge (d : List Byte) := d.take x.2.2.1 ++ new ++ d.drop (x.2.2.1 + x.2.2.2)
      match ← mcUpdate p c o (flipsAt i flips) (flipsAt i again) merge with
      | none => return (c, false)
      | some _ =>
        cnt (.mc p c) MC.WR_BYTES x.2.2.2
        return (c, true)
  match rs.find? fun r => !r.2 with
  | some r => mcEnd p r.1 Err.memUncorr cls 1 a
  | none => pure ()

/-- The largest entry that a sum may reach; it and its negation are sticky (R137, R303). -/
def accMax : Int := 2147483647

/-- A sum with the clamp of R137 and R303: the written value and whether it clamped. -/
def clampSum (t : Int) : Int × Bool :=
  if accMax ≤ t then (accMax, true) else if t ≤ -accMax then (-accMax, true) else (t, false)

/-- One saturating add into a word: a saturated word stays and counts as clamped by the caller's rule (R138, R303). -/
def stickyAdd (old u : Int) : Int × Bool :=
  if old = accMax ∨ old = -accMax then (old, true) else clampSum (old + u)

/-- The oldest buffered burst goes back to the stack; its write updates the check block, which is fetched where the cache
does not hold it (R294, R306). -/
def mcEvict (p : PartId) (c : Fin 2) : M Unit := do
  match (← getCtl p c).merge with
  | [] => pure ()
  | b :: rest =>
    modCtl p c fun m => { m with merge := rest }
    mcCheckFetch p c (64 * b)

/-- A burst comes into the merge buffer, which holds 64 (R306). -/
def mcBuffer (p : PartId) (c : Fin 2) (o : Nat) : M Unit := do
  if (← getCtl p c).merge.contains (o / 64) then pure ()
  else
    if (← getCtl p c).merge.length ≥ 64 then mcEvict p c
    modCtl p c fun m => { m with merge := m.merge ++ [o / 64] }

/-- Every buffered burst goes back, and no corrected burst waits any longer (R306). -/
def mcDrain (p : PartId) (c : Fin 2) : M Unit := do
  mcFlush p c none
  repeatM 65 (do
    mcEvict p c
    return (← getCtl p c).merge ≠ [])

/-- The words of a burst with up to 16 addends applied, and whether a word was clamped (R303, R304). A word that is
already saturated is left as it is and does not count as clamped by the request. Requests are applied one at a time in order
of arrival, so that where a word saturates its result depends on that order (R145, R302). -/
def addBurst (d : List Byte) (adds : List (Option Int)) : List Byte × Bool :=
  let rs := (leWords d).zipIdx.map fun (w, i) =>
    match adds.getD i none with
    | none => (w, false)
    | some u =>
      let old := sext 32 w
      if old = accMax ∨ old = -accMax then (w, false)
      else
        let r := clampSum (old + u)
        (uns 32 r.1, r.2)
  (rs.flatMap fun r => leBytes 4 r.1, rs.any fun r => r.2)

/-- An atomic or history operation has met an uncorrectable burst (R305). -/
def mcRefuseAtomic (p : PartId) (c : Fin 2) (cls a : Nat) : M α := do
  wr (.mc p c) MC.FAULT_KIND 2
  mcEnd p c Err.memUncorr cls 2 a

/-- One atomic add request at the burst that holds offset `a`; the answer is the reply's SAT (R303 to R305). -/
def mcAtomicOp (p : PartId) (cls a : Nat) (adds : List (Option Int)) (flips again : List Flip) : M Bool := do
  let (c, o) := interleave (← get).variant (a / 64 * 64)
  let r ← mcUpdate p c o flips again fun d => (addBurst d adds).1
  mcBuffer p c o
  match r with
  | none => mcRefuseAtomic p c cls a
  | some d =>
    cnt (.mc p c) MC.ATOM_ADDS 1
    if (addBurst d adds).2 then
      wr (.mc p c) MC.ATOM_SAT 1
      cnt (.mc p c) MC.ATOM_SAT_CNT 1
    return (addBurst d adds).2

/-- The two history operations of R170. -/
inductive HistOp where
  | push | merge
  deriving DecidableEq, Repr

/-- The history word after an operation with maximum `l` (R170). -/
def HistOp.apply (h : HistOp) (old l : Nat) : Nat :=
  match h with
  | .push => (old * 256 + l % 256) % 2 ^ 32
  | .merge => old / 256 * 256 + max (old % 256) (l % 256)

/-- A history operation on the word at offset `a`; it returns the word as it was (R170, R305). -/
def mcHistOp (p : PartId) (cls : Nat) (h : HistOp) (a l : Nat) (flips again : List Flip) : M Nat := do
  let (c, o) := interleave (← get).variant (a / 64 * 64)
  let k := a % 64 / 4 * 4
  let word (d : List Byte) : Nat := leNat ((d.drop k).take 4)
  let r ← mcUpdate p c o flips again fun d => d.take k ++ leBytes 4 (h.apply (word d) l) ++ d.drop (k + 4)
  mcBuffer p c o
  match r with
  | none => mcRefuseAtomic p c cls a
  | some d => return word d

/-- The partition's controllers answer requests from outside it: not from the start of FENCE until RUN, nor while it is
OFF or FAILED (R411). REPLAY counts as before RUN. -/
def open_ (s : State) (p : PartId) : Bool := s.reg .dlw (DLW.STATE p.val) = 0

end Sys2Proof.Machine
end

