-- ==== Sys2Proof/Machine/Frac.lean ====
section
/-! DEFINITION. Exact fractions, the UNIT format and the row scale RSC16 (R55, R161, R168). -/
namespace Sys2Proof.Machine

/-- `num / den` with `den` positive; not reduced. -/
structure Frac where
  num : Int
  den : Nat
  deriving DecidableEq, Repr

namespace Frac

def ofInt (x : Int) : Frac := ⟨x, 1⟩

/-- `n` × 2^`e`. -/
def scaled (n : Int) (e : Int) : Frac :=
  if 0 ≤ e then ⟨n * 2 ^ e.toNat, 1⟩ else ⟨n, 2 ^ (-e).toNat⟩

def add (a b : Frac) : Frac := ⟨a.num * b.den + b.num * a.den, a.den * b.den⟩
def neg (a : Frac) : Frac := ⟨-a.num, a.den⟩
def sub (a b : Frac) : Frac := a.add b.neg
def mul (a b : Frac) : Frac := ⟨a.num * b.num, a.den * b.den⟩
/-- `a / b` for a positive `b`. -/
def div (a b : Frac) : Frac := ⟨a.num * b.den, a.den * b.num.toNat⟩
def abs (a : Frac) : Frac := ⟨a.num.natAbs, a.den⟩
def lt (a b : Frac) : Bool := a.num * b.den < b.num * a.den
def le (a b : Frac) : Bool := a.num * b.den ≤ b.num * a.den
def floor (a : Frac) : Int := a.num / (a.den : Int)
/-- The nearest integer, a half going to the even one. -/
def nearest (a : Frac) : Int := roundEven a.num a.den

end Frac

/-- The value of a UNIT word, as a mantissa and a power of two: (2048 + m) × 2^(E − 75) (R161). -/
def unitExp (w : Nat) : Int := (bitsAt w 16 7 : Int) - 75
def unitMant (w : Nat) : Nat := 2048 + bitsAt w 0 11
def unitVal (w : Nat) : Frac := .scaled (unitMant w) (unitExp w)

/-- Unused bits of a UNIT word are 0 (R161, R241). -/
def unitClean (w : Nat) : Bool := bitsAt w 11 5 = 0 ∧ bitsAt w 23 9 = 0

/-- The value of an RSC16 word (R55). -/
def rscVal (w : Nat) : Frac :=
  let e := bitsAt w 11 5
  if e = 0 then .ofInt 0 else .scaled (2048 + bitsAt w 0 11) ((e : Int) - 35)

/-- The number of words below 2^`b` + `n` at the start of the order whose value meets `p`, built bit by bit. -/
def rscSearch (p : Nat → Bool) : Nat → Nat → Nat
  | 0, n => n
  | b + 1, n => rscSearch p b (if p (n + 2 ^ b - 1) then n + 2 ^ b else n)

/-- The CUR scale for a largest magnitude `x` > 0: the smallest RSC16 value with s × Q ≥ x, or 0xFFFF with SCALE_HI
(R168). The values rise with the words. -/
def curScale (x : Frac) (q : Nat) : Nat × Bool :=
  let below (w : Nat) : Bool := ((rscVal w).mul (.ofInt q)).lt x
  if below 0xFFFF then (0xFFFF, true) else (rscSearch below 16 0, false)

/-- The RSC16 word that a history slot value stands for; 1 to 7 read as 8 (R169). -/
def histWord (l : Nat) : Nat :=
  let l := if 0 < l ∧ l < 8 then 8 else l
  bitsAt l 3 5 * 2 ^ 11 + bitsAt l 0 3 * 2 ^ 8

/-- The L of a segment with largest magnitude `x` (R169). -/
def histL (x : Frac) (q : Nat) : Nat :=
  if x.num = 0 then 0
  else (((List.range 248).find? fun i => x.le ((rscVal (histWord (i + 8))).mul (.ofInt q))).map (· + 8)).getD 255

end Sys2Proof.Machine
end

