-- ==== Sys2Proof/Machine/Operands.lean ====
section
/-! DEFINITION. The fields of tile commands and of the descriptors that they name, and the acceptance checks (R187 to
R220, R161, R226, R241, R272). -/
namespace Sys2Proof.Machine

/-- Field [hi:lo] of a command (R187). -/
def fld (c : CmdWord) (hi lo : Nat) : Nat := bitsAt c.toNat lo (hi - lo + 1)

/-! ### Opcodes (R188) -/
namespace Op
def nop : Nat := 0x00
def sweep : Nat := 0x01
def direct : Nat := 0x02
def drain : Nat := 0x03
def book : Nat := 0x04
def move : Nat := 0x05
def atomic : Nat := 0x06
def bin : Nat := 0x07
def update : Nat := 0x08
def gateWait : Nat := 0x10
def gateSignal : Nat := 0x11
def fence : Nat := 0x12
def mark : Nat := 0x13
def stat : Nat := 0x14
end Op

/-- The units of R188. -/
inductive UnitId where
  | seq | array | cnv | lift
  deriving DecidableEq, Repr

/-- The unit of an opcode; `none` for one that R188 does not list. -/
def unitOf (op : Nat) : Option UnitId :=
  if op = 0x01 ∨ op = 0x02 ∨ op = 0x07 ∨ op = 0x08 then some .array
  else if op = 0x03 ∨ op = 0x14 then some .cnv
  else if op = 0x04 ∨ op = 0x05 ∨ op = 0x06 then some .lift
  else if op = 0x00 ∨ op = 0x10 ∨ op = 0x11 ∨ op = 0x12 ∨ op = 0x13 then some .seq
  else none

def opOf (c : CmdWord) : Nat := fld c 7 0
def lastOf (c : CmdWord) : Bool := fld c 8 8 = 1
def irqOf (c : CmdWord) : Bool := fld c 9 9 = 1

/-! ### SWEEP, DIRECT and BIN (R200, R203, R204) -/

def wfmtOf (c : CmdWord) : Nat := fld c 19 16
def afmtOf (c : CmdWord) : Nat := fld c 21 20
/-- P, the steps of a whole super-chunk. -/
def pOf (c : CmdWord) : Nat := fld c 23 22 + 1
def sOf (c : CmdWord) : Nat := fld c 27 24
def accOf (c : CmdWord) : Bool := fld c 28 28 = 1
def cBufOf (c : CmdWord) : Nat := fld c 29 29
def bmodeOf (c : CmdWord) : Bool := fld c 30 30 = 1
def centroidOf (c : CmdWord) : Bool := fld c 31 31 = 1
def row0Of (c : CmdWord) : Nat := fld c 39 32
def nrowsOf (c : CmdWord) : Nat := fld c 48 40
def bookOf (c : CmdWord) : Nat := fld c 54 49
def walkOf (c : CmdWord) : Nat := fld c 79 64 * 64
def nstepOf (c : CmdWord) : Nat := fld c 95 80
def wstreamOf (c : CmdWord) : Nat := fld c 125 96 * 1024

/-! ### The other commands -/

def updTgt (c : CmdWord) : Nat := fld c 19 16
def bkBook (c : CmdWord) : Nat := fld c 25 20
def bkCount (c : CmdWord) : Nat := fld c 32 26
def bkFmt (c : CmdWord) : Nat := fld c 19 16
def bkSrc (c : CmdWord) : Nat := fld c 103 64
def udescOf (c : CmdWord) : Nat := fld c 79 64 * 64
def drBuf (c : CmdWord) : Nat := fld c 16 16
def drDesc (c : CmdWord) : Nat := fld c 79 64 * 64
def drDst (c : CmdWord) : Nat := fld c 113 80 * 64
def drStride (c : CmdWord) : Nat := fld c 127 114 * 64
def stCtx (c : CmdWord) : Nat := fld c 18 16
def stClear (c : CmdWord) : Bool := fld c 19 19 = 1
def stDst (c : CmdWord) : Nat := fld c 103 64
def mvSrc (c : CmdWord) : Nat := fld c 55 16
def mvDst (c : CmdWord) : Nat := fld c 95 56
def mvLen (c : CmdWord) : Nat := fld c 119 96
def mvSh (c : CmdWord) : Nat := fld c 123 120
def atBuf (c : CmdWord) : Nat := fld c 16 16
def atLanes (c : CmdWord) : Nat := 16 * (fld c 19 17 + 1)
def atRemote (c : CmdWord) : Bool := fld c 20 20 = 1
def atStn (c : CmdWord) : Nat := fld c 24 21
def atPitch (c : CmdWord) : Nat := fld c 63 49
def atDst (c : CmdWord) : Nat := fld c 101 64 * 4
def atTag (c : CmdWord) : Nat := fld c 127 112
def gtRef (c : CmdWord) : GateRef := ⟨fld c 25 16, fld c 26 26 = 1⟩
def gwRel (c : CmdWord) : Bool := fld c 27 27 = 1
def gwStride (c : CmdWord) : Nat := fld c 39 32
def gwThreshold (c : CmdWord) : Nat := fld c 127 64
def gsRemote (c : CmdWord) : Bool := fld c 27 27 = 1
def gsStn (c : CmdWord) : Nat := fld c 31 28
def gsInc (c : CmdWord) : Nat := fld c 63 32
def fnUnits (c : CmdWord) : Nat := fld c 18 16
def mkAfter (c : CmdWord) : Bool := fld c 16 16 = 1
def mkAlert (c : CmdWord) : Bool := fld c 17 17 = 1
def mkId (c : CmdWord) : Nat := fld c 63 32
def mkValue (c : CmdWord) : Nat := fld c 127 64

/-- The bits that must be 0, as (hi, lo) ranges: the reserved bits of the common fields and of the command (R192). -/
def reservedOf (c : CmdWord) : List (Nat × Nat) :=
  let op := opOf c
  (15, 10) ::
  (if op = Op.nop then [(127, 16)]
   else if op = Op.sweep then [(31, 31), (63, 55), (127, 126)]
   else if op = Op.direct then [(19, 16), (30, 30), (31, 31), (63, 49), (127, 126)]
   else if op = Op.bin then [(63, 55), (127, 126)]
   else if op = Op.update then
     [(63, 33), (127, 80)] ++ (if updTgt c = 0 then [] else [(25, 20), (32, 26)])
   else if op = Op.drain then [(31, 17), (63, 49)]
   else if op = Op.stat then [(63, 20), (127, 104)]
   else if op = Op.book then [(63, 33), (127, 104)]
   else if op = Op.move then [(127, 124)]
   else if op = Op.atomic then
     [(31, 25), (111, 102)] ++ (if atRemote c then [] else [(24, 21), (127, 112)])
   else if op = Op.gateWait then [(31, 28), (63, 40)]
   else if op = Op.gateSignal then [(127, 64)]
   else if op = Op.fence then [(127, 19)]
   else if op = Op.mark then [(31, 18)]
   else [])

/-- B1 to B4 and T. -/
def isPlanes (wf : Nat) : Bool := 1 ≤ wf ∧ wf ≤ 5
/-- C2, C4 and C8P. -/
def isCodebook (wf : Nat) : Bool := 8 ≤ wf ∧ wf ≤ 10
/-- A8 and A4. -/
def isAct (af : Nat) : Bool := af ≤ 1
/-- The K slices of a command (R89). -/
def slicesOf (c : CmdWord) : Nat := if wfmtOf c = 0xA then ceilDiv (nstepOf c) 2 else nstepOf c

/-- The first failing condition of a list gives the error (R192). -/
def firstErr (l : List (Bool × Nat)) : Option Nat := (l.find? fun e => e.1).map Prod.snd

/-- ROW0 and NROWS lie within the buffer. -/
def badRows (c : CmdWord) : Bool := row0Of c + nrowsOf c > 256 ∨ nrowsOf c = 0

/-- The books of a codebook command end beyond 63 (R201). -/
def badBooks (c : CmdWord) : Bool := bmodeOf c ∧ bookOf c + slicesOf c > 64

/-- The checks of a command's own section, in its order (R201, R203, R204, R206, R208 to R216, R218, R229). -/
def sectionErr (c : CmdWord) : Option Nat :=
  let op := opOf c
  if op = Op.sweep then firstErr
    [(!(isPlanes (wfmtOf c) || isCodebook (wfmtOf c)) || !isAct (afmtOf c), Err.format),
     (badRows c || nstepOf c = 0, Err.cmdField),
     (isPlanes (wfmtOf c) && (bookOf c ≠ 0 || bmodeOf c), Err.cmdField),
     (badBooks c, Err.cmdField)]
  else if op = Op.direct then firstErr
    [(!isAct (afmtOf c), Err.format), (badRows c || nstepOf c = 0, Err.cmdField)]
  else if op = Op.bin then firstErr
    [(!isCodebook (wfmtOf c) || !isAct (afmtOf c), Err.format),
     (badRows c || nstepOf c = 0, Err.cmdField),
     (badBooks c, Err.cmdField),
     (!centroidOf c && nstepOf c > (if wfmtOf c = 9 then 8 else 4), Err.cmdField)]
  else if op = Op.update then firstErr
    [(updTgt c > 1, Err.cmdField), (updTgt c = 0 && bkCount c = 0, Err.cmdField),
     (bkBook c + bkCount c > 64, Err.cmdField)]
  else if op = Op.drain then firstErr [(badRows c, Err.cmdField)]
  else if op = Op.stat then firstErr [(stDst c % 32 ≠ 0, Err.cmdField)]
  else if op = Op.book then firstErr
    [(!isCodebook (bkFmt c), Err.format), (bkCount c = 0 || bkBook c + bkCount c > 64, Err.cmdField),
     (bkSrc c % 16 ≠ 0, Err.cmdField)]
  else if op = Op.move then firstErr
    [(mvSrc c % 4 ≠ 0 || mvDst c % 4 ≠ 0 || mvLen c % 4 ≠ 0 || mvLen c = 0, Err.cmdField)]
  else if op = Op.atomic then firstErr [(badRows c, Err.cmdField)]
  else if op = Op.gateWait then firstErr
    [((gtRef c).global && (gtRef c).index > 255, Err.gateId), (!gwRel c && gwStride c ≠ 0, Err.cmdField)]
  else if op = Op.gateSignal then firstErr
    [(gsInc c = 0, Err.cmdField), (gsRemote c && !(gtRef c).global, Err.gateId),
     (!gsRemote c && gsStn c ≠ 0, Err.cmdField)]
  else if op = Op.fence then firstErr [(fnUnits c = 0, Err.cmdField)]
  else none

/-- The acceptance checks in the order of R192: opcode, reserved bits, section. -/
def acceptErr (c : CmdWord) : Option Nat :=
  if unitOf (opOf c) = none then some Err.opcode
  else if (reservedOf c).any fun r => fld c r.1 r.2 ≠ 0 then some Err.cmdField
  else sectionErr c

/-! ### Which buffers a command names (R131, R132, R147) -/

/-- Tile addresses [a, a + n) meet accumulator buffer `b` of the tile itself (R41). -/
def meetsBuf (a n b : Nat) : Bool :=
  let lo := 0x400000 + b * 0x20000
  a < lo + 0x20000 && lo < a + n

/-- The buffers that a command's own fields name; UPDATE names its buffer by its descriptor (R242), and a DRAIN's
destination is judged with its descriptor (R132). R132 leaves open whether a walk or gradient source or WSTREAM that lies
in the tile's own buffers names them: in the model it does not, and reads what they hold (DESIGN CHOICE, log entry 164). -/
def buffersOf (c : CmdWord) : List Nat :=
  let op := opOf c
  if op = Op.sweep ∨ op = Op.direct ∨ op = Op.bin then [cBufOf c]
  else if op = Op.drain then [drBuf c]
  else if op = Op.atomic then [atBuf c]
  else if op = Op.move then
    [0, 1].filter fun b => meetsBuf (mvSrc c) (mvLen c) b || meetsBuf (mvDst c) (mvLen c) b
  else if op = Op.book then [0, 1].filter fun b => meetsBuf (bkSrc c) (128 * bkCount c) b
  else if op = Op.stat then [0, 1].filter fun b => meetsBuf (stDst c) 32 b
  else []

/-- The command holds a buffer in FILL (R131). -/
def fillsOp (op : Nat) : Bool := op = Op.sweep ∨ op = Op.direct ∨ op = Op.bin
/-- The command holds a buffer in OUT (R131). -/
def outsOp (op : Nat) : Bool := op = Op.drain ∨ op = Op.atomic ∨ op = Op.update ∨ op = Op.move

/-- A SWEEP, DIRECT or BIN names book `n` (R89, R202). -/
def namesBook (c : CmdWord) (n : Nat) : Bool :=
  opOf c ≠ Op.direct && isCodebook (wfmtOf c) && bookOf c ≤ n &&
    n < bookOf c + (if bmodeOf c then slicesOf c else 1)

/-! ### Activation walks (R196 to R199) -/
namespace Walk
def src (d : Nat) : Nat := bitsAt d 0 40
def iw (d : Nat) : Nat := bitsAt d 64 16
def ih (d : Nat) : Nat := bitsAt d 80 16
def ch (d : Nat) : Nat := bitsAt d 96 13
def stride (d : Nat) : Nat := bitsAt d 112 16 * 64
def kh (d : Nat) : Nat := bitsAt d 128 4 + 1
def kw (d : Nat) : Nat := bitsAt d 132 4 + 1
def sy (d : Nat) : Nat := bitsAt d 136 2 + 1
def sx (d : Nat) : Nat := bitsAt d 138 2 + 1
def padt (d : Nat) : Nat := bitsAt d 140 4
def padl (d : Nat) : Nat := bitsAt d 144 4
def ch0 (d : Nat) : Nat := bitsAt d 148 12
def ow (d : Nat) : Nat := bitsAt d 160 16
def out0 (d : Nat) : Nat := bitsAt d 192 32
end Walk

/-- Bytes of the codes of `c` channels (R59). -/
def codeBytes (af c : Nat) : Nat := if af = 1 then c / 2 else c
/-- Bytes of an activation block of `c` channels (R59). -/
def blockBytes (af c : Nat) : Nat := 64 + 16 * codeBytes af c

/-- The walk descriptor breaks R199. -/
def walkBad (d af : Nat) (direct : Bool) : Bool :=
  let off (x : Nat) : Bool := x = 0 || x > 4096
  bitsAt d 40 24 ≠ 0 || bitsAt d 109 3 ≠ 0 || bitsAt d 176 16 ≠ 0 || bitsAt d 224 288 ≠ 0 ||
  off (Walk.iw d) || off (Walk.ih d) || off (Walk.ch d) || off (Walk.ow d) ||
  (!direct && Walk.ch0 d ≠ 0) ||
  Walk.stride d < blockBytes af (min 128 (16 * ceilDiv (Walk.ch d) 16)) ||
  Walk.src d % 64 ≠ 0

/-- Where an activation code lies: its block, its byte, the row within the block, and whether an A4 code is the high
half of its byte. -/
structure CodeAt where
  block : Nat
  addr : Nat
  row : Nat
  high : Bool
  deriving DecidableEq, Repr

/-- The code of channel `c` at tap `t` for output pixel `o`; `none` where R197 makes it 0. -/
def walkCode (d af o t c : Nat) : Option CodeAt :=
  let iy : Int := (o / Walk.ow d * Walk.sy d + t / Walk.kw d : Nat) - (Walk.padt d : Int)
  let ix : Int := (o % Walk.ow d * Walk.sx d + t % Walk.kw d : Nat) - (Walk.padl d : Int)
  if t ≥ Walk.kh d * Walk.kw d ∨ c ≥ Walk.ch d ∨ iy < 0 ∨ ix < 0 ∨ iy ≥ Walk.ih d ∨ ix ≥ Walk.iw d then none
  else
    let n := iy.toNat * Walk.iw d + ix.toNat
    let segs := ceilDiv (Walk.ch d) 128
    let j := c / 128
    let block := Walk.src d + (n / 16 * segs + j) * Walk.stride d
    let pitch := codeBytes af (min 128 (16 * ceilDiv (Walk.ch d - 128 * j) 16))
    some ⟨block, block + 64 + n % 16 * pitch + codeBytes af (c % 128), n % 16, af = 1 && c % 2 = 1⟩

/-- The code of command row `i` at K position `k`, for SWEEP and BIN (R197). -/
def sweepCode (d af i k : Nat) : Option CodeAt :=
  let dp := 16 * ceilDiv (Walk.ch d) 16
  walkCode d af (Walk.out0 d + i) (k / dp) (k % dp)

/-- The code of lane `l` of command row `i` at tap `k`, for DIRECT (R198). -/
def directCode (d af i l k : Nat) : Option CodeAt := walkCode d af (Walk.out0 d + i) k (Walk.ch0 d + l)

/-- The value of a code in its byte, with the substitution of R53. -/
def codeVal (af : Nat) (high : Bool) (b : Byte) : Int :=
  if af = 1 then max (-7) (sext 4 (if high then b.toNat / 16 else b.toNat))
  else max (-127) (sext 8 b.toNat)

/-! ### The gradient descriptor of BIN (R226) -/
namespace Grad
def src (d : Nat) : Nat := bitsAt d 0 40
def stride (d : Nat) : Nat := bitsAt d 64 16 * 64
def fmt (d : Nat) : Nat := bitsAt d 80 2
def row0 (d : Nat) : Nat := bitsAt d 96 32
def gscale (d : Nat) : Nat := bitsAt d 128 16
def ascale (d : Nat) : Nat := bitsAt d 144 16
def ng (d : Nat) : Nat := bitsAt d 160 16
end Grad

/-- BIN's descriptors break R229; `w` is the activation walk, `d` the gradient descriptor. NG must be 1 or more. -/
def binBad (c : CmdWord) (w d : Nat) : Bool :=
  bitsAt d 40 24 ≠ 0 || bitsAt d 82 14 ≠ 0 || bitsAt d 176 16 ≠ 0 || bitsAt d 192 320 ≠ 0 ||
  Grad.fmt d > 1 || Grad.ng d = 0 || Grad.src d % 64 ≠ 0 ||
  Grad.stride d < blockBytes (Grad.fmt d) 128 ||
  (if centroidOf c then
    nrowsOf c ≠ (if bmodeOf c then slicesOf c else 1) + 4 || walkBad w (afmtOf c) false
   else Grad.ascale d ≠ 0 || nrowsOf c ≠ Grad.ng d + 4)

/-! ### The conversion descriptor (R161, R163) -/
namespace Conv
def ofmt (d : Nat) : Nat := bitsAt d 0 2
def sr (d : Nat) : Bool := bitAt d 2
def hist (d : Nat) : Bool := bitAt d 3
/-- W. -/
def hw (d : Nat) : Nat := bitsAt d 4 2 + 1
def follow (d : Nat) : Bool := bitAt d 6
def lutEn (d : Nat) : Bool := bitAt d 8
def lutSel (d : Nat) : Nat := bitsAt d 9 2
def rot (d : Nat) : Nat := bitsAt d 12 3
/-- C. -/
def chans (d : Nat) : Nat := 16 * (bitsAt d 16 3 + 1)
def ctx (d : Nat) : Nat := bitsAt d 20 3
def statEn (d : Nat) : Bool := bitAt d 23
def unitW (d : Nat) : Nat := bitsAt d 32 32
def param (d : Nat) : Nat := bitsAt d 64 22
def histBase (d : Nat) : Nat := bitsAt d 128 40
def histRow0 (d : Nat) : Nat := bitsAt d 192 32
/-- The rotation size n for ROT = 1 to 4. -/
def rotSize (d : Nat) : Nat := 8 * 2 ^ rot d
/-- Bytes of one output block (R208). -/
def block (d : Nat) : Nat := if ofmt d = 2 then 8256 else blockBytes (ofmt d) (chans d)
end Conv

/-! ### A channel parameter record (R163) -/
namespace Param
def m (r : Nat) : Int := sext 16 r
def sh (r : Nat) : Nat := bitsAt r 16 6
def b (r : Nat) : Int := sext 32 (bitsAt r 32 32)
end Param

/-- An address lies in a partition's memory window (R41). Of a HIST_BASE that lies there at or above the usable capacity
R162 leaves open whether it names partition memory: the model takes the descriptor, and the row's history operation is
refused (DESIGN CHOICE, log entry 127). -/
def isPmem (a : Nat) : Bool := 0x1000000000 ≤ a && a < 0x3000000000

/-- The error of a conversion descriptor, but for the records' SH (R162). -/
def convErr (d : Nat) : Option Nat :=
  if Conv.ofmt d = 3 then some Err.format
  else if Conv.ofmt d = 2 then (if bitsAt d 96 32 ≠ 0 then some Err.cnvDesc else none)
  else if bitAt d 7 || bitAt d 11 || bitAt d 15 || bitAt d 19 || bitsAt d 24 8 ≠ 0 ||
      !unitClean (Conv.unitW d) || bitsAt d 86 10 ≠ 0 || bitsAt d 96 32 ≠ 0 || bitsAt d 168 24 ≠ 0 ||
      bitsAt d 224 288 ≠ 0 || Conv.rot d > 4 ||
      (Conv.rot d ≠ 0 && Conv.chans d % Conv.rotSize d ≠ 0) ||
      bitsAt (Conv.unitW d) 16 7 = 0 ||
      Conv.param d + 8 * Conv.chans d > 0x400000 || Conv.param d % 8 ≠ 0 ||
      (Conv.hist d && (!isPmem (Conv.histBase d) || Conv.histBase d % 4 ≠ 0 || (Conv.follow d && Conv.hw d = 4)))
  then some Err.cnvDesc
  else none

/-- The buffers of the tile that the destination of a DRAIN meets (R132, R208); `d` is its conversion descriptor. -/
def drDstBufs (c : CmdWord) (d : Nat) : List Nat :=
  [0, 1].filter fun b => meetsBuf (drDst c) ((ceilDiv (nrowsOf c) 16 - 1) * drStride c + Conv.block d) b

/-- Bytes of the channel records of a conversion descriptor; a raw drain has none (R156, R163). -/
def recordBytes (d : Nat) : Nat := if Conv.ofmt d = 2 then 0 else 8 * Conv.chans d

/-! ### The update descriptor (R241) -/
namespace Upd
def buf (d : Nat) : Nat := bitsAt d 0 1
def grow (d : Nat) : Nat := bitsAt d 8 8
def gunit (d : Nat) : Nat := bitsAt d 32 32
def lr (d : Nat) : Nat := bitsAt d 64 32
def beta1 (d : Nat) : Nat := bitsAt d 96 16
def beta2 (d : Nat) : Nat := bitsAt d 112 16
def m1code (d : Nat) : Nat := bitsAt d 128 32
def m2code (d : Nat) : Nat := bitsAt d 160 32
def m1book (d : Nat) : Nat := bitsAt d 192 32
def m2book (d : Nat) : Nat := bitsAt d 224 32
def m1unit (d : Nat) : Nat := bitsAt d 256 32
def m2unit (d : Nat) : Nat := bitsAt d 288 32
def runit (d : Nat) : Nat := bitsAt d 320 32
def gunitB (d : Nat) : Nat := bitsAt d 352 32
def lrB (d : Nat) : Nat := bitsAt d 384 32
def param (d : Nat) : Nat := bitsAt d 416 32
def pch (d : Nat) : Nat := bitsAt d 448 8
end Upd

/-- The components of a book that its format uses (R77). -/
def bookBytes (fmt : Nat) : Nat := if fmt = 0x9 then 16 else if fmt = 0x8 then 32 else 128

/-- The update descriptor breaks R241. The address words must leave 22-bit ranges that end within scratchpad, and the
books must stand on 64-byte boundaries (R239). -/
def updBad (c : CmdWord) (d : Nat) : Bool :=
  let tgt := updTgt c
  let u (w : Nat) : Bool := !unitClean w || bitsAt w 16 7 = 0
  let out (a n : Nat) : Bool := a + n > 0x400000
  let codes := if tgt = 0 then 128 * bkCount c else 128 + Upd.pch d
  bitsAt d 1 7 ≠ 0 || bitsAt d 16 16 ≠ 0 || bitsAt d 456 24 ≠ 0 || bitsAt d 480 32 ≠ 0 ||
  u (Upd.gunit d) || u (Upd.lr d) || u (Upd.m1unit d) || u (Upd.m2unit d) || u (Upd.runit d) ||
  out (Upd.m1code d) codes || out (Upd.m2code d) codes ||
  out (Upd.m1book d) 1024 || out (Upd.m2book d) 2048 || Upd.m1book d % 64 ≠ 0 || Upd.m2book d % 64 ≠ 0 ||
  (if tgt = 0 then
    Upd.gunitB d ≠ 0 || Upd.lrB d ≠ 0 || Upd.param d ≠ 0 || Upd.pch d ≠ 0 || Upd.grow d + bkCount c > 256
   else
    u (Upd.gunitB d) || u (Upd.lrB d) || out (Upd.param d) (8 * Upd.pch d) || Upd.pch d = 0 || Upd.pch d > 128 ||
    Upd.grow d + 2 > 256)

/-! ### Lift descriptors (R272, R273) -/
namespace LiftD
def src (d : Nat) : Nat := bitsAt d 0 40
def dst (d : Nat) : Nat := bitsAt d 64 40
def len (d : Nat) : Nat := bitsAt d 128 24
def chk (d : Nat) : Bool := bitAt d 152
def sig (d : Nat) : Bool := bitAt d 153
def btag (d : Nat) : Nat := bitsAt d 156 4
def gate (d : Nat) : GateRef := ⟨bitsAt d 160 10, bitAt d 154⟩
def crc (d : Nat) : Nat := bitsAt d 192 32
end LiftD

/-- A lift descriptor breaks R272 or R273. -/
def liftBad (d : Nat) : Bool :=
  bitsAt d 40 24 ≠ 0 || bitsAt d 104 24 ≠ 0 || bitAt d 155 || bitsAt d 170 22 ≠ 0 || bitsAt d 224 32 ≠ 0 ||
  LiftD.len d = 0 || LiftD.len d % 4 ≠ 0 ||
  (LiftD.btag d ≠ 0 &&
    (!isCodebook (LiftD.btag d) || LiftD.dst d % 128 ≠ 0 || LiftD.len d % 128 ≠ 0 ||
     LiftD.dst d < 0x450000 || LiftD.dst d + LiftD.len d > 0x452000))

end Sys2Proof.Machine
end

