-- ==== Sys2Proof/Machine/Flags.lean ====
section
/-! DEFINITION. The flag computations: row state, saturation and promotion (R121 to R143), command status flags (R195),
dither (R123, R124), residues (R112). -/
namespace Sys2Proof.Machine

/-! ### Command status flags (R195) -/
namespace CFlag
def accSat : Nat := 1
def longK : Nat := 2
def sMix : Nat := 4
def clip : Nat := 8
end CFlag

/-- The row state that a row has until something changes it (R128). -/
def RowState.clear : RowState := ⟨0, 0, false, false, false, false⟩

def AccBuf.row (b : AccBuf) (r : Nat) : RowState := (b.rows.look r).getD .clear
def AccBuf.setRow (b : AccBuf) (r : Nat) (x : RowState) : AccBuf :=
  { b with rows := b.rows.put r (if x = .clear then none else some x) }
/-- Entry (r, l) as a signed number (R44). -/
def AccBuf.entry (b : AccBuf) (r l : Nat) : Int := sext 32 (leNat (b.mem.read (r * 512 + l * 4) 4))
def AccBuf.setEntry (b : AccBuf) (r l : Nat) (x : Int) : AccBuf :=
  { b with mem := b.mem.write (r * 512 + l * 4) (leBytes 4 (uns 32 x)) }

def Tile.acc (t : Tile) (b : Nat) : AccBuf := if b = 0 then t.acc0 else t.acc1
def Tile.setAcc (t : Tile) (b : Nat) (x : AccBuf) : Tile := if b = 0 then { t with acc0 := x } else { t with acc1 := x }

/-! ### Dither (R123, R124) -/

/-- One advance of the generator (R123). -/
def xorshift (x : BitVec 64) : BitVec 64 :=
  let x := x ^^^ (x <<< 13)
  let x := x ^^^ (x >>> 7)
  x ^^^ (x <<< 17)

/-- `n` draws: the words in draw order and the state after them. The state at a draw depends on all draws before it
(R123, R145). -/
def drawWords : Nat → BitVec 64 → List (BitVec 64) × BitVec 64
  | 0, x => ([], x)
  | n + 1, x =>
    let x' := xorshift x
    let r := drawWords n x'
    (x' :: r.1, r.2)

/-- The 16-bit field of lane or channel `l` in a draw (R124, R174). -/
def ditherField (ws : List (BitVec 64)) (l : Nat) : Nat := bitsAt (ws.getD (l / 4) 0).toNat (16 * (l % 4)) 16

/-- A lane value shifted and rounded: STOCH with a 16-bit field of the dither source, or NEAREST, which depends on the value
and the shift alone (R121, R145). -/
def shiftRound (stoch : Bool) (s : Nat) (field : Nat) (v : Int) : Int :=
  if s = 0 then v
  else if stoch then (v + (field >>> (16 - s) : Nat)) / (2 : Int) ^ s
  else roundEven v (2 ^ s)

/-! ### Promotion (R126 to R129, R137 to R139, R143) -/

/-- The entry that a promotion writes, and whether it clamped (R137, R138). -/
def promoteEntry (fresh : Bool) (old u : Int) : Int × Bool := if fresh then clampSum u else stickyAdd old u

/-- The row state after a promotion with shift `s` (R128, R129, R143). -/
def RowState.promoted (x : RowState) (fresh : Bool) (s : Nat) (clamped : Bool) : RowState :=
  if fresh then ⟨1, s, true, false, false, clamped⟩
  else
    let p := min 65537 (x.pcnt + 1)
    ⟨p, s, true, x.sMix || (x.written && x.s ≠ s), x.longK || p > 65536, x.sat || clamped⟩

/-- The status flags that a promotion gives its command (R129, R139, R143). -/
def promoFlags (old : RowState) (fresh : Bool) (s : Nat) (clamped : Bool) : Nat :=
  (if clamped then CFlag.accSat else 0) +
  (if !fresh && old.pcnt + 1 > 65536 then CFlag.longK else 0) +
  (if !fresh && old.written && old.s ≠ s then CFlag.sMix else 0)

/-- A promotion of values `u` (lane, value) into row `r`: buffer, clamped or not, and status flags. -/
def AccBuf.promote (b : AccBuf) (r : Nat) (fresh : Bool) (s : Nat) (us : List (Nat × Int)) : AccBuf × Bool × Nat :=
  let step (x : AccBuf × Bool) (e : Nat × Int) : AccBuf × Bool :=
    let w := promoteEntry fresh (b.entry r e.1) e.2
    (x.1.setEntry r e.1 w.1, x.2 || w.2)
  let y := us.foldl step (b, false)
  let st := b.row r
  (y.1.setRow r (st.promoted fresh s y.2), y.2, promoFlags st fresh s y.2)

/-! ### Residues (R112) -/

/-- A residue modulo 255, in 0 to 254. -/
def res255 (x : Int) : Nat := (x % 255).toNat

/-! ### Buffer states and holds (R131, R132, R147, R154) -/

def Active.op (c : Active) : Nat := opOf c.bits
/-- The commands in the tile's units. -/
def Tile.cmds (t : Tile) : List Active := t.units.array ++ t.units.cnv ++ t.units.lift

/-- BUF_STATE: 0 IDLE, 1 FILL, 2 OUT. Where a released command that reads the buffer and an accepted, still held SWEEP,
DIRECT or BIN both name it, R131 gives OUT and FILL; the model shows OUT (DESIGN CHOICE, log entry 128). -/
def Tile.bufState (t : Tile) (b : Nat) : Nat :=
  if t.cmds.any fun c => outsOp c.op && c.released && c.bufs.contains b then 2
  else if t.cmds.any fun c => fillsOp c.op && c.bufs.contains b then 1
  else 0

/-- The 64 bytes at scratchpad address `a`, as the accumulator arbiter sees them: it judges the buffers of a command
that is not yet released by the command's descriptor as it stands (DESIGN CHOICE, log entry 129). -/
def Tile.peek (t : Tile) (a : Nat) : Nat := leNat (t.spd.data.read a 64)

/-- The buffers that a command keeps from later commands of the tile (R131, R132, R242). -/
def Tile.keeps (t : Tile) (c : Active) : List Nat :=
  if c.op = Op.update && !c.begun then [Upd.buf (t.peek (udescOf c.bits))]
  else if fillsOp c.op || outsOp c.op then c.bufs else []

/-- The buffers that a command waits for before its release (R132, R147, R242). -/
def Tile.wants (t : Tile) (c : Active) : List Nat :=
  if c.op = Op.update && !c.begun then [Upd.buf (t.peek (udescOf c.bits))]
  else if c.op = Op.drain then c.bufs ++ drDstBufs c.bits (t.peek (drDesc c.bits))
  else c.bufs

/-- An earlier command of the tile has buffer `b` (R132, R147). -/
def Tile.taken (t : Tile) (c : Active) (b : Nat) : Bool := t.cmds.any fun d => d.num < c.num && (t.keeps d).contains b

/-- The records that a TGT = 0x1 UPDATE in progress writes meet [a, a + n) (R247). -/
def Tile.updMeets (t : Tile) (a n : Nat) : Bool :=
  match t.units.array.head?, t.units.arrayRun with
  | some c, some r =>
    c.op = Op.update && updTgt c.bits = 1 && a < Upd.param r.desc + 8 * Upd.pch r.desc && Upd.param r.desc < a + n
  | _, _ => false

/-- A DRAIN whose records a running UPDATE writes (R247). -/
def Tile.recordsHeld (t : Tile) (c : Active) : Bool :=
  c.op = Op.drain &&
    (let d := t.peek (drDesc c.bits)
     recordBytes d ≠ 0 && t.updMeets (Conv.param d) (recordBytes d))

/-- The arbiter holds a command that is not released (R132, R147, R247). -/
def Tile.heldBack (t : Tile) (c : Active) : Bool := (t.wants c).any (t.taken c) || t.recordsHeld c

/-- HOLD of buffer `b`: a command is held on it under R132 or R147 (R154). -/
def Tile.hold (t : Tile) (b : Nat) : Bool :=
  t.cmds.any fun c => !c.released && (t.wants c).contains b && t.taken c b

/-- A command passes its hold; from then on UPDATE keeps the buffer that its descriptor names (R242). -/
def Active.free (t : Tile) (c : Active) : Active :=
  if c.released || t.heldBack c then c
  else { c with released := true, bufs := if c.op = Op.update then t.keeps c else c.bufs }

/-- Every command that nothing holds any longer passes its hold (R132, R147, R247). -/
def Tile.releaseHolds (t : Tile) : Tile :=
  { t with units := { t.units with
      array := t.units.array.map (Active.free t)
      cnv := t.units.cnv.map (Active.free t)
      lift := t.units.lift.map (Active.free t) } }

end Sys2Proof.Machine
end

