-- ==== Sys2Proof/Machine/Scratch.lean ====
section
/-! DEFINITION. The scratchpad: banks, words, codewords, region registers, faults (R250 to R269). -/
namespace Sys2Proof.Machine

/-- The tile has completed a step, a promotion, a row, a piece or an access (R400). -/
def madeProgress (g : TileId) : M Unit := do
  let oc ← rd (.pctl (partOf g)) PCTL.OC_NOW
  modTile g fun t => { t with progress := oc }

/-- An access is refused: SPD_FAULT_ADDR, ERR_CNT and ERR_INFO of tile `g` record class, kind and tile address (R43,
R262, R264, R284). -/
def spdLog (g : TileId) (code cls kind addr : Nat) : M Unit := do
  let pg : PageId := .tile g .spd
  wr pg SPD.FAULT_ADDR addr
  wr pg SPD.FAULT_CLASS cls
  wr pg SPD.FAULT_KIND kind
  logErr pg code cls kind addr

def spdRefuse (g : TileId) (code cls kind addr : Nat) : M α := do
  spdLog g code cls kind addr
  fail code

/-- What a region must grant (R261). -/
inductive Perm where
  | r | w | x | a
  deriving DecidableEq, Repr

/-- Region `i` of master `m`, active copy, covers granule `k` and grants `p` (R261, R262). -/
def regionGrants (b : Bank) (m i : Nat) (p : Perm) (k : Nat) : Bool :=
  let on (f : Fld) : Bool := Bank.get b f.active = 1
  on (SPD.RG_EN m i) &&
  (match p with
   | .r => on (SPD.RG_R m i)
   | .w => on (SPD.RG_W m i)
   | .x => on (SPD.RG_X m i)
   | .a => on (SPD.RG_R m i) && on (SPD.RG_W m i)) &&
  Bank.get b (SPD.RG_BASE m i).active ≤ k && k ≤ Bank.get b (SPD.RG_LIMIT m i).active

/-- Every 64-byte granule that the access touches lies in an enabled region of its master that grants it (R261). -/
def regionOk (b : Bank) (m : Nat) (p : Perm) (addr n : Nat) : Bool :=
  let k0 := addr / 64
  (List.range ((addr + n - 1) / 64 - k0 + 1)).all fun i =>
    (List.range 16).any fun r => regionGrants b m r p (k0 + i)

/-- SPD_BANK_STAT of a bank: 0 ON, 1 RETENTION, 2 OFF, 3 waking. -/
def bankStat (s : State) (g : TileId) (b : Nat) : Nat := s.reg (.tile g .spd) (SPD.BANK_STAT b)

/-- The bank that holds `addr` accepts accesses; a waking bank holds them (R264). -/
def bankReady (g : TileId) (cls addr : Nat) : M Unit := do
  match bankStat (← get) g (addr / 2 ^ 18) with
  | 0 => pure ()
  | 3 => wait
  | _ => spdRefuse g Err.bankOff cls 1 addr

/-- Codeword `k` with its check bytes (R253). -/
def Spd.codeword (x : Spd) (k : Nat) : List Byte := x.data.read (32 * k) 32 ++ x.chk.read (3 * k) 3

/-- A codeword and its check bytes are stored. -/
def Spd.putCodeword (x : Spd) (k : Nat) (w : List Byte) : Spd :=
  { x with data := x.data.write (32 * k) (w.take 32), chk := x.chk.write (3 * k) (w.drop 32) }

/-- Data bytes with fresh check symbols are stored. -/
def Spd.putData (x : Spd) (k : Nat) (d : List Byte) : Spd := x.putCodeword k (d ++ checkOf d)

def modSpd (g : TileId) (f : Spd → Spd) : M Unit := modTile g fun t => { t with spd := f t.spd }

/-- A checked read of codeword `k` for class `cls` at `addr`: corrected data, or the refusal of R256. A correctable
codeword waits for its write-back (R254, R255). -/
def spdReadCodeword (g : TileId) (cls addr k : Nat) : M (List Byte) := do
  let w := (← getTile g).spd.codeword k
  match classify w with
  | .clean => return w.take 32
  | .one pos v =>
    modSpd g fun x => { x with fixups := if x.fixups.any fun f => f.1 = k then x.fixups else x.fixups ++ [(k, cls)] }
    return (correctAt w pos v).take 32
  | .bad =>
    let pg : PageId := .tile g .spd
    cnt pg SPD.UE_CNT 1
    wr pg SPD.UE 1
    raise pg 1
    logFault (partOf g) ⟨0, (partOf g).val, localOf g, true, addr / 128 * 128⟩ fun m => m.coversWord g addr
    spdRefuse g Err.spdUncorr cls 2 addr

/-- `n` bytes at `addr`, all within one word (R250, R254). -/
def spdReadWord (g : TileId) (cls addr n : Nat) : M (List Byte) := do
  bankReady g cls addr
  let k0 := addr / 32
  let ws ← mapAll (List.range ((addr + n - 1) / 32 - k0 + 1)) fun i => spdReadCodeword g cls addr (k0 + i)
  return (ws.flatten.drop (addr % 32)).take n

/-- `bs` written at `addr`, all within one word: whole codewords are replaced, the others merged after a correction,
and one uncorrectable codeword covered in part refuses the whole word (R252). -/
def spdWriteWord (g : TileId) (cls addr : Nat) (bs : List Byte) : M Unit := do
  bankReady g cls addr
  let k0 := addr / 32
  let n := bs.length
  let old ← mapAll (List.range ((addr + n - 1) / 32 - k0 + 1)) fun i => do
    let lo := 32 * (k0 + i)
    if addr ≤ lo ∧ lo + 32 ≤ addr + n then return List.replicate 32 0
    else spdReadCodeword g cls addr (k0 + i)
  let all := old.flatten
  let new := all.take (addr % 32) ++ bs ++ all.drop (addr % 32 + n)
  modSpd g fun x => (List.range old.length).foldl (fun x i => x.putData (k0 + i) ((new.drop (32 * i)).take 32)) x

/-! ### Lasting faults, write-back and scrub -/

/-- A lasting fault at word `w` (tile address / 128), found by class `cls` (0xF: the scrubber) (R255, R257). -/
def spdLasting (g : TileId) (cls w : Nat) : M Unit := do
  let pg : PageId := .tile g .spd
  cnt pg SPD.CE_LASTING 1
  wr pg SPD.LASTING 1
  raise pg 0
  let b := (← get).bank pg
  let idx := List.range 8
  if idx.any fun i => Bank.get b (SPD.LF_VALID i) = 1 ∧ Bank.get b (SPD.LF_WORD i) = w then pure ()
  else
    match idx.find? fun i => Bank.get b (SPD.LF_VALID i) = 0 with
    | some i =>
      wr pg (SPD.LF_WORD i) w
      wr pg (SPD.LF_VALID i) 1
    | none =>
      wr pg SPD.LASTING_OVF 1
      raise pg 2
      logErr pg Err.none cls 4 (w * 128)
  logFault (partOf g) ⟨0, (partOf g).val, localOf g, false, w * 128⟩ fun m => m.coversWord g (w * 128)

/-- Upsets of the stored word that holds codeword `4 × w`: symbols 0 to 127 are its bytes, 128 + 3i + j check byte j of
its codeword i. -/
def Spd.flip (x : Spd) (w : Nat) (fs : List Flip) : Spd :=
  fs.foldl (fun x f =>
    if f.sym < 128 then { x with data := x.data.set (128 * w + f.sym) (x.data.get (128 * w + f.sym) ^^^ f.mask) }
    else if f.sym < 140 then
      let a := 12 * w + (f.sym - 128)
      { x with chk := x.chk.set a (x.chk.get a ^^^ f.mask) }
    else x) x

/-- The oldest corrected codeword is written back and read again at once, meeting `flips` (R255). Of a codeword that has
become uncorrectable since its correction R255 says nothing: the model drops its write-back and counts it neither as
transient nor as lasting (DESIGN CHOICE, log entry 137). -/
def spdWritebackOp (g : TileId) (flips : List Flip) : M Unit := do
  match (← getTile g).spd.fixups with
  | [] => pure ()
  | (k, cls) :: rest =>
    if bankStat (← get) g (32 * k / 2 ^ 18) ≠ 0 then pure ()
    else
      modSpd g fun x => { x with fixups := rest }
      let w := (← getTile g).spd.codeword k
      match classify w with
      | .bad => pure ()
      | r =>
        let w' := match r with | .one pos v => correctAt w pos v | _ => w
        modSpd g fun x => (x.putCodeword k w').flip (k / 4) flips
        if classify ((← getTile g).spd.codeword k) = .clean then
          cnt (.tile g .spd) SPD.CE_TRANSIENT 1
          wr (.tile g .spd) SPD.CE 1
        else spdLasting g cls (k / 4)

/-- The scrubber's word: the first word at or after the next one whose bank is ON, the words in a ring (R258). -/
def scrubWord (s : State) (g : TileId) : Option Nat :=
  let n := (s.tile g).spd.scrubNext
  let bank (i : Nat) := (n / 2048 + i) % 16
  match (List.range 17).find? fun i => bankStat s g (bank i) = 0 with
  | none => none
  | some 0 => some n
  | some i => some (bank i * 2048)

/-- One scrub read (R258). An error ends in no refusal: the codeword is queued for write-back or counted. -/
def spdScrubOp (g : TileId) (flips : List Flip) : M Unit := do
  if (← rd (.tile g .spd) SPD.SCRUB_EN) = 0 then pure ()
  else
    match scrubWord (← get) g with
    | none => pure ()
    | some w =>
      modSpd g fun x => { x.flip w flips with scrubNext := (w + 1) % 32768 }
      forAll (List.range 4) fun i => attempt (do let _ ← spdReadCodeword g 0xF (w * 128) (4 * w + i))

/-! ### Arbitration (R251, R267 to R269) -/

/-- A request that stands at an arbiter: its port there and its bypass count (R267). -/
structure Ask where
  port : Nat
  count : Nat
  deriving DecidableEq, Repr

/-- Each port presents only its oldest request (R267). -/
def presented : List (Ask × β) → List (Ask × β)
  | [] => []
  | r :: t => r :: (presented t).filter fun x => x.1.port ≠ r.1.port

/-- Request `a` is granted before `b`: the higher count, and among equals the port that comes first after `last`. -/
def Ask.before (last : Nat) (a b : Ask) : Bool :=
  b.count < a.count || (a.count = b.count && (a.port + 63 - last) % 64 < (b.port + 63 - last) % 64)

/-- The request that an arbiter grants (R267). -/
def bestOf (last : Nat) : List (Ask × β) → Option (Ask × β)
  | [] => none
  | r :: t =>
    match bestOf last t with
    | none => some r
    | some x => some (if x.1.before last r.1 then x else r)

/-- The requests after the heads of the `granted` ports are gone; the other heads have lost, and what is queued behind a
head has lost nothing (R267). `seen` are the ports whose head stands further in front. -/
def afterGrant (granted : List Nat) : List Nat → List (Ask × β) → List (Ask × β)
  | _, [] => []
  | seen, (a, x) :: t =>
    if a.port ∈ seen then (a, x) :: afterGrant granted seen t
    else if a.port ∈ granted then afterGrant granted (a.port :: seen) t
    else ({ a with count := min 255 (a.count + 1) }, x) :: afterGrant granted (a.port :: seen) t

/-- Arbitrations until the request of port `port` is granted: the count that it leaves with, and the port granted last. -/
def passOne (port : Nat) : Nat → Nat → List (Ask × Unit) → Nat × Nat
  | 0, last, _ => (0, last)
  | n + 1, last, l =>
    match bestOf last (presented l) with
    | none => (0, last)
    | some w => if w.1.port = port then (w.1.count, port) else passOne port n w.1.port (afterGrant [w.1.port] [] l)

/-- The number of ports of an arbiter, and the highest count of a request that arrives there (R268). -/
def arbPorts : ArbLevel → Nat
  | .tile => 4
  | .fabric => 15
  | .engine => 5
  | .memory => 2
def arbTop : ArbLevel → Nat
  | .tile => 0
  | .fabric => 3
  | .engine => 18
  | .memory => 23

/-- An arbiter on a request's way: its number, its level, and the port by which the request comes. -/
structure Arbiter where
  id : Nat
  level : ArbLevel
  port : Nat
  deriving DecidableEq, Repr

/-- The tile port arbiters, the fabrics of the channel groups, the engine fabric and the memory controllers' arbiters. -/
def tileArb (g : TileId) (unit : Nat) : Arbiter := ⟨g.val, .tile, unit⟩
def fabricArb (p : PartId) (c : Fin 2) (port : Nat) : Arbiter := ⟨48 + 2 * p.val + c.val, .fabric, port⟩
def engineArb (port : Nat) : Arbiter := ⟨56, .engine, port⟩
def memoryArb (p : PartId) (c : Fin 2) (port : Nat) : Arbiter := ⟨57 + 2 * p.val + c.val, .memory, port⟩

/-- The first arbiters of a request of class `cls`: a tile's unit goes through its tile port, and the partition control
core, the host window and Piste inbound enter at the fabric (R268). -/
def entryWay (cls : Nat) (path : Path) (c : Fin 2) : List Arbiter :=
  match cls with
  | 4 => [fabricArb path.part c 12]
  | 5 => [fabricArb path.part c 13]
  | 6 => [fabricArb path.part c 14]
  | 7 => [engineArb 4]
  | _ => [tileArb (tileAt path.part path.tile) path.unit, fabricArb path.part c path.tile]

/-- The way to the memory controller of channel group `c` of partition `p` (R268). -/
def memWay (cls : Nat) (path : Path) (p : PartId) (c : Fin 2) : List Arbiter :=
  if cls = 7 then [engineArb 4, memoryArb p c 1]
  else if path.part = p then entryWay cls path c ++ [memoryArb p c 0]
  else entryWay cls path c ++ [engineArb path.part, memoryArb p c 1]

/-- The way to a bank from outside its masters. Which group's fabric carries traffic between tiles is the model's choice:
group 0 (DESIGN CHOICE, log entry 136). -/
def spdWay (cls : Nat) (path : Path) : List Arbiter := if cls < 4 then [] else entryWay cls path 0

/-- Who stands at an arbiter beside the request; a count above the level's greatest does not arrive there (R268). -/
def Arbiter.standing (a : Arbiter) (others : List Contender) : List (Ask × Unit) :=
  others.filterMap fun o =>
    if o.level = a.level ∧ o.port ≠ a.port ∧ o.port < arbPorts a.level then some (⟨o.port, min (arbTop a.level) o.count⟩, ())
    else none

/-- A request passes the arbiters of its way, from the count `n`: the count that it leaves the last with (R267). -/
def passArbiters (others : List Contender) : List Arbiter → Nat → M Nat
  | [], n => return n
  | a :: t, n => do
    let l := (⟨a.port, n⟩, ()) :: a.standing others
    let r := passOne a.port l.length (((← get).eng.arbLast.look a.id).getD (arbPorts a.level - 1)) l
    modEng fun e => { e with arbLast := e.arbLast.put a.id r.2 }
    passArbiters others t r.1

/-- What a request does at its bank: class, tile address, access. -/
structure BankJob where
  cls : Nat
  addr : Nat
  acc : Access
  deriving DecidableEq, Repr

def BankJob.writes (j : BankJob) : Bool := match j.acc with | .read _ => false | .write _ => true

/-- A companion that the winner allows: another port's access to the winner's word, one of the two at least a read
(R251). -/
def companionOk (w r : Ask × BankJob) : Bool :=
  r.1.port ≠ w.1.port && r.2.addr / 128 = w.2.addr / 128 && !(w.2.writes && r.2.writes)

/-- One access at the bank that holds its word. -/
def bankDo (g : TileId) (j : BankJob) : M (List Byte) := do
  match j.acc with
  | .read n => spdReadWord g j.cls j.addr n
  | .write bs => do
    spdWriteWord g j.cls j.addr bs
    return []

/-- The one physical access of a winner and its companion: a read comes before a write, and two reads are one, which
counts an uncorrectable word once (R251, R256). The answers stand in the order of the requests. -/
def bankPair (g : TileId) (a b : BankJob) : M (Except Nat (List Byte) × Except Nat (List Byte)) := do
  if a.writes then
    let y ← catchErr (bankDo g b)
    let x ← catchErr (bankDo g a)
    return (x, y)
  else
    let x ← catchErr (bankDo g a)
    let ue ← rd (.tile g .spd) SPD.UE_CNT
    let y ← catchErr (bankDo g b)
    match x, b.writes with
    | .error _, false => wr (.tile g .spd) SPD.UE_CNT ue
    | _, _ => pure ()
    return (x, y)

def answerOf : Except Nat α → M α
  | .ok a => return a
  | .error c => fail c

/-- Arbitrations at bank `b` until the request of port `port` is granted, with the counters CONFL, BYP_MAX and MERGE_CNT
(R251, R284). Whoever is granted is served; the answer is the one to `port`. -/
def arbRounds (g : TileId) (b port : Nat) : Nat → List (Ask × BankJob) → M (List Byte)
  | 0, _ => return []
  | n + 1, l => do
    let pg : PageId := .tile g .spd
    let last := ((← getTile g).spd.lastPort.look b).getD 7
    let hs := presented l
    match bestOf last hs with
    | none => return []
    | some w =>
      let c := bestOf last (hs.filter (companionOk w))
      let granted := w.1.port :: (c.map fun r => r.1.port).toList
      forAll (w :: c.toList) fun r => do
        if (← rd pg (SPD.BYP_MAX r.1.port)) < r.1.count then wr pg (SPD.BYP_MAX r.1.port) r.1.count
      if c.isSome then cnt pg SPD.MERGE_CNT 1
      forAll (hs.filter fun r => r.1.port ∉ granted) fun r => cnt pg (SPD.CONFL r.1.port) 1
      modSpd g fun x => { x with lastPort := x.lastPort.put b w.1.port }
      match c with
      | none =>
        let x ← catchErr (bankDo g w.2)
        if w.1.port = port then answerOf x else arbRounds g b port n (afterGrant granted [] l)
      | some r =>
        let x ← bankPair g w.2 r.2
        if w.1.port = port then answerOf x.1
        else if r.1.port = port then answerOf x.2
        else arbRounds g b port n (afterGrant granted [] l)

/-- The port of a class at a bank arbiter: class order, then peer (R284). -/
def portOfClass (cls : Nat) : Nat := if cls < 7 then cls else 7

/-- A rival as it stands at the bank of `addr`: its access, cut at the end of its word. A count above 18 does not arrive
at a bank (R268), and a request that its region registers refuse is not presented (R262). -/
def rivalAt (b : Bank) (addr : Nat) (r : Rival) : Option (Ask × BankJob) :=
  let a := addr / 2 ^ 18 * 2 ^ 18 + r.word.val * 128 + r.byte.val
  let room := 128 - r.byte.val
  let acc : Access := match r.acc with | .read n => .read (min room (max 1 n)) | .write bs => .write (bs.take room)
  let n := match acc with | .read n => n | .write bs => bs.length
  let cls := if r.port.val = 7 then 8 else r.port.val
  let perm := match acc with | .read _ => Perm.r | .write _ => Perm.w
  if n = 0 || (cls ≤ 6 && !regionOk b cls perm a n) then none
  else some (⟨r.port.val, min 18 r.count⟩, ⟨cls, a, acc⟩)

/-- An access within one word, presented at its bank with `count` among rivals. A rival at the request's own port stands
behind it (R251, R267). -/
def bankAccess (g : TileId) (cls addr count : Nat) (acc : Access) (rivals : List Rival) : M (List Byte) := do
  bankReady g cls addr
  let rs := rivals.filterMap (rivalAt ((← get).bank (.tile g .spd)) addr)
  arbRounds g (addr / 2 ^ 18) (portOfClass cls) (rs.length + 1) ((⟨portOfClass cls, count⟩, ⟨cls, addr, acc⟩) :: rs)

/-- The pieces of `n` bytes at `addr` that each lie within one block of `size` bytes: offset in the access, length. -/
def splitAt (size addr : Nat) : Nat → Nat → Nat → List (Nat × Nat)
  | 0, _, _ => []
  | fuel + 1, i, n =>
    if n = 0 then []
    else
      let m := min n (size - (addr + i) % size)
      (i, m) :: splitAt size addr fuel (i + m) (n - m)

/-- A request that spans words is split into one request per word, ascending (R252). -/
def wordPieces (addr n : Nat) : List (Nat × Nat) := splitAt 128 addr (n / 128 + 2) 0 n

/-- The requests of a split access: each succeeds or is refused on its own, and the access ends with the first refusal
(R252). -/
def eachPiece (l : List α) (m : α → M β) : M (List β) := do
  let rs ← mapAll l fun p => catchErr (m p)
  match rs.findSome? fun r => match r with | .error c => some c | .ok _ => none with
  | some c => fail c
  | none => return rs.filterMap fun r => match r with | .ok a => some a | .error _ => none

/-- The part of an access in one of its pieces. -/
def accPiece (p : Nat × Nat) : Access → Access
  | .read _ => .read p.2
  | .write bs => .write ((bs.drop p.1).take p.2)

/-- An access at the bank that its class's own accesses reach, alone there. -/
def bankRead (g : TileId) (cls addr n : Nat) : M (List Byte) := bankAccess g cls addr 0 (.read n) []
def bankWrite (g : TileId) (cls addr : Nat) (bs : List Byte) : M Unit := do
  let _ ← bankAccess g cls addr 0 (.write bs) []

/-- A write over any words, one request per word (R252). -/
def bankFill (g : TileId) (cls addr : Nat) (bs : List Byte) : M Unit := do
  let _ ← eachPiece (wordPieces addr bs.length) fun q => bankWrite g cls (addr + q.1) ((bs.drop q.1).take q.2)

end Sys2Proof.Machine
end

