-- ==== Sys2Proof/Machine/SysPort.lean ====
section
/-! DEFINITION. The system port (R308 to R314, R45). -/
namespace Sys2Proof.Machine

def modSys (f : SysPort → SysPort) : M Unit := modEng fun e => { e with sys := f e.sys }

/-- An answer is one to this access. -/
def SysAns.fits (a : SysAns) (who : Who) (addr len : Nat) (write : Bool) : Bool :=
  a.who = who && a.addr = addr && a.len = len && a.write = write

/-- The request that carries an access of `n` bytes at `addr` within one 128-byte block: the aligned 64 bytes that hold it,
or the block (R308). -/
def sysSpan (addr n : Nat) : Nat × Nat :=
  if addr % 64 + n ≤ 64 then (addr / 64 * 64, 64) else (addr / 128 * 128, 128)

/-- A request is queued at the port (R308). -/
def sysQueue (who : Who) (cls : Nat) (port : Fin 5) (a len : Nat) (data : Option (Nat × List Byte)) : M Unit :=
  modSys fun y => { y with
    nextId := y.nextId + 1
    reqs := y.reqs ++ [⟨y.nextId, who, cls, port, a, len, data, false, 0, 0, 0⟩] }

/-- Bytes that `who` has asked to read. -/
def SysPort.asked (y : SysPort) (who : Who) : Nat :=
  ((y.reqs.filter fun r => r.who = who && r.data.isNone).map SysReq.len).sum

/-- Reads that a lift engine issues before it needs their data: up to 32 of 64 bytes are in flight (R271). -/
def sysAhead (who : Who) (cls : Nat) (port : Fin 5) (l : List (Nat × Nat)) : M Unit :=
  forAll l fun p => do
    let y := (← get).eng.sys
    let (a, len) := sysSpan p.1 p.2
    let known := y.answers.any (fun x => x.fits who a len false) ||
      y.reqs.any fun r => r.who = who && r.addr = a && r.len = len && r.data.isNone
    if !known && y.asked who + len ≤ 2048 then sysQueue who cls port a len none

/-- One access within a 128-byte block of system memory. A finished answer is used; without one the request is queued once
and its requester waits (R308, R310). -/
def sysOne (who : Who) (cls : Nat) (port : Fin 5) (addr n : Nat) (bytes : Option (List Byte)) : M (List Byte) := do
  let y := (← get).eng.sys
  let (a, len) := sysSpan addr n
  let data := bytes.map fun bs => (addr - a, bs)
  match y.answers.find? fun x => x.fits who a len data.isSome with
  | some x =>
    modSys fun y => { y with
      answers := y.answers.map fun x => if x.fits who a len data.isSome then { x with used := true } else x }
    if x.err = Err.none then return (x.bytes.drop (addr - a)).take n else fail x.err
  | none =>
    if y.reqs.any fun r => r.who = who ∧ r.addr = a ∧ r.len = len ∧ r.data = data then wait
    else
      sysQueue who cls port a len data
      wait

/-- An access to system memory, one request per 128-byte block in ascending order (R308). -/
def sysAccess (who : Who) (cls : Nat) (port : Fin 5) (addr len : Nat) (data : Option (List Byte)) : M (List Byte) := do
  return (← mapAll (wordPieces addr len) fun p =>
    sysOne who cls port (addr + p.1) p.2 (data.map fun bs => (bs.drop p.1).take p.2)).flatten

/-- The state with its system port changed. -/
def State.withSys (s : State) (y : SysPort) : State := { s with eng := { s.eng with sys := y } }

/-- Answers that have been used are gone. -/
def dropUsed (s : State) : State :=
  s.withSys { s.eng.sys with answers := s.eng.sys.answers.filter fun a => !a.used }

/-- One micro-operation of a requester. Where it has to wait, nothing of it has happened but its request; it is done
again from its beginning when its unit is commanded again. -/
def settle (m : M α) : M α := fun s =>
  match m s with
  | .error .wait s' => .error .wait (s.withSys { s'.eng.sys with answers := s.eng.sys.answers })
  | .ok a s' => .ok a (dropUsed s')
  | .error e s' => .error e (dropUsed s')

/-- Nobody waits any longer for what `who` has at the port that meets `[lo, lo + n)`: its answers are forgotten, and its
requests' answers will be. -/
def disownAt (who : Who) (p : PartId) (lo n : Nat) : M Unit := modSys fun y => { y with
  answers := y.answers.filter fun a => !(a.who = who && lo < a.addr + a.len && a.addr < lo + n)
  reqs := y.reqs.map fun r => if r.who = who && lo < r.addr + r.len && r.addr < lo + n then { r with who := .gone p } else r }

/-- The same for all that `who` has at the port. -/
def disown (who : Who) (p : PartId) : M Unit := disownAt who p 0 (2 ^ 40)

/-- Reads in flight at the port (R308, R314). -/
def readsInFlight (y : SysPort) : Nat := (y.reqs.filter fun r => r.handed && r.data.isNone).length

/-- The oldest request of each port that has not been handed over, in port order (R267); with 1,024 reads in flight no
further read is ready (R308). -/
def sysHeads (y : SysPort) : List SysReq :=
  ((List.finRange 5).filterMap fun k => y.reqs.find? fun r => !r.handed && r.port = k).filter fun r =>
    r.data.isSome || readsInFlight y < 1024

/-- The winner of an arbitration: the highest bypass count, and among equals the first port after the one that was
granted last (R267, R309). -/
def sysWinner (y : SysPort) : Option SysReq :=
  let hs := sysHeads y
  let top := hs.foldl (fun m r => max m r.count) 0
  let eq := hs.filter fun r => r.count = top
  (eq.find? fun r => y.lastPort < r.port.val).orElse fun _ => eq.head?

/-- The SoC fabric takes request `id` (R309). -/
def sysHandOver (id : Nat) : M Unit := do
  modSys fun y => { y with
    held := none
    reqs := y.reqs.map fun r => if r.id = id then { r with handed := true, age := 0 } else r }
  wr .eng ENG.SYS_HOLD 0

/-- A request waits at the system port that the SoC fabric has not accepted (R310); a SYS_GRANT of 0 holds every request so
(R314). -/
def sysStalls (s : State) : Bool :=
  s.eng.sys.held.isSome || (s.reg .eng ENG.SYS_GRANT = 0 && s.eng.sys.reqs.any fun r => !r.handed)

/-- One arbitration of the port and its hand-over, or the hold of R310. -/
def sysRequestOp (accepted : Bool) : M Unit := do
  let y := (← get).eng.sys
  let ok := accepted && (← rd .eng ENG.SYS_GRANT) ≠ 0
  match y.held with
  | some id => if ok then sysHandOver id
  | none =>
    match sysWinner y with
    | none => pure ()
    | some w =>
      modSys fun y => { y with
        lastPort := w.port.val
        reqs := y.reqs.map fun r =>
          if (sysHeads y).any fun h => h.id = r.id ∧ r.id ≠ w.id then { r with count := min 255 (r.count + 1) } else r }
      if ok then sysHandOver w.id
      else
        modSys fun y => { y with held := some w.id }
        wr .eng ENG.SYS_HOLD 1

/-- The partition whose work a requester does; 4 for the engine manager core (R477). -/
def Who.part : Who → Nat
  | .tile g _ => (partOf g).val
  | .qmg p => p.val
  | .fw p => p.val
  | .xfer p => p.val
  | .gone p => p.val
  | .emc => 4

/-- Someone waits for the answer. -/
def Who.waits : Who → Bool
  | .gone _ => false
  | .emc => false
  | _ => true

/-- A handed-over request ends with `err` and `bytes`; its requester finds the answer. -/
def sysAnswer (r : SysReq) (err : Nat) (bytes : List Byte) : M Unit :=
  modSys fun y => { y with
    reqs := y.reqs.filter fun x => x.id ≠ r.id
    answers :=
      if r.who.waits then
        y.answers ++ [{ who := r.who, addr := r.addr, len := r.len, write := r.data.isSome, err, bytes, used := false }]
      else y.answers }

/-- A read's data cut or filled to the length asked for; a byte that the SoC did not send reads as a free value. -/
def fitBytes (n fresh : Nat) (bs : List Byte) : List Byte :=
  (List.range n).map fun i => bs.getD i (Config.freeByte fresh i)

/-- The SoC fabric answers request `id`; a reply to no handed-over request is dropped, and one that carries an ended epoch
counts in EPOCH_DROP (R311, R313, R45, R412). -/
def sysReplyOp (id : Nat) (a : SysAnswer) : M Unit := do
  match (← get).eng.sys.reqs.find? fun r => r.id = id && r.handed with
  | none => do
    match (← get).eng.sys.late.find? fun x => x.1 = id with
    | some x =>
      modSys fun y => { y with late := y.late.filter fun z => z.1 ≠ id }
      if (← rd .dlw (DLW.EPOCH x.2.1)) ≠ x.2.2 then cnt .dlw DLW.EPOCH_DROP 1
    | none => pure ()
  | some r =>
    match a with
    | .refused =>
      wr .eng ENG.SYS_ERR_ADDR r.addr
      raise .eng 1
      logErr .eng Err.sysRefused r.who.part 0 r.addr
      sysAnswer r Err.sysRefused []
    | .data bs =>
      if r.data.isNone then
        cnt .eng ENG.SYS_RD_BYTES r.len
        sysAnswer r Err.none (fitBytes r.len (← freshNum) bs)
    | .done =>
      if r.data.isSome then
        cnt .eng ENG.SYS_WR_BYTES ((r.data.map fun d => d.2.length).getD 0)
        sysAnswer r Err.none []

/-- Request `id` has waited SYS_TMO OC since its hand-over (R313). -/
def sysTimeoutOp (id : Nat) : M Unit := do
  match (← get).eng.sys.reqs.find? fun r => r.id = id && r.handed with
  | none => pure ()
  | some r =>
    cnt .eng ENG.SYS_TMO_CNT 1
    wr .eng ENG.SYS_ERR_ADDR r.addr
    raise .eng 0
    logErr .eng Err.sysTimeout r.who.part 1 r.addr
    sysAnswer r Err.sysTimeout []

def execSysRequest (accepted : Bool) (s : State) : Host.Outcome State Fault Refusal :=
  M.next (sysRequestOp accepted) s

/-- SYS_REPLY (R311): read data, a completed write or a refusal for a request that has been handed over. -/
def execSysReply (id : Nat) (answer : SysAnswer) (s : State) : Host.Outcome State Fault Refusal :=
  M.next (sysReplyOp id answer) s

def execSysTimeout (id : Nat) (s : State) : Host.Outcome State Fault Refusal :=
  M.next (sysTimeoutOp id) s

/-- SYS_GRANT_CHANGE (R314): the share that the SoC system manager sets. -/
def execSysGrantChange (share : BitVec 16) (s : State) : Host.Outcome State Fault Refusal :=
  M.next (wr .eng ENG.SYS_GRANT share.toNat) s

/-- SOC_FABRIC_ACCEPT (R310): the held request is accepted, which ends the hold on it and on those behind it. -/
def execSocFabricAccept (s : State) : Host.Outcome State Fault Refusal :=
  M.next (do
    match (← get).eng.sys.held with
    | some id => if (← rd .eng ENG.SYS_GRANT) ≠ 0 then sysHandOver id
    | none => pure ()) s

end Sys2Proof.Machine
end

