-- ==== Sys2Proof/Machine/Access.lean ====
section
/-! DEFINITION. Accesses by tile address: what an address names, who may reach it, and the accumulator buffers, book
store and LUTs as memory (R41 to R45, R79 to R87, R133, R134, R259 to R262). -/
namespace Sys2Proof.Machine

/-- A tile's own resources (R41). -/
inductive Local where
  | spd | acc (b : Nat) | table | book | lut
  deriving DecidableEq, Repr

/-- What a tile address below 2³² names, with the offset within it (R41). -/
def localTarget (a : Nat) : Option (Local × Nat) :=
  if a < 0x400000 then some (.spd, a)
  else if a < 0x440000 then some (.acc (bitsAt a 17 1), a % 0x20000)
  else if a < 0x440400 then some (.table, a - 0x440000)
  else if 0x450000 ≤ a ∧ a < 0x452000 then some (.book, a - 0x450000)
  else if 0x460000 ≤ a ∧ a < 0x460400 then some (.lut, a - 0x460000)
  else none

/-- What a tile address names (R41). -/
inductive Target where
  | here (l : Local) (off : Nat)
  | peer (g : TileId) (l : Local) (off : Nat)
  | pmem (q : PartId) (off : Nat)
  | sys (addr : Nat)
  deriving DecidableEq, Repr

/-- The target of tile address `a` at tile `g`; `none` for a reserved address or one at or above the usable capacity
(R41, R42). -/
def targetOf (v : Variant) (g : TileId) (a : Nat) : Option Target :=
  if a < 0x100000000 then (localTarget a).map fun t => .here t.1 t.2
  else if a < 0x10C000000 then
    let t := a / 0x1000000 - 0x100
    if h : t < 12 then (localTarget (a % 0x1000000)).map fun l => .peer (tileAt (partOf g) ⟨t, h⟩) l.1 l.2 else none
  else if 0x1000000000 ≤ a ∧ a < 0x3000000000 then
    let q := (a - 0x1000000000) / 0x800000000
    let off := a % 0x800000000
    if h : q < 4 then (if off < v.capacity then some (.pmem ⟨q, h⟩ off) else none) else none
  else if 0x4000000000 ≤ a ∧ a < 0x8000000000 then some (.sys (a - 0x4000000000))
  else none

/-- An access: the tile whose registers check it, its originator class, the master whose region registers check it
(R273), whether it belongs to that tile's own command stream (R133), whether a held write is left with the book store or
LUT (R82, R87) or holds its master, and who waits at the system port. -/
structure Req where
  tile : TileId
  cls : Nat
  regs : Nat
  own : Bool
  post : Bool
  who : Who
  deriving DecidableEq, Repr

/-- The region registers allow the access, where they check it (R260, R261). -/
def Req.checkRegion (r : Req) (t : Target) (perm : Perm) (a n : Nat) : M Unit := do
  let checked := match t with
    | .sys _ => false
    | .here .spd _ => true
    | .here _ _ => 4 ≤ r.regs
    | _ => true
  if checked && !regionOk ((← get).bank (.tile r.tile .spd)) r.regs perm a n then
    spdRefuse r.tile Err.region r.cls 0 a

/-- The bytes that a reader of an owned buffer finds: 0x8000_0000 in every word (R133). -/
def markerBytes (off n : Nat) : List Byte := (List.range n).map fun i => if (off + i) % 4 = 3 then 0x80 else 0

/-- An access of another master meets a buffer in FILL or OUT at tile `g` (R133). -/
def accAccessErr (g : TileId) (cls a : Nat) : M Unit := do
  wr (.tile g .acc) ACC.ACC_ACCESS_ERR 1
  logErr (.tile g .acc) Err.none cls 1 a

/-- A command that the array unit has begun names book `n` (R82). R82 speaks of SWEEP and DIRECT, R191 and R210 of a compute
command: the model takes the commands that read books, BIN among them, and not UPDATE (DESIGN CHOICE, log entry 161). -/
def Tile.bookBusy (t : Tile) (n : Nat) : Bool := t.units.array.any fun c => c.begun && fillsOp c.op && namesBook c.bits n

/-- A DRAIN in progress uses LUT `k` (R87). -/
def Tile.lutBusy (t : Tile) (k : Nat) : Bool :=
  match t.units.drain with
  | some d => Conv.ofmt d.desc ≠ 2 && Conv.lutEn d.desc && Conv.lutSel d.desc = k
  | none => false

/-- Bytes of the book store change, and the books they meet become INVALID (R79). -/
def Books.store (b : Books) (off : Nat) (bs : List Byte) : Books :=
  { b with
    mem := b.mem.write off bs
    tags := b.tags.filter fun e => !(off < e.1 * 128 + 128 && e.1 * 128 < off + bs.length) }

/-- A write into the book store by any means other than BOOK and UPDATE (R79, R82). `off` lies within one book. -/
def bookWrite (g : TileId) (post : Bool) (off : Nat) (bs : List Byte) : M Unit := do
  if (← getTile g).bookBusy (off / 128) then
    if post then modTile g fun t => { t with books := { t.books with held := t.books.held ++ [⟨off, bs⟩] } }
    else wait
  else modTile g fun t => { t with books := t.books.store off bs }

/-- A write into a LUT (R87). -/
def lutWrite (g : TileId) (post : Bool) (off : Nat) (bs : List Byte) : M Unit := do
  if (← getTile g).lutBusy (off / 256) then
    if post then modTile g fun t => { t with books := { t.books with heldLut := t.books.heldLut ++ [⟨off, bs⟩] } }
    else wait
  else modTile g fun t => { t with books := { t.books with luts := t.books.luts.write off bs } }

/-- Held book writes whose book no begun command names any longer take effect, in the order of their arrival (R82). -/
def Tile.releaseBooks (t : Tile) : Tile :=
  let go := t.books.held.filter fun h => !t.bookBusy (h.addr / 128)
  let b := go.foldl (fun b h => b.store h.addr h.bytes) t.books
  { t with books := { b with held := t.books.held.filter fun h => t.bookBusy (h.addr / 128) } }

/-- Held LUT writes whose LUT no DRAIN in progress uses any longer take effect (R87). -/
def Tile.releaseLuts (t : Tile) : Tile :=
  let go := t.books.heldLut.filter fun h => !t.lutBusy (h.addr / 256)
  let m := go.foldl (fun m h => m.write h.addr h.bytes) t.books.luts
  { t with books := { t.books with luts := m, heldLut := t.books.heldLut.filter fun h => t.lutBusy (h.addr / 256) } }

/-- A read at a tile's own resource, as that tile sees it: `cls` is the originator, `a` the tile address there. -/
def localRead (g : TileId) (cls : Nat) (own : Bool) (l : Local) (off a n : Nat) : M (List Byte) := do
  match l with
  | .spd => bankRead g cls off n
  | .acc b =>
    let t ← getTile g
    if !own && t.bufState b ≠ 0 then
      accAccessErr g cls a
      return markerBytes off n
    else return (t.acc b).mem.read off n
  | .table => return (← getTile g).arr.table.read off n
  | .book => return (← getTile g).books.mem.read off n
  | .lut => return (← getTile g).books.luts.read off n

/-- A write at a tile's own resource. The table store view is refused before this (R42). -/
def localWrite (g : TileId) (cls : Nat) (own post : Bool) (l : Local) (off a : Nat) (bs : List Byte) : M Unit := do
  match l with
  | .spd => bankWrite g cls off bs
  | .acc b =>
    let t ← getTile g
    if !own && t.bufState b ≠ 0 then accAccessErr g cls a
    else modTile g fun t => let x := t.acc b; t.setAcc b { x with mem := x.mem.write off bs }
  | .table => pure ()
  | .book => bookWrite g post off bs
  | .lut => lutWrite g post off bs

/-- Partition `q` refuses requests from outside it, unless it is in RUN (R411). -/
def checkOpen (from_ q : PartId) : M Unit := do
  if from_ ≠ q && !open_ (← get) q then fail Err.fenced

/-- The way of an access by class `cls` that starts at tile `g`, alone at every arbiter (R268). -/
def pathAt (g : TileId) (cls : Nat) : Path :=
  ⟨partOf g, ⟨g.val % 12, by omega⟩, ⟨cls % 4, by omega⟩, []⟩

/-- An access passes the arbiters of its way, with none beside it (R267, R268). -/
def passAlone (way : List Arbiter) : M Unit := do
  let _ ← passArbiters [] way 0

/-- One read of `n` bytes that lies within one 128-byte block, at what the address names (R41, R42, R260, R262). -/
def Req.readAt (r : Req) (perm : Perm) (a n : Nat) : M (List Byte) := do
  match targetOf (← get).variant r.tile a with
  | none => spdRefuse r.tile Err.addrRange r.cls 3 a
  | some t =>
    r.checkRegion t perm a n
    match t with
    | .here l off => localRead r.tile r.cls r.own l off a n
    | .peer g l off => do
      passAlone (spdWay 8 (pathAt r.tile r.cls))
      localRead g 8 false l off (a % 0x1000000) n
    | .pmem q off => do
      checkOpen (partOf r.tile) q
      passAlone (memWay r.cls (pathAt r.tile r.cls) q (interleave (← get).variant off).1)
      mcReadOp q r.cls off n [] [] false
    | .sys addr => sysAccess r.who r.cls ⟨(partOf r.tile).val, by omega⟩ addr n none

/-- An access of a tile's own unit has been acknowledged (R400). -/
def Req.acked (r : Req) : M Unit := if r.cls < 4 then madeProgress r.tile else pure ()

/-- One read that lies within one 128-byte block. -/
def Req.readPiece (r : Req) (perm : Perm) (a n : Nat) : M (List Byte) := do
  let bs ← r.readAt perm a n
  r.acked
  return bs

/-- The table store view is read only (R42). -/
def Target.readOnly : Target → Bool
  | .here .table _ => true
  | .peer _ .table _ => true
  | _ => false

/-- One write of `bs` that lies within one 128-byte block, at what the address names (R41, R42, R260, R262). -/
def Req.writeAt (r : Req) (a : Nat) (bs : List Byte) : M Unit := do
  match targetOf (← get).variant r.tile a with
  | none => spdRefuse r.tile Err.addrRange r.cls 3 a
  | some t =>
    if t.readOnly then spdRefuse r.tile Err.addrRo r.cls 3 a
    else
      r.checkRegion t .w a bs.length
      match t with
      | .here l off => localWrite r.tile r.cls r.own r.post l off a bs
      | .peer g l off => do
        passAlone (spdWay 8 (pathAt r.tile r.cls))
        localWrite g 8 false r.post l off (a % 0x1000000) bs
      | .pmem q off => do
        checkOpen (partOf r.tile) q
        passAlone (memWay r.cls (pathAt r.tile r.cls) q (interleave (← get).variant off).1)
        mcWriteOp q r.cls off bs [] []
      | .sys addr => do let _ ← sysAccess r.who r.cls ⟨(partOf r.tile).val, by omega⟩ addr bs.length (some bs)

/-- One write that lies within one 128-byte block. -/
def Req.writePiece (r : Req) (a : Nat) (bs : List Byte) : M Unit := do
  r.writeAt a bs
  r.acked

/-- A read of `n` bytes, one request per 128-byte block in ascending order (R252). -/
def Req.read (r : Req) (a n : Nat) : M (List Byte) := do
  return (← eachPiece (wordPieces a n) fun p => r.readPiece .r (a + p.1) p.2).flatten

/-- A write, one request per 128-byte block in ascending order (R252). -/
def Req.write (r : Req) (a : Nat) (bs : List Byte) : M Unit := do
  let _ ← eachPiece (wordPieces a bs.length) fun p => r.writePiece (a + p.1) ((bs.drop p.1).take p.2)

/-- Bytes as one number, least significant first. -/
def Req.readNat (r : Req) (a n : Nat) : M Nat := do return leNat (← r.read a n)

/-- An access of a command of tile `g` by the master of class `cls`; `u` tells units apart at the system port. -/
def ownReq (g : TileId) (cls u : Nat) : Req := ⟨g, cls, cls, true, false, .tile g u⟩

/-- Runs of byte addresses: rising by 0 or 1, within one 128-byte block. -/
def runsOf : List Nat → List (Nat × Nat)
  | [] => []
  | a :: t =>
    match runsOf t with
    | [] => [(a, 1)]
    | (b, n) :: r => if b = a then (b, n) :: r else if b = a + 1 ∧ b % 128 ≠ 0 then (a, n + 1) :: r else (a, 1) :: (b, n) :: r

/-- The bytes at scattered addresses, read in runs: each address with its byte. -/
def Req.gather (r : Req) (as : List Nat) : M (List (Nat × Byte)) := do
  let got ← mapAll (runsOf as) fun p => do
    let bs ← r.readPiece .r p.1 p.2
    return bs.zipIdx.map fun (b, i) => (p.1 + i, b)
  return got.flatten

end Sys2Proof.Machine
end

