-- ==== Sys2Proof/Machine/Gates.lean ====
section
/-! DEFINITION. Gates: reaching one, signals with their source classes and masks, changes of value (R361 to R366,
R382), and the alert pin (R469). -/
namespace Sys2Proof.Machine

/-- The source of a signal (R362). -/
inductive Signaler where
  | queue (p : PartId) (q : Nat)
  | host | xsrc | piste | fw | other
  deriving DecidableEq, Repr

/-- The signal mask of a configuration word lets the source in (R363, R366). -/
def Signaler.allowed (src : Signaler) (cfg : Nat) (global : Bool) : Bool :=
  match src with
  | .queue p q => q < 16 && cfg.testBit q && (!global || cfg.testBit (16 + p.val))
  | .host => cfg.testBit 20
  | .xsrc => cfg.testBit 21
  | .piste => global && cfg.testBit 22
  | .fw => cfg.testBit 23
  | .other => false

/-- A signal of an external class restarts the gate's external-silence allowance (R398). -/
def Signaler.external : Signaler → Bool
  | .queue _ _ => false
  | .other => false
  | _ => true

/-- A gate that nothing has created. -/
def Gate.none_ : Gate := ⟨0, 0, false, false, 0⟩

/-- The gate that `r` names from partition `p` (R361). -/
def State.gate (s : State) (p : PartId) (r : GateRef) : Gate :=
  if r.global then (if r.index < 256 then (s.eng.ggates.look r.index).getD .none_ else .none_)
  else (if r.index < 1024 then ((s.part p).gates.look r.index).getD .none_ else .none_)

/-- The gate takes a new state. -/
def State.setGate (s : State) (p : PartId) (r : GateRef) (x : Gate) : State :=
  let v := if x = .none_ then none else some x
  if r.global then { s with eng := { s.eng with ggates := s.eng.ggates.put r.index v } }
  else s.setPart p { s.part p with gates := (s.part p).gates.put r.index v }

def getGate (p : PartId) (r : GateRef) : M Gate := do return (← get).gate p r
def putGate (p : PartId) (r : GateRef) (x : Gate) : M Unit := modify fun s => s.setGate p r x

/-- A boundary request (R382 event 2), which no activation alone makes any longer (R390). -/
def requestBoundary (p : PartId) : M Unit := do
  wr (.pctl p) PCTL.BND_REQ 1
  modPart p fun x => { x with bndAct := false }

/-- Every change of a boundary gate's value sets BND_REQ while BND_EN is 1 (R382). -/
def boundaryWatch (p : PartId) (r : GateRef) : M Unit := do
  if !r.global && (← rd (.pctl p) PCTL.BND_EN) = 1 && (← rd (.pctl p) PCTL.BND_GATE) = r.index then requestBoundary p

/-- A gate after an increment: it stops at 2⁶⁴ − 1 and then enters its error state (R364). -/
def Gate.plus (g : Gate) (inc : Nat) (ext : Bool) : Gate :=
  let t := g.value + inc
  { g with
    value := min t (2 ^ 64 - 1)
    err := g.err || t > 2 ^ 64 - 1
    quiet := if ext then 0 else g.quiet }

/-- One signal, but for its waiters: `page` is the partition whose QMG page counts a refusal (R363). The answer is
ERR_NONE, ERR_GATE_ID or ERR_GATE_MASK. -/
def signalRaw (home page : PartId) (r : GateRef) (src : Signaler) (inc : Nat) : M Nat := do
  let g ← getGate home r
  if !g.valid then return Err.gateId
  else if !src.allowed g.cfg r.global then
    cnt (.qmg page) QMG.GT_REFUSED 1
    raise (.qmg page) 18
    return Err.gateMask
  else
    putGate home r (g.plus inc src.external)
    if g.value ≠ (g.plus inc src.external).value then boundaryWatch home r
    return Err.none

/-- The effective threshold of a GATE_WAIT (R215). -/
def waitThreshold (c : CmdWord) (seq : Nat) : Nat :=
  if gwRel c then (gwThreshold c + gwStride c * seq) % 2 ^ 64 else gwThreshold c

/-- The gate on which a tile is in GATE_WAIT. -/
def Tile.waitsOn (t : Tile) : Option GateRef :=
  (t.seq.sync.find? fun c => c.op = Op.gateWait && !c.begun).map fun c => gtRef c.bits

/-- Tiles in GATE_WAIT on a gate that `r` names from partition `p`. -/
def State.waiters (s : State) (p : PartId) (r : GateRef) : List TileId :=
  (if r.global then List.finRange 48 else tilesOf p).filter fun g => (s.tile g).waitsOn = some r

/-- The configuration word as GT_CFG reads it (R366). -/
def State.gateCfg (s : State) (p : PartId) (r : GateRef) : Nat :=
  let g := s.gate p r
  if g.valid then
    (g.cfg / 2 ^ 32) * 2 ^ 32 + 2 ^ 24 + b2n g.err * 2 ^ 25 + b2n (s.waiters p r ≠ []) * 2 ^ 26 + g.cfg % 2 ^ 24
  else 0

/-- A configuration word breaks R366. -/
def cfgBad (cfg : Nat) (global : Bool) : Bool :=
  bitsAt cfg 27 5 ≠ 0 || (!global && (bitsAt cfg 16 4 ≠ 0 || cfg.testBit 22))

/-- A gate as CREATE makes it (R367). VALID, ERR and WAITED of the operand are read only. -/
def newGate (cfg value : Nat) : Gate :=
  { value := value % 2 ^ 64, cfg := (cfg / 2 ^ 32) % 2 ^ 32 * 2 ^ 32 + cfg % 2 ^ 24, valid := true, err := false, quiet := 0 }

/-- What keeps DESTROY from taking a gate (R367). -/
def gateInUse (s : State) (p : PartId) (r : GateRef) : Bool :=
  (s.waiters p r ≠ []) ||
  (List.finRange 4).any fun q =>
    ((r.global || q = p) &&
      (List.range 16).any fun k =>
        s.reg (.qmg q) (QMG.Q_STANDING k) = 1 && s.reg (.qmg q) (QMG.STD_FGATE k) = r.index &&
          decide (s.reg (.qmg q) (QMG.STD_FGLOBAL k) = b2n r.global)) ||
    (!r.global && q = p && s.reg (.pctl q) PCTL.BND_EN = 1 && s.reg (.pctl q) PCTL.BND_GATE = r.index)

/-- ENG_ALERT_N is asserted (R469). -/
def alertLow (s : State) : Bool :=
  s.reg .pwr PWR.SRC_MARK = 1 || s.reg .pwr PWR.SRC_ORPHAN = 1 || s.reg .pwr PWR.SRC_PAIR_DOWN = 1 ||
    s.reg .pwr PWR.ALERT_FORCE = 1

/-- Alert sources change: an assertion from the released state counts and raises ALERT; the pin follows (R469). -/
def alertChange (m : M Unit) : M Unit := do
  let before := alertLow (← get)
  m
  let after := alertLow (← get)
  if !before && after then
    cnt .pwr PWR.ALERT_CNT 1
    raise .pwr 1
  wr .pwr PWR.ALERT_PIN (b2n after)

/-- An access of a partition control core or queue manager to a ring: partition memory or system memory (R368). -/
def pccTarget (v : Variant) (a : Nat) : Option Target :=
  match targetOf v 0 a with
  | some (.pmem q off) => some (.pmem q off)
  | some (.sys addr) => some (.sys addr)
  | _ => none

/-- A read by a core of partition `p` (class 4), checked by no region register (R260). -/
def pccRead (p : PartId) (who : Who) (a n : Nat) : M (List Byte) := do
  match pccTarget (← get).variant a with
  | some (.pmem q off) => do
    if off + n > (← get).variant.capacity then fail Err.addrRange
    checkOpen p q
    passAlone (memWay 4 (pathAt (tileAt p 0) 4) q (interleave (← get).variant off).1)
    mcReadOp q 4 off n [] [] false
  | some (.sys addr) => sysAccess who 4 ⟨p.val, by omega⟩ addr n none
  | _ => fail Err.addrRange

/-- The class of a core's requests: 7 for the engine manager core, 4 for a partition control core (R267). -/
def Who.coreClass : Who → Nat
  | .emc => 7
  | _ => 4

/-- The system port's own port for a core of partition `p`, or for the engine manager core (R309). -/
def Who.corePort (p : PartId) : Who → Fin 5
  | .emc => 4
  | _ => ⟨p.val, by omega⟩

/-- Partition `q` refuses the cores of other partitions and the engine manager core, unless it is in RUN (R411). -/
def checkCore (p : PartId) (who : Who) (q : PartId) : M Unit := do
  if who = .emc && !open_ (← get) q then fail Err.fenced
  checkOpen p q

/-- A write by a core of partition `p`, or by the engine manager core for it. -/
def pccWrite (p : PartId) (who : Who) (a : Nat) (bs : List Byte) : M Unit := do
  match pccTarget (← get).variant a with
  | some (.pmem q off) => do
    if off + bs.length > (← get).variant.capacity then fail Err.addrRange
    checkCore p who q
    passAlone (memWay 4 (pathAt (tileAt p 0) 4) q (interleave (← get).variant off).1)
    mcWriteOp q who.coreClass off bs [] []
  | some (.sys addr) => do let _ ← sysAccess who who.coreClass (who.corePort p) addr bs.length (some bs)
  | _ => fail Err.addrRange

/-- A write by the firmware whose acknowledgement nothing waits for: log and trace records of events. -/
def pccPost (p : PartId) (who : Who) (a : Nat) (bs : List Byte) : M Unit := attempt (pccWrite p who a bs)

end Sys2Proof.Machine
end

