-- ==== Sys2Proof/Machine/PisteTx.lean ====
section
/-! DEFINITION. Sending on Piste: which port carries a message, and what refuses or holds it (R340, R349, R357). -/
namespace Sys2Proof.Machine

/-! ### Port states of R353 -/
namespace PortState
def off : Nat := 0
def listen : Nat := 1
def joining : Nat := 2
def member : Nat := 3
def leaving : Nat := 4
def starDown : Nat := 5
end PortState

/-! ### Message types of R339 -/
namespace MsgType
def write : Nat := 0x01
def writeAck : Nat := 0x02
def read : Nat := 0x03
def readData : Nat := 0x04
def atomAdd : Nat := 0x05
def gateSig : Nat := 0x06
def heartbeat : Nat := 0x07
def fence : Nat := 0x08
def join : Nat := 0x09
def joinAck : Nat := 0x0A
def leave : Nat := 0x0B
def lapmap : Nat := 0x0C
end MsgType

/-- A message of type `t` belongs to a stream (R339). Unknown types take their place in one as well. -/
def sequenced (t : Nat) : Bool := (1 ≤ t && t ≤ 6) || t > 12

/-- How far `a` lies behind `b`, modulo 2¹⁶. -/
def seqBehind (a b : Nat) : Nat := (b + 65536 - a % 65536) % 65536

/-- The port is MEMBER and fitted. -/
def portMember (s : State) (n : PortId) : Bool :=
  n.val < s.variant.ports && s.reg (.link n) LINK.STATE = PortState.member

/-- The port that carries messages from partition `p` to station `d` (R357). -/
def portFor (s : State) (p : PartId) (d : Nat) : Option PortId :=
  if portMember s 0 && portMember s 1 then some (if (p.val + d) % 2 = 0 then 0 else 1)
  else if portMember s 0 then some 0
  else if portMember s 1 then some 1
  else none

/-- PST`n`_PRESENT_N is driven low: the port is fitted and its state is not OFF (R467, R468). -/
def presentLow (s : State) (n : PortId) : Bool :=
  n.val < s.variant.ports && s.reg (.link n) LINK.STATE ≠ PortState.off

/-- Station `d` is UP at port `n` (R355). -/
def stationUp (s : State) (n : PortId) (d : Nat) : Bool := d < 12 && (s.reg (.link n) LINK.UP).testBit d

/-- The epoch of the own partition `p` (R354, R412). -/
def ownEpoch (s : State) (p : PartId) : Nat := bitsAt (s.reg (.peer 0) PEER.OWN_PEPOCH) (12 * p.val) 12

/-- A sequenced message of partition `p` for station `d` is queued at its port (R340). -/
def enqueue (n : PortId) (p : PartId) (d : Nat) (m : Msg) (origin : MsgOrigin) : M Unit := do
  let e := ownEpoch (← get) p
  modPort n fun x => { x with
    tx := x.tx ++ [{ dst := d, part := p, epoch := e, msg := m, seq := none, age := 0, resend := false, origin }] }

/-- The port accepts a sequenced message of partition `p` for station `d`: not while no port is MEMBER or the station
is not UP, and not yet while 1,024 messages to it are unacknowledged (R340, R349). -/
def pisteSend (p : PartId) (d : Nat) (m : Msg) (origin : MsgOrigin) : M Unit := do
  let s ← get
  match portFor s p d with
  | none => fail Err.pstPeerDown
  | some n =>
    if !stationUp s n d then fail Err.pstPeerDown
    else if ((s.port n).tx.filter fun t => t.dst = d).length ≥ 1024 then wait
    else enqueue n p d m origin

/-- A message of a type with its destination, argument and data; SEQ and OSEQ come with its frame. -/
def mkMsg (type dst : Nat) (dpart : PartId) (arg : Nat) (data : List Byte) : Msg :=
  { type, dst, dpart, moved := false, last := false, seq := 0, oseq := 0, arg := BitVec.ofNat 64 arg, data }

end Sys2Proof.Machine
end

