-- ==== Sys2Proof/Machine/SpdRows.lean ====
section
/-! DEFINITION. The commands of the scratchpad and of accesses from outside a tile: SPD_READ, SPD_WRITE,
SPD_ECC_WRITEBACK, SPD_SCRUB, BANK_WAKE_DONE, PEER_ACCESS, APERTURE_ACCESS (R39, R133, R250 to R269, R385, R414). -/
namespace Sys2Proof.Machine

/-- The response to an access command: data, or the ERR_ code of its refusal. A wait leaves no response. -/
def respond (m : M (List Byte)) : M Unit := do
  match ← catchErr m with
  | .ok bs => modify fun s => { s with resp := ⟨Err.none, bs, false⟩ }
  | .error c => modify fun s => { s with resp := ⟨c, [], false⟩ }

/-- The response of an access: its data and its ERR_ code. -/
def respondWith (bs : List Byte) (code : Nat) : M Unit := modify fun s => { s with resp := ⟨code, bs, false⟩ }

/-- A decode error response on the SoC fabric (R15). -/
def respondDecode : M Unit := modify fun s => { s with resp := ⟨Err.none, [], true⟩ }

def accessSize : Access → Nat
  | .read n => n
  | .write bs => bs.length

/-- What a read completed without data returns: nothing for a write, zeros for a read. -/
def accessZeros : Access → List Byte
  | .read n => List.replicate n 0
  | .write _ => []

/-- A word of a scratchpad meets upsets: the bank reads what is stored after them. -/
def spdUpset (g : TileId) (addr : Nat) (flips : List Flip) : M Unit :=
  if flips = [] then pure () else modSpd g fun x => x.flip (addr / 128) flips

/-- A request of class `cls` (8: a peer tile, checked at its own tile) for one word: range, region check and bank state,
then the arbiters on its way and the bank's (R251, R260, R262, R264, R268). -/
def spdWord (g : TileId) (cls addr : Nat) (acc : Access) (path : Path) (rivals : List Rival) (flips : List Flip) :
    M (List Byte) := do
  let n := accessSize acc
  if addr + n > 0x400000 then spdRefuse g Err.addrRange cls 3 addr
  let perm := match acc with | .read _ => Perm.r | .write _ => Perm.w
  if cls ≤ 6 && !regionOk ((← get).bank (.tile g .spd)) cls perm addr n then spdRefuse g Err.region cls 0 addr
  bankReady g cls addr
  spdUpset g addr flips
  let count ← passArbiters path.others (spdWay cls { path with part := partOf g }) 0
  bankAccess g cls addr count acc rivals

/-- What one word of an access answers: its ERR_ code and bytes, or nothing where a waking bank holds it (R252, R264). -/
def tryWord (m : M (List Byte)) : M (Option (Nat × List Byte)) := fun s =>
  match m s with
  | .ok bs s' => .ok (some (Err.none, bs)) s'
  | .error (.err c) s' => .ok (some (c, [])) s'
  | .error .wait _ => .ok none s

/-- The answer of an access all of whose words have answered: the first refusal, or the bytes in order (R252). -/
def wholeAnswer (l : List (Option (Nat × List Byte))) : Option (Nat × List Byte) :=
  if l.any Option.isNone then none
  else
    match (l.filterMap id).find? fun r => r.1 ≠ Err.none with
    | some r => some (r.1, [])
    | none => some (Err.none, (l.filterMap id).flatMap Prod.snd)

/-- The response to an access by class `cls`; a refused host access completes without an error response and with `zeros`
(R39). -/
def respondAnswer (cls : Nat) (zeros : List Byte) (r : Nat × List Byte) : M Unit :=
  respondWith (if r.1 = Err.none then r.2 else if cls = 5 then zeros else [])
    (if cls = 5 then Err.none else r.1)

/-- An access whose words have given `got`: its response, or its place among the accesses that waking banks hold, for which
it has come by the fabric's port `port` (R264, R268). -/
def heldOrAnswered (g : TileId) (h : HeldAccess) (got : List (Option (Nat × List Byte))) : M Unit :=
  match wholeAnswer got with
  | some r => respondAnswer h.cls (accessZeros h.acc) r
  | none => modSpd g fun x => { x with waiting := x.waiting ++ [{ h with got }] }

/-- An access of class `cls` to tile `g` by its words, each checked and carried out, or held (R252, R262, R264). -/
def heldAccess (g : TileId) (port cls addr : Nat) (acc : Access) (word : Nat × Nat → M (List Byte)) : M Unit := do
  let got ← mapAll (wordPieces addr (accessSize acc)) fun p => tryWord (word p)
  heldOrAnswered g ⟨cls, addr, acc, port, 0, [], false⟩ got

/-- The port by which an access of class `cls` comes to the last fabric on its way to a tile; 15 where it passes none. -/
def fabricPort (cls : Nat) (path : Path) : Nat := (((spdWay cls path).map Arbiter.port).getLast?).getD 15

/-- A scratchpad access with its response, one request per word (R252); rivals and upsets meet the first. The engine manager
core and Piste reach a partition only in RUN (R411). -/
def spdRequest (g : TileId) (src : Origin) (addr : Nat) (acc : Access) (rivals : List Rival) (flips : List Flip) :
    M Unit := do
  if (src.cls = 6 || src.cls = 7) && !open_ (← get) (partOf g) then respondWith [] Err.fenced
  else
    heldAccess g (fabricPort src.cls { src.path with part := partOf g }) src.cls addr acc fun p =>
      spdWord g src.cls (addr + p.1) (accPiece p acc) src.path (if p.1 = 0 then rivals else [])
        (if p.1 = 0 then flips else [])

/-- SPD_READ (R254). -/
def execSpdRead (g : TileId) (src : Origin) (addr len : Nat) (rivals : List Rival) (flips : List Flip) (s : State) :
    Host.Outcome State Fault Refusal :=
  M.next (spdRequest g src addr (.read len) rivals flips) s

/-- SPD_WRITE (R252). -/
def execSpdWrite (g : TileId) (src : Origin) (addr : Nat) (bytes : List Byte) (rivals : List Rival) (flips : List Flip)
    (s : State) : Host.Outcome State Fault Refusal :=
  M.next (spdRequest g src addr (.write bytes) rivals flips) s

/-- SPD_ECC_WRITEBACK (R255). -/
def execSpdEccWriteback (g : TileId) (flips : List Flip) (s : State) : Host.Outcome State Fault Refusal :=
  M.next (spdWritebackOp g flips) s

/-- SPD_SCRUB (R258). -/
def execSpdScrub (g : TileId) (flips : List Flip) (s : State) : Host.Outcome State Fault Refusal :=
  M.next (spdScrubOp g flips) s

/-! ### What a DRAIN reads at its release (R161, R163) -/

/-- The CNV's reads of a DRAIN's descriptor and records. -/
def latchReq (g : TileId) : Req := ⟨g, 2, 2, true, false, .tile g 1⟩

/-- Where the DRAIN's latch reads next: address and length, within one word; nothing once it is full. -/
def latchNext (l : Option DrainLatch) (c : CmdWord) : Option (Nat × Nat) :=
  match l with
  | none => some (drDesc c, 64)
  | some l =>
    if l.full then none
    else
      let a := Conv.param l.desc + l.params.length
      some (a, min (128 - a % 128) (recordBytes l.desc - l.params.length))

/-- The latch after a read of `n` bytes that gave `r`: the descriptor first and, where it is sound, its records word by
word. A record that cannot be read leaves its code. -/
def latchTakes (l : Option DrainLatch) (n : Nat) (r : Except Nat (List Byte)) : DrainLatch :=
  match l, r with
  | none, .ok bs =>
    let d := leNat bs
    ⟨d, [], Err.none, convErr d ≠ none || recordBytes d = 0⟩
  | none, .error code => ⟨0, [], code, true⟩
  | some l, r =>
    let (bs, code) := match r with | .ok bs => (bs, Err.none) | .error code => (List.replicate n 0, code)
    { l with
      params := l.params ++ bs
      err := if l.err = Err.none then code else l.err
      full := recordBytes l.desc ≤ l.params.length + n }

/-- One read of the latch; false where it is full, or where a waking bank holds the read, which then waits there. -/
def latchStep (g : TileId) (c : Active) : M Bool := fun s =>
  let l := (s.tile g).units.latched.look c.num
  match latchNext l c.bits with
  | none => .ok false s
  | some (a, n) =>
    match catchErr ((latchReq g).readPiece .r a n) s with
    | .ok r s' =>
      .ok true (s'.setTile g { s'.tile g with
        units := { (s'.tile g).units with latched := (s'.tile g).units.latched.put c.num (some (latchTakes l n r)) } })
    | .error _ _ =>
      let x := (s.tile g).spd
      let held : HeldAccess := ⟨2, a, .read n, 15, 0, [], true⟩
      .ok false (if x.waiting.any fun h => h.latch && h.addr = a then s
        else s.setTile g { s.tile g with spd := { x with waiting := x.waiting ++ [held] } })

/-- A released DRAIN reads its descriptor and records, as far as its banks are awake. -/
def latchDrain (g : TileId) (c : Active) : M Unit := do
  if c.op = Op.drain && c.released then repeatM 10 (latchStep g c)

/-- The state that a woken bank takes: ON, or RETENTION where the swap asked for that (R265). -/
def bankAfterWake (s : State) (g : TileId) (b : Nat) : Nat :=
  let want := s.reg (.tile g .spd) (SPD.BANK_PWR b).active
  if want = 1 then 1 else if want = 2 then 2 else 0

/-- A word of a held access, which was checked when it was accepted (R262), at its bank. -/
def heldWord (g : TileId) (h : HeldAccess) (p : Nat × Nat) : M (List Byte) := do
  bankReady g h.cls (h.addr + p.1)
  let count ← passArbiters [] (spdWay h.cls (pathAt g h.cls)) 0
  bankAccess g h.cls (h.addr + p.1) count (accPiece p h.acc) []

/-- The held accesses try again, in the order of their arrival, those of their words that have not answered (R264). -/
def spdRelease (g : TileId) : M Unit := do
  let l := (← getTile g).spd.waiting
  modSpd g fun x => { x with waiting := [] }
  forAll l fun h => do
    if h.latch then forAll (← getTile g).units.cnv (latchDrain g)
    else
      let got ← mapAll ((wordPieces h.addr (accessSize h.acc)).zip h.got) fun e =>
        match e.2 with
        | some r => return some r
        | none => tryWord (heldWord g h e.1)
      heldOrAnswered g h got

/-- BANK_WAKE_DONE (R265): a waking bank reaches the state that its active SPD_BANK_PWR asks for. -/
def execBankWakeDone (g : TileId) (bank : Fin 16) (s : State) : Host.Outcome State Fault Refusal :=
  M.next (do
    if bankStat (← get) g bank.val = 3 then
      wr (.tile g .spd) (SPD.BANK_STAT bank.val) (bankAfterWake (← get) g bank.val)
      spdRelease g) s

/-- PEER_ACCESS (R133): an access of the master of class `cls` at tile `src`; one of another tile of the partition
reaches `g` by its peer address and is class 8 there. -/
def peerReq (g : TileId) (cls : Nat) (src : TileId) (addr : Nat) : Req × Nat :=
  if src = g then (⟨g, cls, cls, false, true, .fw (partOf g)⟩, addr)
  else (⟨src, cls, cls, false, true, .fw (partOf g)⟩, 0x100000000 + localOf g * 0x1000000 + addr)

/-- One word of an access of a master at its request. -/
def Req.word (r : Req) (a : Nat) (acc : Access) (p : Nat × Nat) : M (List Byte) :=
  match accPiece p acc with
  | .read n => r.readPiece .r (a + p.1) n
  | .write bs => do
    r.writePiece (a + p.1) bs
    return []

/-- PEER_ACCESS (R133, R260): tiles of different partitions have no peer address of one another. -/
def peerOp (g : TileId) (cls : Nat) (src : TileId) (addr : Nat) (acc : Access) : M Unit :=
  if partOf src = partOf g ∧ addr < 0x1000000 then
    let r := peerReq g cls src addr
    heldAccess g (if src = g then 15 else fabricPort 8 (pathAt src cls)) (if src = g then cls else 8) addr acc
      (r.1.word r.2 acc)
  else respond (spdRefuse src Err.addrRange cls 3 addr)

/-- PEER_ACCESS. -/
def execPeerAccess (g : TileId) (cls : Nat) (src : TileId) (addr : Nat) (acc : Access) (s : State) :
    Host.Outcome State Fault Refusal :=
  M.next (peerOp g cls src addr acc) s

/-- A host access through partition `p`'s aperture, at the tile that HWIN_SEL names (R39). In FAILED and OFF, which R414's
table does not name, the access completes as in RESET and RETRAIN: zeros, and no write (DESIGN CHOICE, log entry 138). -/
def apertureOp (p : PartId) (off : Nat) (acc : Access) : M Unit := do
  let sel ← rd (.pctl p) PCTL.HWIN_SEL
  if h : sel < 12 then
    let g := tileAt p ⟨sel, h⟩
    let go : M Unit := heldAccess g (fabricPort 5 (pathAt g 5)) 5 off acc
      (Req.word ⟨g, 5, 5, false, true, .fw p⟩ off acc)
    let zeros : M Unit := modify fun s => { s with resp := ⟨Err.none, accessZeros acc, false⟩ }
    let st ← rd .dlw (DLW.STATE p.val)
    if (← rd .pwr (PWR.TILE_GATED p.val)).testBit sel then zeros
    else if st = 0 ∨ st = 6 then go
    else if st = 1 ∨ st = 2 then
      match acc with
      | .read _ =>
        let s ← get
        modify fun _ => { s with resp := (go.after s).resp }
      | .write _ => zeros
    else zeros
  else modify fun s => { s with resp := ⟨Err.none, accessZeros acc, false⟩ }

/-- R15: naturally aligned 32-bit and 64-bit accesses only. -/
def wellSized (addr size : Nat) : Bool := (size = 4 ∨ size = 8) ∧ addr % size = 0

/-- APERTURE_ACCESS (R39, R385, R414, R461): aperture offsets end at 0x4F_FFFF. -/
def execApertureAccess (p : PartId) (off size : Nat) (acc : Access) (s : State) :
    Host.Outcome State Fault Refusal :=
  M.next (if !wellSized off size || (accessSize acc) ≠ size || off ≥ 0x500000 then respondDecode else apertureOp p off acc) s

end Sys2Proof.Machine
end

