-- ==== Sys2Proof/Machine/Seq.lean ====
section
/-! DEFINITION. The sequencer: fetch, acceptance, the synchronising commands, completion and errors of commands, the end
of a list (R185 to R195, R214 to R220, R373, R392). -/
namespace Sys2Proof.Machine

/-! ### TL_STATE (R221) -/
namespace TlState
def idle : Nat := 0
def run : Nat := 1
def gateWait : Nat := 2
def fenceWait : Nat := 3
def stopping : Nat := 4
def stopped : Nat := 5
end TlState

def tlState (s : State) (g : TileId) : Nat := s.reg (.tile g .tl) TL.STATE

/-- The tile is between jobs (R372). -/
def betweenJobs (s : State) (g : TileId) : Bool := tlState s g = TlState.idle || tlState s g = TlState.stopped

def modUnits (g : TileId) (f : Units → Units) : M Unit := modTile g fun t => { t with units := f t.units }
def modSeq (g : TileId) (f : Seqr → Seqr) : M Unit := modTile g fun t => { t with seq := f t.seq }

def Units.queue (u : Units) : UnitId → List Active
  | .array => u.array
  | .cnv => u.cnv
  | .lift => u.lift
  | .seq => []

def Units.setQueue (u : Units) (k : UnitId) (l : List Active) : Units :=
  match k with
  | .array => { u with array := l }
  | .cnv => { u with cnv := l }
  | .lift => { u with lift := l }
  | .seq => u

/-- The command that a unit runs or will run next. -/
def Tile.head (t : Tile) (k : UnitId) : Option Active := (t.units.queue k).head?

/-- The head command of a unit is changed. -/
def modHead (g : TileId) (k : UnitId) (f : Active → Active) : M Unit :=
  modUnits g fun u => u.setQueue k (match u.queue k with | [] => [] | c :: t => f c :: t)

/-- Status flags join the head command's status (R195). -/
def flagHead (g : TileId) (k : UnitId) (fl : Nat) : M Unit := modHead g k fun c => { c with flags := c.flags ||| fl }

/-- TL_JOB_FLAGS takes in status flags (R195). -/
def orJobFlags (g : TileId) (fl : Nat) : M Unit := do
  let pg : PageId := .tile g .tl
  if fl.testBit 0 then wr pg TL.ACC_SAT 1
  if fl.testBit 1 then wr pg TL.LONG_K 1
  if fl.testBit 2 then wr pg TL.S_MIX 1
  if fl.testBit 3 then wr pg TL.CLIP 1

/-- Commands that nothing holds pass their hold, and each DRAIN among them reads its descriptor and records (R132, R147,
R161, R163). -/
def releaseOp (g : TileId) : M Unit := do
  modTile g Tile.releaseHolds
  forAll (← getTile g).units.cnv (latchDrain g)

/-- STOPPING ends when every command that was accepted has ended (R193). -/
def stoppingEnds (g : TileId) : M Unit := do
  let t ← getTile g
  if tlState (← get) g = TlState.stopping && t.cmds = [] && t.seq.sync = [] then wr (.tile g .tl) TL.STATE TlState.stopped

/-- What follows any change of a tile's units: holds, held book and LUT writes, and the end of STOPPING (R82, R87, R132,
R193). -/
def settleUnits (g : TileId) : M Unit := do
  releaseOp g
  modTile g fun t => t.releaseBooks.releaseLuts
  stoppingEnds g

/-- A command has completed: its count, interrupt and status flags (R187, R195). -/
def completed (g : TileId) (c : Active) : M Unit := do
  cnt (.tile g .tl) TL.TL_CMD_CNT 1
  if irqOf c.bits then raise (.tile g .tl) 0
  orJobFlags g c.flags

/-- The first error of a list is recorded (R193, R479); the page's record carries TL_ERR_PC (R477). -/
def recordError (g : TileId) (pc : Nat) (bits : CmdWord) (code : Nat) : M Unit := do
  let pg : PageId := .tile g .tl
  if (← rd pg TL.CMD_ERR) = Err.none then
    wr pg TL.CMD_ERR code
    wr pg TL.ERR_OP (opOf bits)
    wr pg TL.TL_ERR_PC pc
    forAll (List.range 4) fun w => wr (.tile g .dbg) (DBG.ERR_CMD w) (bitsAt bits.toNat (32 * w) 32)
  raise pg 1
  logErr pg code 0 0 (← rd pg TL.TL_ERR_PC)

/-- The sequencer accepts nothing more, and what it has read and not accepted is discarded. Of the synchronising commands
it keeps a GATE_SIGNAL or MARK that it had accepted before command `n`, which runs on as the units' commands do; one after
it is a later command of the list and does not run (R193). -/
def stopSequencer (g : TileId) (n : Nat) : M Unit := do
  modSeq g fun q => { q with
    fetchPc := none
    ahead := []
    sync := q.sync.filter fun c => c.num < n && (c.op = Op.gateSignal || c.op = Op.mark) }
  disown (.tile g 5) (partOf g)
  if !(← getTile g).seq.sync.any fun c => c.op = Op.mark then disown (.tile g 6) (partOf g)
  wr (.tile g .tl) TL.STATE TlState.stopping
  settleUnits g

/-- The sequencer works on a list: RUN, GATE_WAIT or FENCE_WAIT. -/
def listRuns (s : State) (g : TileId) : Bool :=
  let t := tlState s g
  t = TlState.run || t = TlState.gateWait || t = TlState.fenceWait

/-- Every command before number `n` on the units that bit mask `m` names has completed (R218). -/
def unitsDone (t : Tile) (m n : Nat) : Bool :=
  let past (l : List Active) : Bool := l.all fun d => n ≤ d.num
  (!m.testBit 0 || past t.units.array) && (!m.testBit 1 || past t.units.cnv) && (!m.testBit 2 || past t.units.lift)

/-- Every command before number `n` of the list has completed, on every unit (R217, R219). -/
def earlierDone (t : Tile) (n : Nat) : Bool := unitsDone t 7 n && t.seq.sync.all fun d => n ≤ d.num

/-- The trace ring is full: TR_HEAD − TR_TAIL has reached 2^TR_LOG2 (R392). -/
def traceFull (s : State) (p : PartId) : Bool :=
  let r := fun f => s.reg (.pctl p) f
  2 ^ r PCTL.TR_LOG2 ≤ (r PCTL.TR_HEAD + 2 ^ 32 - r PCTL.TR_TAIL) % 2 ^ 32

/-- A MARK waits for trace ring space in HOLD mode (R392). -/
def markWaits (s : State) (g : TileId) (c : Active) : Bool :=
  let p := partOf g
  c.op = Op.mark && s.reg (.pctl p) PCTL.TR_MODE = 1 && traceFull s p && !c.begun &&
    (!mkAfter c.bits || earlierDone (s.tile g) c.num)

/-- Another tile of the job has stopped with an error: this tile accepts nothing more, and a GATE_WAIT, a FENCE or a
MARK that waits for trace ring space ends with ERR_JOB_ABORT (R373), the MARK of a tile that is STOPPING among them. -/
def abortTile (g : TileId) : M Unit := do
  let s ← get
  if listRuns s g || tlState s g = TlState.stopping then
    let ends (c : Active) : Bool := ((c.op = Op.gateWait || c.op = Op.fence) && !c.begun) || markWaits s g c
    forAll ((s.tile g).seq.sync.filter ends) fun c => recordError g c.pc c.bits Err.jobAbort
    modSeq g fun q => { q with sync := q.sync.filter fun c => !ends c }
    stopSequencer g (s.tile g).seq.accepted

/-- A tile has stopped with an error: the first error of its job gives the job's status, and the job's other tiles are
stopped (R373). -/
def jobFailed (g : TileId) (code : Nat) : M Unit := do
  let p := partOf g
  match (← getTile g).job with
  | none => pure ()
  | some tj =>
    if (← getPart p).jobs.any fun j => j.id = tj.id && j.status = Err.none then
      modPart p fun x => { x with
        jobs := x.jobs.map fun j => if j.id = tj.id then { j with status := code, errTile := localOf g } else j }
      forAll ((tilesOf p).filter fun h => h ≠ g) fun h => do
        if ((← getTile h).job).any fun k => k.id = tj.id then abortTile h

/-- Command `n` of the list, in the order of acceptance, ends with an error (R193, R373). -/
def failed (g : TileId) (n pc : Nat) (bits : CmdWord) (code : Nat) : M Unit := do
  recordError g pc bits code
  stopSequencer g n
  jobFailed g code

/-- The number that tells a unit's requests apart at the system port. -/
def UnitId.num : UnitId → Nat
  | .array => 0
  | .cnv => 1
  | .lift => 2
  | .seq => 3

/-- What a unit has of its head command besides its place in the queue. -/
def Units.clearRun (u : Units) : UnitId → Units
  | .array => { u with arrayRun := none }
  | .cnv => { u with drain := none }
  | .lift => { u with copy := none }
  | .seq => u

/-- Only DRAINs that the CNV still holds have a latch. -/
def Units.prune (u : Units) : Units :=
  { u with latched := u.latched.filter fun e => u.cnv.any fun c => c.num = e.1 }

/-- The head command of a unit has completed. -/
def finishHead (g : TileId) (k : UnitId) : M Unit := do
  match (← getTile g).head k with
  | none => pure ()
  | some c =>
    modUnits g fun u => ((u.clearRun k).setQueue k (u.queue k).tail).prune
    disown (.tile g k.num) (partOf g)
    completed g c
    settleUnits g

/-- The head command of a unit ends with an error; commands accepted behind it on its unit do not run (R190, R193). Rows
of the array that a clean compare has handed to promotion and that are not promoted yet are dropped with it: R115 keeps
only row r from promotion and R146 says that completed promotions stay applied, but not what becomes of accepted ones
(DESIGN CHOICE, log entry 130). -/
def failHead (g : TileId) (k : UnitId) (code : Nat) : M Unit := do
  match (← getTile g).head k with
  | none => pure ()
  | some c =>
    modUnits g fun u => ((u.clearRun k).setQueue k []).prune
    disown (.tile g k.num) (partOf g)
    orJobFlags g c.flags
    failed g c.num c.pc c.bits code

/-- One micro-operation of a unit's head command: a wait leaves only its request at the system port, an ERR_ code ends
the command. -/
def unitStep (g : TileId) (k : UnitId) (m : M Unit) : M Unit := do
  match ← catchErr (settle m) with
  | .ok _ => pure ()
  | .error code => failHead g k code

/-! ### Synchronising commands -/

/-- TL_STATE while the list runs: GATE_WAIT or FENCE_WAIT while such a command's condition does not hold, else RUN (R215,
R218, R221). -/
def syncState (l : List Active) : Nat :=
  let waits (op : Nat) : Bool := l.any fun c => c.op = op && !c.begun
  if waits Op.gateWait then TlState.gateWait else if waits Op.fence then TlState.fenceWait else TlState.run

/-- The synchronising commands at the head that have done what they have to complete, in acceptance order (R190). -/
def completeSync (g : TileId) : M Unit := do
  repeatM 2 (do
    match (← getTile g).seq.sync with
    | [] => return false
    | c :: rest =>
      if c.begun then
        modSeq g fun q => { q with sync := rest }
        completed g c
      return c.begun)
  if listRuns (← get) g then wr (.tile g .tl) TL.STATE (syncState (← getTile g).seq.sync)
  stoppingEnds g

/-- Synchronising command `n` has done what it has to: it completes once those before it have (R190). -/
def finishSync (g : TileId) (n : Nat) : M Unit := do
  modSeq g fun q => { q with sync := q.sync.map fun c => if c.num = n then { c with begun := true } else c }
  completeSync g

/-- A GATE_WAIT tests its gate (R215, R365). -/
def testWait (g : TileId) : M Unit := do
  match (← getTile g).seq.sync.find? fun c => c.op = Op.gateWait && !c.begun with
  | none => pure ()
  | some c =>
    let x ← getGate (partOf g) (gtRef c.bits)
    let n ← rd (.tile g .tl) TL.TL_JOB_SEQ
    if !x.valid then failed g c.num c.pc c.bits Err.gateId
    else if x.err then failed g c.num c.pc c.bits Err.gateError
    else if waitThreshold c.bits n ≤ x.value then finishSync g c.num

/-- Every GATE_WAIT on a gate tests again (R364). -/
def retest (home : PartId) (r : GateRef) : M Unit := do
  forAll ((← get).waiters home r) testWait

/-- A signal to a gate, with the tests that follow it (R362 to R364). -/
def signalGate (home page : PartId) (r : GateRef) (src : Signaler) (inc : Nat) : M Nat := do
  let code ← signalRaw home page r src inc
  if code = Err.none then retest home r
  return code

/-- A gate enters its error state; it must exist (R365). -/
def gateError (home : PartId) (r : GateRef) : M Unit := do
  let x ← getGate home r
  if x.valid then
    putGate home r { x with err := true }
    retest home r

/-- The moment at which a gate becomes WAITED restarts its allowance (R398). -/
def enterWait (g : TileId) (r : GateRef) : M Unit := do
  let p := partOf g
  if (← get).waiters p r = [g] then
    let x ← getGate p r
    if x.valid then putGate p r { x with quiet := 0 }

/-- The partition replays a suspect (R418). -/
def replaying (p : PartId) : M Bool := do return (← getPart p).replaying.isSome

/-- The adding of GATE_SIGNAL, local or remote (R217, R349, R418). No global gate has an index above 255 (R361). -/
def gateSignalEffect (g : TileId) (c : Active) : M Unit := do
  let p := partOf g
  let r := gtRef c.bits
  if (← replaying p) && (r.global || gsRemote c.bits) then cnt .dlw DLW.REPLAY_SUPPRESS 1
  else if gsRemote c.bits then
    if r.index > 255 then fail Err.gateId
    pisteSend p (gsStn c.bits) (mkMsg MsgType.gateSig (gsStn c.bits) p (r.index + gsInc c.bits * 256) []) (.tile g)
  else
    let q := match (← getTile g).job with | some j => j.queue | none => 16
    let code ← signalGate p p r (.queue p q) (gsInc c.bits)
    if code ≠ Err.none then fail code

/-- Ring entry `n` of a ring of 2^`log2` entries of `size` bytes (R368). -/
def ringAddr (base log2 size n : Nat) : Nat := base * 64 + n % 2 ^ log2 * size

/-- Both bases hold bits [39:6]. -/
def trAddr (s : State) (p : PartId) : Nat :=
  ringAddr (s.reg (.pctl p) PCTL.TR_BASE) (s.reg (.pctl p) PCTL.TR_LOG2) 32 (s.reg (.pctl p) PCTL.TR_HEAD)

/-- A trace record has been written: TR_HEAD, and TR_LOST where it passed TR_TAIL (R392). -/
def traceAdvance (p : PartId) : M Unit := do
  if traceFull (← get) p then cnt (.pctl p) PCTL.TR_LOST 1
  wr (.pctl p) PCTL.TR_HEAD ((← rd (.pctl p) PCTL.TR_HEAD) + 1)

/-- A trace record of 32 bytes (R392). -/
def traceRecord (id who part : Nat) (fw alert : Bool) (queue value oc seq index : Nat) : List Byte :=
  leBytes 4 id ++ leBytes 4 (who + part * 16 + b2n fw * 64 + b2n alert * 128 + queue * 256) ++
  leBytes 8 value ++ leBytes 8 oc ++ leBytes 4 seq ++ leBytes 4 index

/-- The job whose descriptor a tile runs, as its records name it: queue and DESC_INDEX. -/
def jobOf (t : Tile) : Nat × Nat := match t.job with | some j => (j.queue, j.index) | none => (0, 0)

/-- MARK writes its trace record; in HOLD mode it waits while the ring is full (R219, R392). A record whose write is
refused counts as written: the head advances, and with ALERT = 1 the pin is asserted (DESIGN CHOICE, log entries 73 and
131; R219 speaks only of a record that is written). -/
def markEffect (g : TileId) (c : Active) : M Unit := do
  let p := partOf g
  if (← rd (.pctl p) PCTL.TR_MODE) = 1 && traceFull (← get) p then wait
  let (q, ix) := jobOf (← getTile g)
  let rec_ := traceRecord (mkId c.bits) (localOf g) p.val false (mkAlert c.bits) q (mkValue c.bits)
    (← rd (.pctl p) PCTL.OC_NOW) (← rd (.tile g .tl) TL.TL_JOB_SEQ) ix
  match ← catchErr (pccWrite p (.tile g 6) (trAddr (← get) p) rec_) with
  | _ => pure ()
  traceAdvance p
  if mkAlert c.bits then alertChange (wr .pwr PWR.SRC_MARK 1)

/-- A full ring in HOLD mode raises TR_FULL (R395). -/
def markHeld (g : TileId) : M Unit := do
  let p := partOf g
  if (← rd (.pctl p) PCTL.TR_MODE) = 1 && traceFull (← get) p then raise (.pctl p) 2

/-- A synchronising command does what it has to, where its condition holds (R215 to R219). -/
def trySync (g : TileId) (c : Active) : M Unit := do
  let t ← getTile g
  if c.op = Op.gateWait then testWait g
  else if c.op = Op.fence then
    if unitsDone t (fnUnits c.bits) c.num then finishSync g c.num
  else if c.op = Op.gateSignal then
    if earlierDone t c.num then
      attempt (do
        match ← catchErr (settle (gateSignalEffect g c)) with
        | .ok _ => finishSync g c.num
        | .error code => failed g c.num c.pc c.bits code)
  else if !mkAfter c.bits || earlierDone t c.num then
    markHeld g
    attempt (do
      settle (markEffect g c)
      finishSync g c.num)

/-- The first synchronising command that meets `p` and has not done what it has to tries again. -/
def syncOp (g : TileId) (p : Active → Bool) : M Unit := do
  match (← getTile g).seq.sync.find? fun c => !c.begun && p c with
  | some c => trySync g c
  | none => pure ()

/-! ### Fetch and acceptance -/

/-- The read of one command: a lift-engine access with execute permission, in scratchpad or partition memory (R185). -/
def fetchRead (g : TileId) (pc : Nat) : M CmdWord := do
  let r := ownReq g 3 5
  let ok := match targetOf (← get).variant g pc with
    | some (.here .spd _) => true
    | some (.pmem _ _) => true
    | none => true
    | _ => false
  if !ok then fail Err.addrRange
  return BitVec.ofNat 128 (leNat (← r.readPiece .x pc 16))

/-- The sequencer reads the next command, once, up to 8 ahead of the one it accepts, and none beyond LAST (R185, R186,
R194); not while a switch list runs (R270, R274). A command that could not be read has no opcode: its ERR_OP is 0 (DESIGN
CHOICE, log entry 165; R221 gives the opcode of the command that ended). -/
def fetchOp (g : TileId) : M Unit := do
  let t ← getTile g
  match t.seq.fetchPc with
  | none => pure ()
  | some pc =>
    if !listRuns (← get) g || t.seq.ahead.length ≥ 9 || t.units.switch.isSome then pure ()
    else
      match ← catchErr (settle (fetchRead g pc)) with
      | .ok w =>
        modSeq g fun q => { q with
          ahead := q.ahead ++ [⟨pc, w, Err.none⟩]
          fetchPc := if lastOf w then none else some ((pc + 16) % 2 ^ 40) }
      | .error code => modSeq g fun q => { q with ahead := q.ahead ++ [⟨pc, 0, code⟩], fetchPc := none }

/-- The command joins its unit or the synchronising commands; NOP completes (R188, R220). -/
def startCmd (g : TileId) (k : UnitId) (c : Active) : M Unit := do
  match k with
  | .seq =>
    if c.op = Op.nop then completed g c
    else
      modSeq g fun q => { q with sync := q.sync ++ [c] }
      wr (.tile g .tl) TL.STATE (syncState (← getTile g).seq.sync)
      if c.op = Op.gateWait then enterWait g (gtRef c.bits)
      trySync g c
  | k =>
    modUnits g fun u => u.setQueue k (u.queue k ++ [c])
    settleUnits g

/-- The commands that a unit or the sequencer holds (R189). -/
def Tile.accepted (t : Tile) : UnitId → List Active
  | .seq => t.seq.sync
  | k => t.units.queue k

/-- The command at the head is checked and accepted, when its unit holds fewer than two; not while a GATE_WAIT, a FENCE or
a MARK in HOLD mode waits (R189, R192, R215, R218, R392). -/
def acceptOp (g : TileId) : M Unit := do
  let s ← get
  let t := s.tile g
  if tlState s g ≠ TlState.run || t.seq.sync.any (markWaits s g) then pure ()
  else
    match t.seq.ahead with
    | [] => pure ()
    | f :: rest =>
      if f.err ≠ Err.none then failed g t.seq.accepted f.pc f.bits f.err
      else
        match acceptErr f.bits with
        | some code => failed g t.seq.accepted f.pc f.bits code
        | none =>
          match unitOf (opOf f.bits) with
          | none => pure ()
          | some k =>
            if (t.accepted k).length ≥ 2 then pure ()
            else
              modSeq g fun q => { q with ahead := rest, accepted := q.accepted + 1, ended := lastOf f.bits }
              wr (.tile g .tl) TL.TL_PC ((f.pc + 16) % 2 ^ 40)
              startCmd g k ⟨f.pc, f.bits, t.seq.accepted, buffersOf f.bits, false, false, 0⟩

/-- The row of a synchronising command or NOP: one that is in progress does what it can; else the command is accepted where
it stands at the head. -/
def syncRow (g : TileId) (op : Nat) : M Unit := do
  let t ← getTile g
  if t.seq.sync.any fun c => c.op = op && !c.begun then syncOp g fun c => c.op = op
  else
    match t.seq.ahead with
    | f :: _ => if f.err = Err.none && opOf f.bits = op then acceptOp g
    | [] => pure ()

/-- The row of a unit's command: it is accepted where it stands at the head of the sequencer and its unit is idle. -/
def acceptFor (g : TileId) (op : Nat) (k : UnitId) : M Unit := do
  let t ← getTile g
  if t.units.queue k = [] then
    match t.seq.ahead with
    | f :: _ => if f.err = Err.none && opOf f.bits = op then acceptOp g
    | [] => pure ()

/-- The list has ended: LAST and every command before it have completed (R194). -/
def listEndOp (g : TileId) : M Unit := do
  let t ← getTile g
  if listRuns (← get) g && t.seq.ended && t.seq.sync = [] && t.cmds = [] then
    wr (.tile g .tl) TL.STATE TlState.idle

/-- A list starts at `list` with job sequence number `n` (R185, R195, R372). The error of the switch list that ran before
it stops the tile before its first command (R274). -/
def startList (g : TileId) (list n : Nat) (job : Option TileJob) : M Unit := do
  let pg : PageId := .tile g .tl
  wr pg TL.TL_LIST list
  wr pg TL.TL_PC list
  wr pg TL.TL_JOB_SEQ n
  wr pg TL.CMD_ERR 0
  wr pg TL.ERR_OP 0
  wr pg TL.TL_ERR_PC 0
  wr pg TL.ACC_SAT 0
  wr pg TL.LONG_K 0
  wr pg TL.S_MIX 0
  wr pg TL.CLIP 0
  modTile g fun t => { t with seq := ⟨some list, [], [], 0, false⟩, job }
  wr pg TL.STATE TlState.run
  let e := (← getTile g).units.switchErr
  if e ≠ Err.none then
    modUnits g fun u => { u with switchErr := Err.none }
    failed g 0 list 0 e

/-- COMMAND_FETCH (R185, R186). -/
def execCommandFetch (g : TileId) (s : State) : Host.Outcome State Fault Refusal := M.next (fetchOp g) s
/-- COMMAND_ACCEPT (R189, R192). -/
def execCommandAccept (g : TileId) (s : State) : Host.Outcome State Fault Refusal := M.next (acceptOp g) s
/-- NOP (R220). -/
def execNop (g : TileId) (s : State) : Host.Outcome State Fault Refusal := M.next (syncRow g Op.nop) s
/-- GATE_WAIT (R215). -/
def execGateWait (g : TileId) (s : State) : Host.Outcome State Fault Refusal := M.next (syncRow g Op.gateWait) s
/-- GATE_SIGNAL (R217). -/
def execGateSignal (g : TileId) (s : State) : Host.Outcome State Fault Refusal := M.next (syncRow g Op.gateSignal) s
/-- FENCE (R218). -/
def execFence (g : TileId) (s : State) : Host.Outcome State Fault Refusal := M.next (syncRow g Op.fence) s
/-- MARK (R219). -/
def execMark (g : TileId) (s : State) : Host.Outcome State Fault Refusal := M.next (syncRow g Op.mark) s
/-- LIST_END (R194). -/
def execListEnd (g : TileId) (s : State) : Host.Outcome State Fault Refusal := M.next (listEndOp g) s

end Sys2Proof.Machine
end

