-- ==== Sys2Proof/Machine/ArrayUnit.lean ====
section
/-! DEFINITION. The array unit: SWEEP, DIRECT and BIN with their steps, the residue check and retry, and promotion (R88 to
R117, R119 to R146, R196 to R204, R225 to R237). -/
namespace Sys2Proof.Machine

/-! ### The loop of R106 -/

/-- Steps of super-chunk `sc` (R107). -/
def stepsIn (c : CmdWord) (sc : Nat) : Nat := min (pOf c) (nstepOf c - sc * pOf c)
/-- The step of the layer's stream at a position. -/
def Pos.step (p : Pos) (c : CmdWord) : Nat := p.sc * pOf c + p.q
/-- The command row at a position. -/
def Pos.row (p : Pos) : Nat := 16 * p.rb + p.r

/-- The position after the last step of a row's pass. -/
def Pos.nextRow (p : Pos) (c : CmdWord) (n : Nat) : Pos :=
  if p.r + 1 < min 16 (n - 16 * p.rb) then ⟨p.rb, p.sc, p.r + 1, 0⟩
  else if (p.sc + 1) * pOf c < nstepOf c then ⟨p.rb, p.sc + 1, 0, 0⟩
  else ⟨p.rb + 1, 0, 0, 0⟩

/-- The next position; `n` is the row count. -/
def Pos.next (p : Pos) (c : CmdWord) (n : Nat) : Pos :=
  if p.q + 1 < stepsIn c p.sc then { p with q := p.q + 1 } else p.nextRow c n

/-- Every row has been run. -/
def Pos.done (p : Pos) (n : Nat) : Bool := 16 * p.rb ≥ n

/-- The rows that a command runs: NROWS, or NG for BIN (R107, R231). -/
def rowCount (c : CmdWord) (run : ArrayRun) : Nat := if opOf c = Op.bin then Grad.ng run.grad else nrowsOf c

/-! ### Tables (R93 to R100) -/

/-- Bits of a bit-plane format per weight; 2 for T. -/
def planesOf (wf : Nat) : Nat := if wf = 5 then 2 else wf

/-- The sign table entry E(x) over four activations (R93). -/
def signEntry (a : Nat → Int) (x : Nat) : Int :=
  ((List.range 4).map fun i => if x.testBit i then a i else -a i).foldl (· + ·) 0

/-- The offset table entry D(x) (R95). -/
def offsetEntry (a : Nat → Int) (x : Nat) : Int := (signEntry a x - signEntry a 15) / 2

/-- Stream position `j` of a bit-plane format takes the offset table; else the sign table (R96). -/
def usesOffset (wf j : Nat) : Bool := wf = 5 || (wf ≠ 1 && j % planesOf wf = 0)

/-- The plane weight at stream position `j` (R96). -/
def planeWeight (wf j : Nat) : Int :=
  if isCodebook wf || wf = 1 then 1
  else if wf = 5 then (if j % 2 = 0 then 1 else -1)
  else
    let n := planesOf wf
    let k := j % n
    if k = 0 then 1 else if k = n - 1 then -(2 ^ (n - 2)) else 2 ^ (k - 1)

/-- First K position and number of K positions of step `n` (R69 to R74, R91 event 2). -/
def stepCodes (wf n : Nat) : Nat × Nat :=
  if wf = 9 then (16 * n, 16)
  else if isCodebook wf then (32 * n, 32)
  else
    let g0 := 16 * n / planesOf wf
    let g1 := (16 * n + 15) / planesOf wf
    (4 * g0, 4 * (g1 - g0 + 1))

/-- Component `i` of a book as a signed number (R77). -/
def bookAt (book : List Byte) (i : Nat) : Int := sext 8 (book.getD i 0).toNat

/-- Entry `x` of the table at stream position `j`: `a` gives the activation code at a K position (R96, R98 to R100). -/
def tableEntry (wf : Nat) (a : Nat → Int) (book : List Byte) (j x : Nat) : Int :=
  if isCodebook wf then
    if wf = 9 then a j * bookAt book x
    else if wf = 8 then a (2 * j) * bookAt book (2 * x) + a (2 * j + 1) * bookAt book (2 * x + 1)
    else
      let k := j / 2
      let h := j % 2
      ((List.range 4).map fun i => a (4 * k + i) * bookAt book (64 * h + 4 * x + i)).foldl (· + ·) 0
  else
    let b := 4 * (j / planesOf wf)
    let a' := fun i => a (b + i)
    if usesOffset wf j then offsetEntry a' x else signEntry a' x

/-- The book of step `n` (R89). -/
def stepBook (c : CmdWord) (n : Nat) : Nat :=
  if bmodeOf c then bookOf c + (if wfmtOf c = 0xA then n / 2 else n) else bookOf c

def bookBytesOf (t : Tile) (n : Nat) : List Byte := t.books.mem.read (128 * n) 128

/-- Activation codes at the places of a walk, read by the builder; 0 where the walk gives none (R197). -/
def readCodes (r : Req) (af : Nat) (as : List (Option CodeAt)) : M (List Int) := do
  let bytes ← r.gather (as.filterMap fun a => a.map CodeAt.addr)
  return as.map fun a => match a with
    | none => 0
    | some x => codeVal af x.high ((Assoc.look bytes x.addr).getD 0)

/-- The codes of command row `i` for step `n`, as a function of the K position. -/
def sweepCodes (g : TileId) (c : CmdWord) (d i n : Nat) : M (Nat → Int) := do
  let (k0, m) := stepCodes (wfmtOf c) n
  let cs ← readCodes (ownReq g 1 0) (afmtOf c) ((List.range m).map fun k => sweepCode d (afmtOf c) i (k0 + k))
  return fun k => cs.getD (k - k0) 0

def modArr (g : TileId) (f : ArrayMem → ArrayMem) : M Unit := modTile g fun t => { t with arr := f t.arr }
def modRun (g : TileId) (f : ArrayRun → ArrayRun) : M Unit :=
  modUnits g fun u => { u with arrayRun := u.arrayRun.map f }

/-- The 16 × 16 entries of a build. -/
def buildEntries (c : CmdWord) (n : Nat) (a : Nat → Int) (book : List Byte) : List Int :=
  (List.range 16).flatMap fun s => (List.range 16).map fun x => tableEntry (wfmtOf c) a book (16 * n + s) x

/-- One build into the next half, with residues; TABLE_READY is posted (R91 events 2 to 4, R92, R112). -/
def buildAt (g : TileId) (c : CmdWord) (d : Nat) (p : Pos) : M Unit := do
  let n := p.step c
  let a ← sweepCodes g c d p.row n
  let es := buildEntries c n a (bookBytesOf (← getTile g) (stepBook c n))
  let h ← rd (.tile g .lut) LUT.NEXT_HALF
  modArr g fun m => { m with
    table := m.table.write (512 * h) (es.flatMap fun e => leBytes 2 (uns 16 e))
    residues := m.residues.write (256 * h) (es.map fun e => BitVec.ofNat 8 (res255 e))
    ready := m.ready ++ [h] }
  wr (.tile g .lut) LUT.NEXT_HALF (1 - h)

/-! ### Lanes (R88, R97, R103, R111, R112) -/

/-- Lists of `n` elements each. -/
def chunks (n : Nat) : Nat → List α → List (List α)
  | 0, _ => []
  | k + 1, l => l.take n :: chunks n k (l.drop n)

/-- The 16 indices of a lane: even slots in the low nibbles (R75). -/
def laneIndices (bytes : List Byte) : List Nat := bytes.flatMap fun b => [b.toNat % 16, b.toNat / 16]

/-- The indices of the 128 lanes in a step image (R75). -/
def imageIndices (img : List Byte) : List (List Nat) := (chunks 8 128 img).map laneIndices

/-- A half of the table store, slot by slot: entries with their residues. -/
def halfTables (m : ArrayMem) (h : Nat) : List (List (Int × Nat)) :=
  let es := (leWords2 (m.table.read (512 * h) 512)).map (sext 16)
  let rs := (m.residues.read (256 * h) 256).map BitVec.toNat
  chunks 16 16 (es.zip rs)
where
  /-- 16-bit little-endian words. -/
  leWords2 : List Byte → List Nat
    | a :: b :: t => leNat [a, b] :: leWords2 t
    | _ => []

/-- One lane's 16 lookups (R97, R112): value and residue of their weighted sum. -/
def laneLookups (ts : List (List (Int × Nat))) (ws : List Int) (ix : List Nat) : Int × Int :=
  ((ts.zip ws).zip ix).foldl (fun acc e =>
    let x := (e.1.1).getD e.2 (0, 0)
    (acc.1 + e.1.2 * x.1, acc.2 + e.1.2 * (x.2 : Int))) (0, 0)

/-- A value as the `n` bits of its register hold it. -/
def held (n : Nat) (v : Int) : Int := sext n (uns n v)

/-- A lane entry after one more sum with its residue; the entry is an L22 register (R64, R111, R112). -/
def Lane.add (x : Lane) (v r : Int) : Lane := ⟨held 22 (x.v + v), res255 ((x.res : Int) + r)⟩

/-- The upset of a lane value at step `k` (R113). -/
def upsetOf (ups : List Upset) (k l : Nat) : Int :=
  (ups.map fun u => match u with
    | .lane s ln d => if s = k ∧ ln.val = l then d else 0
    | .parity _ _ => 0
    | .bin _ _ _ _ => 0).foldl (· + ·) 0

/-- The upset of staging bin (`s`, `x`) at step `k` (R235). -/
def binUpset (ups : List Upset) (k s x : Nat) : Int :=
  (ups.map fun u => match u with
    | .lane _ _ _ => 0
    | .parity _ _ => 0
    | .bin q sl ix d => if q = k ∧ sl.val = s ∧ ix.val = x then d else 0).foldl (· + ·) 0

/-- The lanes whose bytes step `k` reads with bad parity (R117). -/
def parityLanes (ups : List Upset) (k : Nat) : List Nat :=
  ups.filterMap fun u => match u with
    | .lane _ _ _ => none
    | .parity s b => if s = k then some (b.val / 8) else none
    | .bin _ _ _ _ => none

/-- Lane entry `r` of every lane; all 0 where the pass has cleared it. -/
def ArrayMem.laneRow (m : ArrayMem) (r : Nat) : List Lane := (m.lanes.look r).getD (List.replicate 128 ⟨0, 0⟩)

/-- The 128 lanes take a step's sums; `k` numbers the step for its upsets. -/
def addLanes (g : TileId) (r k : Nat) (ups : List Upset) (sums : List (Int × Int)) : M Unit :=
  modArr g fun m => { m with
    lanes := m.lanes.put r (some (((m.laneRow r).zip sums).zipIdx.map fun e =>
      let x := e.1.1.add e.1.2.1 e.1.2.2
      { x with v := held 22 (x.v + upsetOf ups k e.2) })) }

/-- The window takes the P step images of super-chunk `sc` (R108). -/
def loadWindow (g : TileId) (c : CmdWord) (rb sc : Nat) : M Unit := do
  let bs ← (ownReq g 0 0).read (wstreamOf c + 1024 * (sc * pOf c)) (1024 * stepsIn c sc)
  modArr g fun m => { m with window := bs }
  modRun g fun r => { r with window := some (rb, sc) }

/-- The step image of step `q` of the super-chunk in the window. -/
def ArrayMem.image (m : ArrayMem) (q : Nat) : List Byte := (m.window.drop (1024 * q)).take 1024

/-- Bad parity reloads the window and marks the lanes that own the bytes (R117). -/
def parityCheck (g : TileId) (c : CmdWord) (p : Pos) (k : Nat) (ups : List Upset) : M Unit := do
  let ls := parityLanes ups k
  if ls ≠ [] then
    loadWindow g c p.rb p.sc
    modRun g fun r => { r with parity := r.parity ++ ls }

/-- A row's pass begins: its lane entry and what it has found so far are cleared (R106). -/
def clearLanes (g : TileId) (p : Pos) : M Unit := do
  if p.q = 0 then
    modArr g fun m => { m with lanes := m.lanes.put p.r none }
    modRun g fun r => { r with parity := [], held := [], missed := [] }

/-- One lookup step from the oldest built half, which it frees (R91 events 5 to 7). -/
def sweepStep (g : TileId) (c : CmdWord) (p : Pos) (k : Nat) (ups : List Upset) : M Unit := do
  clearLanes g p
  parityCheck g c p k ups
  let m := (← getTile g).arr
  let h := m.ready.headD 0
  let ts := halfTables m h
  let ws := (List.range 16).map fun s => planeWeight (wfmtOf c) (16 * p.step c + s)
  addLanes g p.r k ups ((imageIndices (m.image p.q)).map (laneLookups ts ws))
  modArr g fun m => { m with ready := m.ready.drop 1 }
  cnt (.tile g .lut) LUT.LUT_BUSY 1

/-- One direct-mode step (R103, R104). -/
def directStepAt (g : TileId) (c : CmdWord) (d : Nat) (p : Pos) (k : Nat) (ups : List Upset) : M Unit := do
  clearLanes g p
  parityCheck g c p k ups
  let n := p.step c
  let cs ← mapAll (List.range 4) fun i =>
    readCodes (ownReq g 1 0) (afmtOf c)
      ((List.range 128).map fun l => directCode d (afmtOf c) p.row l (4 * n + i))
  let m := (← getTile g).arr
  let sums := (chunks 8 128 (m.image p.q)).zipIdx.map fun (bs, l) =>
    let ps := (List.range 4).map fun i => sext 8 (bs.getD i 0).toNat * (cs.getD i []).getD l 0
    (ps.foldl (· + ·) 0, ps.foldl (fun s x => s + (res255 x : Int)) 0)
  addLanes g p.r k ups sums

/-! ### BIN (R225 to R235) -/

/-- Tile address of gradient row `n`'s block (R227). -/
def gradBlock (d n : Nat) : Nat := Grad.src d + n / 16 * Grad.stride d

/-- A row that BIN reads carries its uniform scale or reads as 0, as every word with e = 0 does (R225, R56). -/
def scaleOk (r : Req) (block row scale : Nat) : M Unit := do
  let w ← r.readNat (block + 2 * row) 2
  if w ≠ scale && w / 2048 ≠ 0 then fail Err.binScale

/-- The 128 gradient codes of gradient row `i`, with their scale checked (R225, R227). Of a row that reads as 0 and whose
stored codes are not 0, against R225, the model takes the stored codes (DESIGN CHOICE, log entry 169). -/
def gradCodes (g : TileId) (d i : Nat) : M (List Int) := do
  let n := Grad.row0 d + i
  let b := gradBlock d n
  let r := ownReq g 0 0
  scaleOk r b (n % 16) (Grad.gscale d)
  let pitch := codeBytes (Grad.fmt d) 128
  let bs ← r.read (b + 64 + n % 16 * pitch) pitch
  return if Grad.fmt d = 1 then bs.flatMap fun x => [codeVal 1 false x, codeVal 1 true x]
    else bs.map (codeVal 0 false)

/-- The contributions to staging bin (s, x) of a step (R231, R232). -/
def binContribs (ix : List (List Nat)) (gs : List Int) (s x : Nat) : List Int :=
  ((ix.zip gs).filter fun e => e.1.getD s 0 = x ∧ e.2 ≠ 0).map Prod.snd

/-- The value that BIN promotes at a lane of its target row: DATA (R233) or CENTROID (R234). -/
def binValues (c : CmdWord) (n : Nat) (book : List Byte) (a : Nat → Int) (b : Nat → Nat → Int) : List (Nat × Int) :=
  let wf := wfmtOf c
  let sum (l : List Int) : Int := l.foldl (· + ·) 0
  let x16 := List.range 16
  if !centroidOf c then
    if wf = 9 then x16.map fun s => (16 * n + s, sum (x16.map fun x => bookAt book x * b s x))
    else if wf = 8 then
      (List.range 32).map fun k => (32 * n + k, sum (x16.map fun x => bookAt book (2 * x + k % 2) * b (k / 2) x))
    else
      (List.range 32).map fun k =>
        (32 * n + k, sum (x16.map fun x =>
          bookAt book (4 * x + k % 4) * b (2 * (k / 4)) x + bookAt book (64 + 4 * x + k % 4) * b (2 * (k / 4) + 1) x))
  else
    if wf = 9 then x16.map fun x => (x, sum (x16.map fun s => b s x * a (16 * n + s)))
    else if wf = 8 then
      (List.range 32).map fun e => (e, sum (x16.map fun s => b s (e / 2) * a (32 * n + 2 * s + e % 2)))
    else
      (List.range 128).map fun e =>
        let h := e / 64
        let x := e % 64 / 4
        (e, sum ((List.range 8).map fun k => b (2 * k + h) x * a (32 * n + 4 * k + e % 4)))

/-- The target row of a BIN step (R230). -/
def binRow (c : CmdWord) (p : Pos) : Nat :=
  if centroidOf c then row0Of c + (stepBook c (p.step c) - bookOf c) else row0Of c + p.row

/-- The activation codes of a CENTROID step, with the scales of their rows checked (R225, R228). -/
def binCodes (g : TileId) (c : CmdWord) (run : ArrayRun) (p : Pos) : M (Nat → Int) := do
  if !centroidOf c then return fun _ => 0
  let n := p.step c
  let (k0, m) := stepCodes (wfmtOf c) n
  let r := ownReq g 1 0
  let as := (List.range m).filterMap fun k => sweepCode run.desc (afmtOf c) p.row (k0 + k)
  forAll ((as.map fun x => (x.block, x.row)).eraseDups) fun (b, row) => scaleOk r b row (Grad.ascale run.grad)
  sweepCodes g c run.desc p.row n

/-- The width of a value that BIN forms at a lane: L22 for a reduced value (R233). A step sum of CENTROID has no width
in the spec; 26 bits hold the bound of R234 (DESIGN CHOICE, log entry 133). -/
def binWidth (c : CmdWord) : Nat := if centroidOf c then 26 else 22

/-- The values of a BIN step with their residues: `b` gives the bins as they stand in the staging rows, `r` their residues,
which the builder combines by residue arithmetic alone (R112, R233 to R235). The residues are compared at the values that
are promoted; R235 does not say whether a bin is compared by itself as well, and the model does not (DESIGN CHOICE, log
entry 168). -/
def binLanes (c : CmdWord) (n k : Nat) (book : List Byte) (a : Nat → Int) (b r : Nat → Nat → Int) (ups : List Upset) :
    List (Nat × Lane) :=
  ((binValues c n book a b).zip (binValues c n book a r)).map fun e =>
    (e.1.1, ⟨held (binWidth c) (e.1.2 + upsetOf ups k e.1.1), res255 e.2.2⟩)

/-- The first staging row of a step: the pairs alternate, and a pass that runs again uses the pairs that it used before
(R230, R231, R235). -/
def stagingRow (c : CmdWord) (run : ArrayRun) (p : Pos) : Nat := row0Of c + nrowsOf c - 4 + 2 * ((run.pair + p.q) % 2)

/-- One BIN step: staging bins, then the values that wait for the pass to compare clean (R231 to R235). A value whose
residue does not fit is a mismatch of the pass at its lane. -/
def binStepAt (g : TileId) (c : CmdWord) (p : Pos) (k : Nat) (ups : List Upset) : M Unit := do
  clearLanes g p
  parityCheck g c p k ups
  match (← getTile g).units.arrayRun with
  | none => pure ()
  | some run =>
    let gs ← gradCodes g run.grad p.row
    let a ← binCodes g c run p
    let t ← getTile g
    let ix := imageIndices (t.arr.image p.q)
    let cs := (List.range 16).map fun s => (List.range 16).map fun x => binContribs ix gs s x
    let sums := cs.map fun l => l.map fun v => v.foldl (· + ·) 0
    let bins := sums.zipIdx.map fun (l, s) => l.zipIdx.map fun (v, x) => held 32 (v + binUpset ups k s x)
    let entry (l : List (List Int)) := fun s x => (l.getD s []).getD x 0
    let row := stagingRow c run p
    let bs (lo : Nat) := (bins.drop lo).take 8 |>.flatten |>.flatMap fun v => leBytes 4 (uns 32 v)
    modTile g fun t =>
      let x := t.acc (cBufOf c)
      t.setAcc (cBufOf c) { x with mem := (x.mem.write (512 * row) (bs 0)).write (512 * (row + 1)) (bs 8) }
    cnt (.tile g .dbg) DBG.BIN_CONFLICT ((cs.flatten.map fun v => v.length - 1).foldl (· + ·) 0)
    cnt (.tile g .dbg) DBG.BIN_STEPS 1
    let book := bookBytesOf t (stepBook c (p.step c))
    let vs := binLanes c (p.step c) k book a (entry bins) (fun s x => (res255 (entry sums s x) : Int)) ups
    modRun g fun r => { r with
      missed := r.missed ++ (vs.filter fun e => res255 e.2.v ≠ e.2.res).map Prod.fst
      held := r.held ++ [⟨binRow c p, vs.map fun e => (e.1, e.2.v)⟩] }

/-! ### Residue check and retry (R113 to R117) -/

/-- The mismatching lanes of row entry `r`: those whose residue does not fit, those that `marked` names, and the lane of
an armed injection (R113, R117, R223, R235). -/
def mismatches (m : ArrayMem) (r : Nat) (marked : List Nat) : List Nat :=
  let ls := (m.laneRow r).zipIdx
  (ls.filter fun e => res255 e.1.v ≠ e.1.res || marked.contains e.2 || m.inject = some e.2).map Prod.snd

/-- The residue compare of a finished pass. -/
def compareRow (g : TileId) (p : Pos) : M (List Nat) := do
  let t ← getTile g
  let marked := match t.units.arrayRun with | some r => r.parity ++ r.missed | none => []
  let l := mismatches t.arr p.r marked
  modArr g fun m => { m with inject := none }
  return l

/-- Row `p` compares clean: its values are handed to promotion and the next row begins (R113 event 7, R235). -/
def handOver (g : TileId) (c : CmdWord) (p : Pos) (n : Nat) : M Unit := do
  let t ← getTile g
  let vals := (t.arr.laneRow p.r).zipIdx.map fun e => (e.2, e.1.v)
  modRun g fun r => { r with
    promo := r.promo ++ (if opOf c = Op.bin then r.held else [⟨row0Of c + p.row, vals⟩])
    held := []
    retry := none
    pair := (r.pair + stepsIn c p.sc) % 2
    pos := p.nextRow c n }
  wr (.tile g .lut) LUT.RETRY 0

/-- The tile is marked FAULTED (R425, R426). -/
def tileFaulted (g : TileId) : M Unit := do
  if (← get).eng.faulted.contains g.val then pure ()
  else
    modEng fun e => { e with faulted := e.faulted ++ [g.val] }
    logFault (partOf g) ⟨2, (partOf g).val, localOf g, false, 0⟩ fun _ => false

/-- A lasting or limiting fault is recorded and ends the command (R115, R116, R223, R477). The F_ fields decode the fault
that ERR_INFO records, so ERR_HOLD keeps them as well (R476). For a BIN in CENTROID mode the spec does not say which row
they give: the model gives ROW0 plus the gradient row, modulo 256 (DESIGN CHOICE, log entry 167). -/
def arrayFault (g : TileId) (c : CmdWord) (p : Pos) (lane : Nat) (parity : Bool) (code : Nat) : M Unit := do
  let pg : PageId := .tile g .lut
  let row := row0Of c + p.row
  let sc := min p.sc 0xFFFF
  if (← rd pg HDR.ERR_HOLD) = 0 then
    wr pg LUT.F_LANE lane
    wr pg LUT.F_PARITY (b2n parity)
    wr pg LUT.F_ROW row
    wr pg LUT.F_SC sc
  logErr pg code 0 (b2n parity) (lane + row % 256 * 256 + sc * 65536)
  fail code

/-- What follows the last step of a row's first pass. -/
def passEnd (g : TileId) (c : CmdWord) (p : Pos) (n : Nat) : M Unit := do
  match ← compareRow g p with
  | [] => handOver g c p n
  | m =>
    modRun g fun r => { r with retry := some ⟨m, 0⟩ }
    wr (.tile g .lut) LUT.RETRY 1

/-- The steps of row `p`'s pass run again, from rebuilt tables (R113 events 2 to 5). -/
def rerunPass (g : TileId) (c : CmdWord) (d : Nat) (p : Pos) (ups : List Upset) : M Unit := do
  modArr g fun m => { m with ready := [] }
  forAll (List.range (stepsIn c p.sc)) fun q => do
    let x := { p with q }
    if opOf c = Op.direct then directStepAt g c d x q ups
    else if opOf c = Op.bin then binStepAt g c x q ups
    else
      buildAt g c d x
      sweepStep g c x q ups

/-- One retry with its classification (R114 to R116). A lasting fault is counted, marks the tile and ends the command;
the third retry that is not clean ends it with ERR_RESIDUE_LIMIT. Where several lanes mismatch, R115 and R116 do not say
which of them ERR_INFO and F_LANE name: the model names the lowest (DESIGN CHOICE, log entry 162). -/
def retryAt (g : TileId) (c : CmdWord) (run : ArrayRun) (y : Retry) (ups : List Upset) : M Unit := do
  let p := run.pos
  let pg : PageId := .tile g .lut
  rerunPass g c run.desc { p with q := 0 } ups
  let par := match (← getTile g).units.arrayRun with | some r => r.parity | none => []
  let m ← compareRow g p
  match m.filter y.lanes.contains with
  | lane :: _ =>
    cnt pg LUT.RES_LASTING 1
    tileFaulted g
    arrayFault g c p lane (par.contains lane) Err.residueLasting
  | [] =>
    cnt pg LUT.RES_TRANSIENT 1
    match m with
    | [] =>
      modRun g fun r => { r with bpos := p.nextRow c (rowCount c run) }
      handOver g c p (rowCount c run)
    | lane :: _ =>
      if y.made + 1 ≥ 3 then arrayFault g c p lane (par.contains lane) Err.residueLimit
      else modRun g fun r => { r with retry := some ⟨m, y.made + 1⟩ }

/-! ### Promotion (R126) -/

/-- The oldest row handed over is promoted. -/
def promoteOp (g : TileId) (c : CmdWord) : M Unit := do
  match (← getTile g).units.arrayRun with
  | none => pure ()
  | some run =>
    match run.promo with
    | [] => pure ()
    | pr :: rest =>
      let s := sOf c
      let b := cBufOf c
      let stoch := (← rd (.tile g .tl) TL.MODE.active) = 0
      let draw := stoch && s ≠ 0
      let t ← getTile g
      let ws := drawWords (if draw then 32 else 0) t.dither
      let us := pr.vals.map fun e => (e.1, shiftRound stoch s (ditherField ws.1 e.1) e.2)
      let fresh := !accOf c && !run.touched.contains pr.row
      let (x, clamped, fl) := (t.acc b).promote pr.row fresh s us
      modTile g fun t => { t.setAcc b x with dither := ws.2 }
      modRun g fun r => { r with promo := rest, touched := if r.touched.contains pr.row then r.touched else pr.row :: r.touched }
      let pg : PageId := .tile g .acc
      cnt pg ACC.PROMO_CNT 1
      if clamped then
        wr pg (ACC.ACC_SAT b) 1
        cnt pg ACC.SAT_EVENTS 1
      if fl.testBit 1 then wr pg (ACC.LONG_K b) 1
      if fl.testBit 2 then wr pg (ACC.S_MIX b) 1
      flagHead g .array fl
      madeProgress g

/-! ### Micro-operations of the head command -/

/-- The head of the array unit with what it is doing. -/
def arrayHead (g : TileId) : M (Option (Active × ArrayRun)) := do
  let t ← getTile g
  return match t.head .array, t.units.arrayRun with
    | some c, some r => some (c, r)
    | _, _ => none

/-- The last promotion has been made: the token posts and the command completes (R146, R188). -/
def arrayFinish (g : TileId) : M Unit := do
  match ← arrayHead g with
  | some (c, r) =>
    if fillsOp c.op && r.pos.done (rowCount c.bits r) && r.promo = [] && r.held = [] then finishHead g .array
  | none => pure ()

/-- The books of a command carry its format's tag (R80). -/
def tagsOk (t : Tile) (c : CmdWord) : Bool :=
  (List.range 64).all fun n => !namesBook c n || t.books.tags.look n = some (wfmtOf c)

/-- An array-unit command reads no book before every earlier BOOK has completed (R191). -/
def booksPending (t : Tile) (c : Active) : Bool := t.units.lift.any fun d => d.op = Op.book && d.num < c.num

/-- A SWEEP, DIRECT or BIN starts: its descriptors are read once and checked (R196, R199, R226, R229, R80). R226 gives no
effect for WALK = 0xFFFF, whose gradient descriptor lies past scratchpad at 0x400000: it is read there, in ACC_BUF0 (DESIGN
CHOICE, log entry 134). P_ACT keeps the last command's P − 1 while no command runs; R223 names only the running command
(DESIGN CHOICE, log entry 135). Of a command that breaks both R199 and the tag check of R80 the spec does not say which code
it ends with: the descriptors are checked first (DESIGN CHOICE, log entry 166). -/
def arrayBegin (g : TileId) : M Unit := do
  let t ← getTile g
  match t.head .array with
  | none => pure ()
  | some c =>
    if !fillsOp c.op || c.begun || !c.released then pure ()
    else if (List.range 64).any (namesBook c.bits) && booksPending t c then pure ()
    else
      let r := ownReq g 1 0
      let bin := c.op = Op.bin
      let walk := !bin || centroidOf c.bits
      let d ← if walk then r.readNat (walkOf c.bits) 64 else pure 0
      let gd ← if bin then r.readNat (walkOf c.bits + 64) 64 else pure 0
      if bin && binBad c.bits d gd then fail Err.cmdField
      if !bin && walkBad d (afmtOf c.bits) (c.op = Op.direct) then fail Err.cmdField
      if !tagsOk t c.bits then fail Err.bookFormat
      let z : Pos := ⟨0, 0, 0, 0⟩
      modUnits g fun u => { u with arrayRun := some ⟨d, gd, [], [], z, z, none, [], [], [], none, [], 0, 0, []⟩ }
      modHead g .array fun c => { c with begun := true }
      modArr g fun m => { m with ready := [] }
      wr (.tile g .lut) LUT.NEXT_HALF 0
      wr (.tile g .lut) LUT.P_ACT (pOf c.bits - 1)

/-- WINDOW_LOAD at the start of a super-chunk (R108). -/
def windowOp (g : TileId) : M Unit := do
  match ← arrayHead g with
  | some (c, r) =>
    if fillsOp c.op && !r.pos.done (rowCount c.bits r) && r.window ≠ some (r.pos.rb, r.pos.sc) && r.retry.isNone then
      loadWindow g c.bits r.pos.rb r.pos.sc
  | none => pure ()

/-- BUILD_TABLES: a build ahead of the array, once a half is free (R91, R92). -/
def buildOp (g : TileId) : M Unit := do
  match ← arrayHead g with
  | some (c, r) =>
    if c.op = Op.sweep && !r.bpos.done (rowCount c.bits r) && r.retry.isNone && (← getTile g).arr.ready.length < 2 then
      buildAt g c.bits r.desc r.bpos
      modRun g fun r' => { r' with bpos := r.bpos.next c.bits (rowCount c.bits r) }
  | none => pure ()

/-- The promotion unit lets the array run a step (R126): it is not full, and a pass that begins finds its lane entry free,
since the entry's last values have left it. How many rows the unit holds is open (log entry 163); one that holds none has
room. -/
def promoRoom (c : CmdWord) (r : ArrayRun) : Bool :=
  r.promo = [] ||
    (r.promo.length < Config.promoRows &&
      (r.pos.q ≠ 0 || opOf c = Op.bin || r.promo.all fun e => (e.row - row0Of c) % 16 ≠ r.pos.r))

/-- The command may run a step: the window holds its super-chunk, no retry is pending and promotion leaves room. -/
def stepReady (c : CmdWord) (r : ArrayRun) : Bool :=
  !r.pos.done (rowCount c r) && r.window = some (r.pos.rb, r.pos.sc) && r.retry.isNone && promoRoom c r

/-- After a step: the next step of the pass, or the compare. -/
def stepDone (g : TileId) (c : CmdWord) (r : ArrayRun) : M Unit := do
  madeProgress g
  if r.pos.q + 1 < stepsIn c r.pos.sc then modRun g fun x => { x with pos := { r.pos with q := r.pos.q + 1 } }
  else passEnd g c r.pos (rowCount c r)

/-- RUN_STEP (R91 events 5 to 7). -/
def runStepOp (g : TileId) (ups : List Upset) : M Unit := do
  match ← arrayHead g with
  | some (c, r) =>
    if c.op = Op.sweep && stepReady c.bits r && (← getTile g).arr.ready ≠ [] then
      sweepStep g c.bits r.pos 0 ups
      stepDone g c.bits r
  | none => pure ()

/-- DIRECT_STEP (R103). -/
def directStepOp (g : TileId) (ups : List Upset) : M Unit := do
  match ← arrayHead g with
  | some (c, r) =>
    if c.op = Op.direct && stepReady c.bits r then
      directStepAt g c.bits r.desc r.pos 0 ups
      stepDone g c.bits r
  | none => pure ()

/-- BIN_STEP (R231). -/
def binStepOp (g : TileId) (ups : List Upset) : M Unit := do
  match ← arrayHead g with
  | some (c, r) =>
    if c.op = Op.bin && stepReady c.bits r then
      binStepAt g c.bits r.pos 0 ups
      stepDone g c.bits r
  | none => pure ()

/-- RESIDUE_RETRY (R113). -/
def retryOp (g : TileId) (ups : List Upset) : M Unit := do
  match ← arrayHead g with
  | some (c, r) =>
    match r.retry with
    | some y => retryAt g c.bits r y ups
    | none => pure ()
  | none => pure ()

/-- No command runs on the array: no retry is in progress, and the next build is the first of a SWEEP, which writes half
0 (R92, R223). -/
def arrayRest (g : TileId) : M Unit := do
  if (← getTile g).units.arrayRun.isNone then
    wr (.tile g .lut) LUT.RETRY 0
    wr (.tile g .lut) LUT.NEXT_HALF 0

/-- A step of the array unit. The marks of a lasting fault stay although the command ends. -/
def arrayDo (g : TileId) (m : M Unit) : M Unit := do
  unitStep g .array m
  arrayFinish g
  arrayRest g

/-- PROMOTION (R126). -/
def promotionOp (g : TileId) : M Unit := do
  match (← getTile g).head .array with
  | some c => promoteOp g c.bits
  | none => pure ()

/-- The next micro-operation of the head command, in the order of R91, R106 and R126; false when nothing can be done. -/
def arrayAdvance (g : TileId) (num : Nat) : M Bool := do
  let t ← getTile g
  match t.head .array with
  | none => return false
  | some c =>
    if c.num ≠ num || !fillsOp c.op then return false
    else
      match t.units.arrayRun with
      | none =>
        arrayDo g (arrayBegin g)
        return (← getTile g).units.arrayRun.isSome
      | some r =>
        if r.promo ≠ [] then arrayDo g (promotionOp g)
        else if r.retry.isSome then arrayDo g (retryOp g [])
        else if r.window ≠ some (r.pos.rb, r.pos.sc) then arrayDo g (windowOp g)
        else if c.op = Op.sweep && t.arr.ready = [] then arrayDo g (buildOp g)
        else if c.op = Op.sweep then arrayDo g (runStepOp g [])
        else if c.op = Op.direct then arrayDo g (directStepOp g [])
        else arrayDo g (binStepOp g [])
        return true

/-- Micro-operations that `n` rows take at most: a build, a step and a promotion for each step of each row, a window load
for each super-chunk of each row block, the start, and a retry (R106). -/
def arrayFuel (c : CmdWord) (n : Nat) : Nat := 4 * n * nstepOf c + 8

/-- A whole SWEEP, DIRECT or BIN, as far as it can run. -/
def arrayRow (g : TileId) (op : Nat) : M Unit := do
  acceptFor g op .array
  match (← getTile g).head .array with
  | some c =>
    if c.op = op then
      let n := if op = Op.bin then 65535 else nrowsOf c.bits
      repeatM (arrayFuel c.bits n) (arrayAdvance g c.num)
  | none => pure ()

/-- SWEEP (R202). -/
def execSweep (g : TileId) (s : State) : Host.Outcome State Fault Refusal := M.next (arrayRow g Op.sweep) s
/-- DIRECT (R203). -/
def execDirect (g : TileId) (s : State) : Host.Outcome State Fault Refusal := M.next (arrayRow g Op.direct) s
/-- BIN (R231). -/
def execBin (g : TileId) (s : State) : Host.Outcome State Fault Refusal := M.next (arrayRow g Op.bin) s

/-- A micro-operation row starts the head command first, where it has not started. -/
def arrayMicro (g : TileId) (m : M Unit) : M Unit := do
  arrayDo g (arrayBegin g)
  arrayDo g m

/-- WINDOW_LOAD (R108). -/
def execWindowLoad (g : TileId) (s : State) : Host.Outcome State Fault Refusal :=
  M.next (arrayMicro g (windowOp g)) s
/-- BUILD_TABLES (R91). -/
def execBuildTables (g : TileId) (s : State) : Host.Outcome State Fault Refusal :=
  M.next (arrayMicro g (buildOp g)) s
/-- RUN_STEP (R88). -/
def execRunStep (g : TileId) (ups : List Upset) (s : State) : Host.Outcome State Fault Refusal :=
  M.next (arrayMicro g (runStepOp g ups)) s
/-- DIRECT_STEP (R103). -/
def execDirectStep (g : TileId) (ups : List Upset) (s : State) : Host.Outcome State Fault Refusal :=
  M.next (arrayMicro g (directStepOp g ups)) s
/-- RESIDUE_RETRY (R113). -/
def execResidueRetry (g : TileId) (ups : List Upset) (s : State) : Host.Outcome State Fault Refusal :=
  M.next (arrayDo g (retryOp g ups)) s
/-- PROMOTION (R126). -/
def execPromotion (g : TileId) (s : State) : Host.Outcome State Fault Refusal :=
  M.next (arrayDo g (promotionOp g)) s
/-- BIN_STEP (R231). -/
def execBinStep (g : TileId) (ups : List Upset) (s : State) : Host.Outcome State Fault Refusal :=
  M.next (arrayMicro g (binStepOp g ups)) s
/-- ACC_HOLD_RELEASE (R147). -/
def execAccHoldRelease (g : TileId) (s : State) : Host.Outcome State Fault Refusal :=
  M.next (releaseOp g) s
/-- BOOK_WRITE_RELEASE (R82). -/
def execBookWriteRelease (g : TileId) (s : State) : Host.Outcome State Fault Refusal :=
  M.next (modTile g Tile.releaseBooks) s
/-- LUT_WRITE_RELEASE (R87). -/
def execLutWriteRelease (g : TileId) (s : State) : Host.Outcome State Fault Refusal :=
  M.next (modTile g Tile.releaseLuts) s

end Sys2Proof.Machine
end

