-- ==== Sys2Proof/Machine/Crc.lean ====
section
/-! DEFINITION. The checks of byte strings: CRC-32C (R272) and the CRC-16 of the recovery UART (R444). -/
namespace Sys2Proof.Machine

/-- One bit of the reflected CRC-32C register; 0x82F63B78 is 0x1EDC6F41 with its bits reversed. -/
def crc32Bit (r : Nat) : Nat := if r % 2 = 1 then (r / 2) ^^^ 0x82F63B78 else r / 2

/-- One byte enters the register. -/
def crc32Byte (r : Nat) (b : Byte) : Nat :=
  crc32Bit (crc32Bit (crc32Bit (crc32Bit (crc32Bit (crc32Bit (crc32Bit (crc32Bit (r ^^^ b.toNat))))))))

/-- The register before the first byte. -/
def crc32Init : Nat := 0xFFFFFFFF
/-- The register after more bytes. -/
def crc32Run (r : Nat) (bs : List Byte) : Nat := bs.foldl crc32Byte r
/-- The CRC that a register stands for. -/
def crc32Final (r : Nat) : Nat := r ^^^ 0xFFFFFFFF
/-- CRC-32C of bytes. -/
def crc32c (bs : List Byte) : Nat := crc32Final (crc32Run crc32Init bs)

/-- One bit of the CRC-16/CCITT register, most significant first (R444). -/
def crc16Bit (r : Nat) : Nat := if r ≥ 0x8000 then (2 * r) % 0x10000 ^^^ 0x1021 else 2 * r

/-- One byte enters the register. -/
def crc16Byte (r : Nat) (b : Byte) : Nat :=
  crc16Bit (crc16Bit (crc16Bit (crc16Bit (crc16Bit (crc16Bit (crc16Bit (crc16Bit (r ^^^ (b.toNat * 256)))))))))

/-- CRC-16/CCITT of bytes (R444). -/
def crc16 (bs : List Byte) : Nat := bs.foldl crc16Byte 0xFFFF

end Sys2Proof.Machine
end

