-- ==== Sys2Proof/Machine/PageGuard.lean ====
section
/-! DEFINITION. When a write to a register page takes effect (R20, R414, R461). -/
namespace Sys2Proof.Machine

/-- The partition whose state a page follows. -/
def PageId.part : PageId → Option PartId
  | .pctl p => some p
  | .qmg p => some p
  | .mc p _ => some p
  | .tile g _ => some (partOf g)
  | _ => none

/-- The page of a gated tile (R461). -/
def pageGated (s : State) : PageId → Bool
  | .tile g _ => (s.reg .pwr (PWR.TILE_GATED (partOf g).val)).testBit (localOf g)
  | _ => false

/-- The page exists in this variant: a second channel group and a second port only where they are fitted (R38). -/
def pageFitted (s : State) : PageId → Bool
  | .mc _ c => c.val < s.variant.groups
  | .link n => n.val < s.variant.ports
  | .peer n => n.val < s.variant.ports
  | _ => true

/-- The page's block is out of reset; outside DEVELOP and SECURED the security block answers while the engine is in reset
(R446; DEDUCED, log entry 150). -/
def pageAwake (s : State) (i : PageId) : Bool :=
  !s.eng.inReset || (i = .sec && s.reg .sec SEC.LC_STATE ≠ 1 && s.reg .sec SEC.LC_STATE ≠ 2)

/-- Writes to the page are not discarded: its partition is in RUN, REPLAY or FAILED (R414; in FAILED its registers are
accessible, R472), its tile is not gated, and the engine is out of reset. -/
def pageWritable (s : State) (i : PageId) : Bool :=
  pageAwake s i && pageFitted s i && !pageGated s i &&
    (match i.part with
     | some p => [0, 6, 7].contains (s.reg .dlw (DLW.STATE p.val))
     | none => true)

/-- A register write with behaviour of its own. -/
def pageWrite (i : PageId) (m : M Unit) : M Unit := do
  if pageWritable (← get) i then m

end Sys2Proof.Machine
end

