-- ==== Sys2Proof/Machine/Lift.lean ====
section
/-! DEFINITION. The lift engine: BOOK, MOVE and ATOMIC, the lift list and the switch list (R78, R136, R149 to R151, R210
to R213, R270 to R275). -/
namespace Sys2Proof.Machine

/-! ### Copying -/

/-- Bytes of the next piece of a copy: up to the next 128-byte boundary of its destination (R211, R271). -/
def pieceLen (dst len done : Nat) : Nat := min (128 - (dst + done) % 128) (len - done)

/-- The bytes that a piece writes: those that fall on the source range are undefined (R211). -/
def pieceBytes (src len a free : Nat) (bs : List Byte) : List Byte :=
  bs.zipIdx.map fun e => if src ≤ a + e.2 ∧ a + e.2 < src + len then Config.freeByte free (a + e.2) else e.1

/-- A component lies outside the range of C8P (R77, R78). -/
def c8pBad (bs : List Byte) : Bool := bs.any fun b => sext 8 b.toNat < -64 || 63 < sext 8 b.toNat

/-- A whole book is written and tagged, once no command in progress names it (R78, R82, R210). -/
def bookTag (g : TileId) (n fmt : Nat) (bs : List Byte) : M Unit := do
  if (← getTile g).bookBusy n then wait
  let bad := fmt = 0xA && c8pBad bs
  modTile g fun t => { t with books := { t.books with
    mem := t.books.mem.write (128 * n) bs
    tags := t.books.tags.put n (if bad then none else some fmt) } }
  if bad then fail Err.bookRange

/-- The reads of the next pieces of a copy, the present one first: address and length. -/
def copyReads (src dst len : Nat) : Nat → Nat → List (Nat × Nat)
  | 0, _ => []
  | k + 1, done =>
    if done < len then
      let n := pieceLen dst len done
      let a := (src + done) % 2 ^ 40
      (wordPieces a n).map (fun p => (a + p.1, p.2)) ++ copyReads src dst len k (done + n)
    else []

/-- The reads from system memory that the lift engine keeps in flight for a copy (R271). -/
def readAhead (r : Req) (src dst len done : Nat) : M Unit := do
  let v := (← get).variant
  sysAhead r.who r.cls ⟨(partOf r.tile).val, by omega⟩ ((copyReads src dst len 32 done).filterMap fun p =>
    match targetOf v r.tile p.1 with
    | some (.sys addr) => some (addr, p.2)
    | _ => none)

/-- A piece's bytes go to tile address `a`; `tag` is the BTAG of its descriptor, 0 for none. -/
def putPiece (g : TileId) (r : Req) (a tag : Nat) (out : List Byte) : M Unit := do
  if tag = 0 then r.write a out
  else
    r.checkRegion (.here .book (a - 0x450000)) .w a out.length
    bookTag g ((a - 0x450000) / 128) tag out
  cnt (.tile g .lft) LFT.LFT_BYTES out.length

/-- One piece of a copy: the bytes read. -/
def copyPiece (g : TileId) (r : Req) (src dst len done tag : Nat) : M (List Byte) := do
  let n := pieceLen dst len done
  readAhead r src dst len done
  let bs ← r.read ((src + done) % 2 ^ 40) n
  let f ← freshNum
  putPiece g r ((dst + done) % 2 ^ 40) tag (pieceBytes src len (dst + done) f bs)
  return bs

/-- One piece of a copy from the firmware's own copy (R280). -/
def placePiece (g : TileId) (r : Req) (copy : List Byte) (dst len done : Nat) : M (List Byte) := do
  let bs := (copy.drop done).take (pieceLen dst len done)
  putPiece g r ((dst + done) % 2 ^ 40) 0 bs
  return bs

/-! ### Lift commands -/

def liftHead (g : TileId) : M (Option (Active × CopyRun)) := do
  let t ← getTile g
  return match t.head .lift with
    | some c => some (c, t.units.copy.getD ⟨0, 0, 0, none⟩)
    | none => none

def setCopy (g : TileId) (r : CopyRun) : M Unit := modUnits g fun u => { u with copy := some r }

/-- The command goes on using only the buffers that what is left of its ranges meets (R131). -/
def narrowBufs (g : TileId) (c : CmdWord) (done : Nat) : M Unit := do
  let left := mvLen c - done
  modHead g .lift fun a => { a with bufs := a.bufs.filter fun b =>
    0 < left && (meetsBuf (mvSrc c + done) left b || meetsBuf (mvDst c + done) left b) }
  settleUnits g

/-- A MOVE that has written a row of its tile's buffer in full writes S and WRITTEN into its state; `start` is where the
unbroken written range begins (R136). -/
def moveRow (g : TileId) (c : CmdWord) (start done : Nat) : M Unit := do
  let e := mvDst c + done
  if 0x400000 < e && e ≤ 0x440000 && e % 512 = 0 && mvDst c + start + 512 ≤ e then
    let o := e - 512 - 0x400000
    let b := o / 0x20000
    let row := o % 0x20000 / 512
    modTile g fun t =>
      let x := t.acc b
      t.setAcc b (x.setRow row { x.row row with s := mvSh c, written := true })

/-- An operation that leaves nothing where it would have to wait. -/
def tryNow (m : M α) : M Bool := fun s =>
  match m s with
  | .ok _ s' => .ok true s'
  | .error .wait _ => .ok false s
  | .error _ s' => .ok false s'

/-- Pieces that the lift engine had issued when a refusal reached it are still carried out (R211). -/
def strayPieces (g : TileId) (c : CmdWord) : Nat → Nat → Nat → M Unit
  | 0, _, _ => pure ()
  | n + 1, start, done => do
    if done < mvLen c then
      let k := pieceLen (mvDst c) (mvLen c) done
      let ok ← tryNow (copyPiece g (ownReq g 3 2) (mvSrc c) (mvDst c) (mvLen c) done 0)
      let start := if ok then start else done + k
      if ok then moveRow g c start (done + k)
      strayPieces g c n start (done + k)

/-- One piece of a MOVE. After a refused piece no further one is issued; up to 32 may have been (R211, R271). -/
def movePiece (g : TileId) (c : CmdWord) (run : CopyRun) : M Unit := do
  let k := pieceLen (mvDst c) (mvLen c) run.done
  match ← catchErr (copyPiece g (ownReq g 3 2) (mvSrc c) (mvDst c) (mvLen c) run.done 0) with
  | .error code =>
    let n := Config.freeBelow (← freshNum) 33
    strayPieces g c n (run.done + k) (run.done + k)
    fail code
  | .ok _ =>
    let done := run.done + k
    moveRow g c 0 done
    setCopy g { run with done }
    narrowBufs g c done
    if done = mvLen c then finishHead g .lift

/-- One book of a BOOK (R210). -/
def bookPiece (g : TileId) (c : CmdWord) (run : CopyRun) : M Unit := do
  let i := run.done / 128
  readAhead (ownReq g 3 2) (bkSrc c) 0 (128 * bkCount c) run.done
  let bs ← (ownReq g 3 2).read ((bkSrc c + 128 * i) % 2 ^ 40) 128
  cnt (.tile g .lft) LFT.LFT_BYTES 128
  bookTag g (bkBook c + i) (bkFmt c) bs
  setCopy g { run with done := run.done + 128 }
  if i + 1 = bkCount c then finishHead g .lift

/-- The target address of row `i` of an ATOMIC (R213). -/
def atRow (c : CmdWord) (i : Nat) : Nat := atDst c + 4 * (i * atPitch c)

/-- Every word that an ATOMIC names lies in partition memory: below the usable capacity here, and within a partition's
window where the memory is another station's (R41, R213). -/
def atInPmem (v : Variant) (c : CmdWord) : Bool :=
  let inside (a : Nat) : Bool :=
    isPmem a && (atRemote c || (a - 0x1000000000) % 0x800000000 + 4 ≤ v.capacity)
  (List.range (nrowsOf c)).all fun i => inside (atRow c i) && inside (atRow c i + 4 * (atLanes c - 1))

/-- A row of addends, split at 64-byte boundaries of the target: address of each burst's first addend, and the addends at
the words of its burst (R303, R350). -/
def addPieces (a : Nat) (us : List Int) : List (Nat × List (Option Int)) :=
  (splitAt 64 a (4 * us.length / 64 + 2) 0 (4 * us.length)).map fun p =>
    (a + p.1, List.replicate ((a + p.1) % 64 / 4) none ++ ((us.drop (p.1 / 4)).take (p.2 / 4)).map some)

/-- One atomic add request of the lift engine; read and write permission (R261). The answer is the reply's SAT. -/
def atomicAccess (g : TileId) (a : Nat) (us : List (Option Int)) : M Bool := do
  let r := ownReq g 3 2
  match targetOf (← get).variant g a with
  | some (.pmem q off) =>
    r.checkRegion (.pmem q off) .a a (4 * (us.filter Option.isSome).length)
    checkOpen (partOf g) q
    passAlone (memWay 3 (pathAt g 3) q (interleave (← get).variant off).1)
    let sat ← mcAtomicOp q 3 off us [] []
    r.acked
    return sat
  | _ => spdRefuse g Err.addrRange 3 3 a

/-- The ATOM_ADD message of row `i` (R339, R349). -/
def atMsg (c : CmdWord) (i : Nat) (bs : List Byte) : Msg :=
  let x := atRow c i - 0x1000000000
  { mkMsg MsgType.atomAdd (atStn c) ⟨x / 0x800000000 % 4, by omega⟩ (x % 0x800000000 + atTag c * 2 ^ 40) bs with
    last := i + 1 = nrowsOf c }

/-- One row of an ATOMIC (R149 to R151, R213, R349). -/
def atomicRow (g : TileId) (c : CmdWord) (run : CopyRun) : M Unit := do
  let p := partOf g
  if ← replaying p then
    cnt .dlw DLW.REPLAY_SUPPRESS 1
    finishHead g .lift
  else
    let i := run.done
    if !atInPmem (← get).variant c then fail Err.addrRange
    let x := (← getTile g).acc (atBuf c)
    let row := row0Of c + i
    let us := (List.range (atLanes c)).map (x.entry row)
    if (x.row row).sat then flagHead g .lift CFlag.accSat
    if atRemote c then
      pisteSend p (atStn c) (atMsg c i (us.flatMap fun u => leBytes 4 (uns 32 u))) (.tile g)
    else
      let sats ← mapAll (addPieces (atRow c i) us) fun q => atomicAccess g q.1 q.2
      if sats.any id then flagHead g .lift CFlag.accSat
    cnt (.tile g .lft) LFT.LFT_BYTES (4 * atLanes c)
    setCopy g { run with done := i + 1 }
    if i + 1 = nrowsOf c then finishHead g .lift

/-- One piece of the head lift command; false where it has to wait. -/
def commandPiece (g : TileId) : M Bool := do
  match ← liftHead g with
  | none => return false
  | some (c, run) =>
    if !c.released then return false
    else
      let m := if c.op = Op.move then movePiece g c.bits run
        else if c.op = Op.book then bookPiece g c.bits run
        else atomicRow g c.bits run
      let ok : M Bool := fun s =>
        match unitStep g .lift m s with
        | .ok _ s' => .ok true s'
        | .error _ s' => .ok false s'
      wr (.tile g .lft) LFT.CMD_BUSY 1
      let b ← ok
      wr (.tile g .lft) LFT.CMD_BUSY (b2n (← getTile g).units.copy.isSome)
      return b

/-! ### Lift lists (R272, R273) -/

/-- An access of a list: lift engine, class 3, checked by the PCC region registers; not the tile's command stream. -/
def listReq (g : TileId) (u : Nat) : Req := ⟨g, 3, 4, false, false, .tile g u⟩

/-- Descriptor `i` of a list: scratchpad or partition memory (R272). -/
def listDesc (g : TileId) (r : Req) (base i : Nat) : M Nat := do
  let a := (base * 32 + 32 * i) % 2 ^ 40
  if a < 0x400000 || isPmem a then r.readNat a 32
  else spdRefuse g Err.addrRange 3 3 a

/-- The descriptor has been copied: CRC check, then its signal (R273). -/
def descEnd (g : TileId) (d crc : Nat) : M Unit := do
  if LiftD.chk d && crc32Final crc ≠ LiftD.crc d then
    cnt (.tile g .lft) LFT.LFT_CRC_ERR 1
    fail Err.liftCrc
  if LiftD.sig d then
    let p := partOf g
    let code ← signalGate p p (LiftD.gate d) .fw 1
    if code ≠ Err.none then fail code

/-- One piece of descriptor `d`, with its end after the last one; `copy` is the firmware's copy where it reads that. -/
def descPiece (g : TileId) (r : Req) (d : Nat) (copy : Option (List Byte)) (run : CopyRun) : M CopyRun := do
  if run.done = 0 && liftBad d then fail Err.liftDesc
  let bs ← match copy with
    | none => copyPiece g r (LiftD.src d) (LiftD.dst d) (LiftD.len d) run.done (LiftD.btag d)
    | some b => placePiece g r b (LiftD.dst d) (LiftD.len d) run.done
  let done := run.done + bs.length
  let crc := crc32Run run.crc bs
  if LiftD.len d ≤ done then
    descEnd g d crc
    return ⟨0, crc32Init, run.idx + 1, none⟩
  else return { run with done, crc }

/-- One micro-operation of a list in memory: its next descriptor is read, or one piece of it copied. -/
def descStep (g : TileId) (r : Req) (base : Nat) (run : CopyRun) : M CopyRun := do
  match run.desc with
  | none => return { run with desc := some (← listDesc g r base run.idx), done := 0, crc := crc32Init }
  | some d => descPiece g r d none run

/-! ### Placement lists (R280) -/

/-- The placement list that the lift engine runs as its lift list. -/
def Units.load (u : Units) : Option LoadRun := if u.loading then u.loads.head? else none

/-- One micro-operation of a placement list. -/
def loadStep (g : TileId) (l : LoadRun) (run : CopyRun) : M CopyRun := do
  let d := l.descs[run.idx]?
  match run.desc with
  | none => return { run with desc := d.map LoadDesc.desc, done := 0, crc := crc32Init }
  | some x => descPiece g (listReq g 4) x (d.bind LoadDesc.copy) run

/-- One micro-operation of the lift list. -/
def listStep (g : TileId) (run : CopyRun) : M CopyRun := do
  match (← getTile g).units.load with
  | some l => loadStep g l run
  | none => descStep g (listReq g 4) (← rd (.tile g .lft) LFT.LIST_BASE) run

/-- The descriptors of the lift list. -/
def listLen (s : State) (g : TileId) : Nat :=
  match (s.tile g).units.load with
  | some l => l.descs.length
  | none => s.reg (.tile g .lft) LFT.LIST_CNT

def modModel (h : Nat) (f : Model → Model) : M Unit :=
  modEng fun e => { e with models := e.models.map fun x => if x.handle = h then f x else x }

/-- A placement list has ended: without an error its last descriptor signals the model's load gate. -/
def loadEnds (g : TileId) (code : Nat) : M Unit := do
  match (← getTile g).units.load with
  | none => pure ()
  | some l =>
    modUnits g fun u => { u with loads := u.loads.tail }
    modModel l.handle fun x =>
      if code = Err.none then { x with loadGate := x.loadGate + 1 }
      else { x with loadErr := if x.loadErr = Err.none then code else x.loadErr }

/-- The firmware starts the oldest placement list of a tile as its lift list, once no other list runs; where it has put the
list is open (R272, R280; log entry 142). -/
def startLoad (g : TileId) : M Unit := do
  let pg : PageId := .tile g .lft
  match (← getTile g).units.loads with
  | [] => pure ()
  | l :: _ =>
    if (← rd pg LFT.LIST_BUSY) = 0 then
      wr pg LFT.LIST_BASE (Config.freeNat (← freshNum))
      wr pg LFT.LIST_CNT l.descs.length
      wr pg LFT.LIST_DONE 0
      wr pg LFT.LIST_ERR_CODE 0
      wr pg LFT.LIST_ERR_IDX 0
      modUnits g fun u => { u with list := some ⟨0, crc32Init, 0, none⟩, listAbort := false, loading := true }
      wr pg LFT.LIST_BUSY 1

/-- A descriptor's gate enters its error state where the descriptor signals it (R273). -/
def descFail (g : TileId) (run : CopyRun) (code : Nat) : M Unit := do
  logErr (.tile g .lft) code 3 0 (run.idx % 2 ^ 16)
  match run.desc with
  | some d => if LiftD.sig d then gateError (partOf g) (LiftD.gate d)
  | none => pure ()

/-- The lift list has ended. -/
def listStop (g : TileId) : M Unit := do
  modUnits g fun u => { u with list := none, listAbort := false, loading := false }
  disown (.tile g 4) (partOf g)
  wr (.tile g .lft) LFT.LIST_BUSY 0

/-- One micro-operation of the lift list; false where it has to wait. LFT_LIST_BASE and LFT_LIST_CNT are read as they stand:
R272 and R285 do not say that START latches them (DESIGN CHOICE, log entry 139). Of a descriptor whose piece is refused no
piece after it is carried out: R273 stops the list there and does not say whether pieces had been issued (DESIGN CHOICE,
log entry 170). -/
def listPiece (g : TileId) : M Bool := fun s =>
  let pg : PageId := .tile g .lft
  match (s.tile g).units.list with
  | none => .ok false s
  | some run =>
    let m : M Unit := do
      match ← catchErr (settle (listStep g run)) with
      | .ok r =>
        modUnits g fun u => { u with list := some r }
        if r.idx ≠ run.idx then
          wr pg LFT.LIST_DONE r.idx
          if listLen s g ≤ r.idx then
            loadEnds g Err.none
            listStop g
            raise pg 0
        if (← getTile g).units.listAbort then listStop g
      | .error code =>
        wr pg LFT.LIST_ERR_CODE code
        wr pg LFT.LIST_ERR_IDX run.idx
        descFail g run code
        loadEnds g code
        listStop g
        raise pg 1
    match m s with
    | .ok _ s' => .ok true s'
    | .error _ s' => .ok false s'

/-! ### The switch list (R274) -/

/-- The active switch list starts; a count of 0 runs nothing. -/
def startSwitch (g : TileId) : M Unit := do
  if (← rd (.tile g .lft) LFT.SW_CNT.active) ≠ 0 then
    modUnits g fun u => { u with switch := some ⟨0, crc32Init, 0, none⟩ }
    wr (.tile g .lft) LFT.SW_BUSY 1

/-- The switch list has ended. -/
def switchStop (g : TileId) : M Unit := do
  modUnits g fun u => { u with switch := none }
  disown (.tile g 7) (partOf g)
  wr (.tile g .lft) LFT.SW_BUSY 0

/-- An error of the switch list stops the tile before the first command of the incoming job (R274). -/
def switchFail (g : TileId) (code : Nat) : M Unit := do
  switchStop g
  if listRuns (← get) g then failed g (← getTile g).seq.accepted (← rd (.tile g .tl) TL.TL_PC) 0 code
  else modUnits g fun u => { u with switchErr := code }

/-- One micro-operation of the switch list, whose descriptors and base are in scratchpad; false where it has to wait. -/
def switchPiece (g : TileId) : M Bool := fun s =>
  let pg : PageId := .tile g .lft
  match (s.tile g).units.switch with
  | none => .ok false s
  | some run =>
    let m : M Unit := do
      match ← catchErr (settle (descStep g (listReq g 7) (s.reg pg LFT.SW_BASE.active) run)) with
      | .ok r =>
        modUnits g fun u => { u with switch := some r }
        if min 64 (s.reg pg LFT.SW_CNT.active) ≤ r.idx then switchStop g
      | .error code =>
        wr pg LFT.LIST_ERR_CODE code
        wr pg LFT.LIST_ERR_IDX run.idx
        descFail g run code
        raise pg 1
        switchFail g code
    match m s with
    | .ok _ s' => .ok true s'
    | .error _ s' => .ok false s'

/-! ### Priority (R270) -/

/-- The turn of 4 KiB after a piece of `n` bytes; without a rival a command's turn begins. -/
def takeTurn (g : TileId) (list both : Bool) (n : Nat) : M Unit :=
  modUnits g fun u =>
    let b := (if u.turnList = list then u.turnBytes else 0) + n
    if !both then { u with turnList := false, turnBytes := 0 }
    else if b ≥ 4096 then { u with turnList := !list, turnBytes := 0 }
    else { u with turnList := list, turnBytes := b }

/-- One piece of the lift engine's work: the switch list first; then the fetch that a sequencer with no command read ahead
is waiting for (log entry 140); lift commands and the lift list in turns (R270, R271). False where nothing can be done. -/
def liftPieceOp (g : TileId) : M Bool := do
  if (← getTile g).units.switch.isSome then switchPiece g
  else
    if (← getTile g).seq.ahead = [] then attempt (fetchOp g)
    let u := (← getTile g).units
    let cmd := (u.lift.head?).any fun c => c.released
    let both := cmd && u.list.isSome
    let list := u.list.isSome && (!cmd || u.turnList)
    let before ← rd (.tile g .lft) LFT.LFT_BYTES
    let ok ← if list then listPiece g else commandPiece g
    let moved := (← rd (.tile g .lft) LFT.LFT_BYTES) - before
    if ok then takeTurn g list both moved
    return ok

/-- The most pieces that any one command, descriptor or list can take with a rival in turns. -/
def liftFuel : Nat := 1000000

/-- A lift command is accepted and carried through as far as it can be. -/
def liftRow (g : TileId) (op : Nat) : M Unit := do
  acceptFor g op .lift
  match (← getTile g).head .lift with
  | some c =>
    if c.op = op then
      repeatM liftFuel (do
        let ok ← liftPieceOp g
        return ok && ((← getTile g).head .lift).any fun x => x.num = c.num)
  | none => pure ()

/-- BOOK (R210). -/
def execBook (g : TileId) (s : State) : Host.Outcome State Fault Refusal := M.next (liftRow g Op.book) s
/-- MOVE (R211). -/
def execMove (g : TileId) (s : State) : Host.Outcome State Fault Refusal := M.next (liftRow g Op.move) s
/-- ATOMIC (R213). -/
def execAtomic (g : TileId) (s : State) : Host.Outcome State Fault Refusal := M.next (liftRow g Op.atomic) s

/-- LFT_START (R272, R285): ignored while a list runs. A count of 0 names no descriptor. -/
def startListOp (g : TileId) : M Unit := do
  let pg : PageId := .tile g .lft
  if (← rd pg LFT.LIST_BUSY) = 0 then
    wr pg LFT.LIST_DONE 0
    wr pg LFT.LIST_ERR_CODE 0
    wr pg LFT.LIST_ERR_IDX 0
    if (← rd pg LFT.LIST_CNT) ≠ 0 then
      modUnits g fun u => { u with list := some ⟨0, crc32Init, 0, none⟩, listAbort := false }
      wr pg LFT.LIST_BUSY 1

/-- The list waits in the middle of a piece for the system port. -/
def listInPiece (s : State) (g : TileId) : Bool := s.eng.sys.reqs.any fun r => r.who = .tile g 4

/-- LFT_START. -/
def execLftStart (g : TileId) (s : State) : Host.Outcome State Fault Refusal :=
  M.next (pageWrite (.tile g .lft) (startListOp g)) s

/-- A write of LFT_GO.ABORT (R273, R285): the list stops at its next piece boundary. -/
def abortListOp (g : TileId) : M Unit := do
  if (← getTile g).units.list.isSome then
    if listInPiece (← get) g then modUnits g fun u => { u with listAbort := true }
    else listStop g

/-- LFT_ABORT. -/
def execLftAbort (g : TileId) (s : State) : Host.Outcome State Fault Refusal :=
  M.next (pageWrite (.tile g .lft) (abortListOp g)) s

/-- LIFT_DESCRIPTOR (R273): the lift list's present descriptor is carried through as far as it can be. -/
def execLiftDescriptor (g : TileId) (s : State) : Host.Outcome State Fault Refusal :=
  M.next (do
    match (← getTile g).units.list with
    | some r =>
      repeatM liftFuel (do
        let ok ← liftPieceOp g
        return ok && ((← getTile g).units.list).any fun x => x.idx = r.idx)
    | none => pure ()) s

/-- LIFT_PIECE (R271). -/
def execLiftPiece (g : TileId) (s : State) : Host.Outcome State Fault Refusal :=
  M.next (liftPieceOp g) s

/-- SWITCH_LIST_RUN (R274). -/
def execSwitchListRun (g : TileId) (s : State) : Host.Outcome State Fault Refusal :=
  M.next (repeatM liftFuel (switchPiece g)) s

end Sys2Proof.Machine
end

