-- ==== Sys2Proof/Machine/Events.lean ====
section
/-! DEFINITION. Firmware events and their records in the log and trace rings (R391 to R393, R486), events of the whole
engine, and the pairs of pairs mode (R422, R423, R428). -/
namespace Sys2Proof.Machine

/-- A log record of 64 bytes (R391). -/
def logRecord (seq p oc : Nat) (e : FwEvent) (more : List Nat) : List Byte :=
  leBytes 4 seq ++ leBytes 4 (e.event + e.sev * 65536 + p * 16777216) ++ leBytes 8 oc ++ leBytes 8 e.err ++
    leBytes 8 e.arg ++ more.flatMap (leBytes 8)

/-- The trace record of a firmware event; in HOLD mode a full ring drops it (R392). -/
def traceEvent (p : PartId) (who : Who) (e : FwEvent) : M Unit := do
  if (← rd (.pctl p) PCTL.TR_MODE) = 1 && traceFull (← get) p then cnt (.pctl p) PCTL.TR_LOST 1
  else
    let oc ← rd (.pctl p) PCTL.OC_NOW
    pccPost p who (trAddr (← get) p) (traceRecord e.event 15 p.val true false 0 e.arg oc 0 0)
    traceAdvance p

/-- The firmware of partition `p`, or the engine manager core for it, writes one event; the four arguments after the first are open (log entry 4). -/
def writeEvent (p : PartId) (who : Who) (e : FwEvent) : M Unit := do
  let s ← get
  let seq := s.reg (.pctl p) PCTL.LG_HEAD
  let more ← mapAll (List.range 4) fun _ => freeArg
  pccPost p who (ringAddr (s.reg (.pctl p) PCTL.LG_BASE) (s.reg (.pctl p) PCTL.LG_LOG2) 64 seq)
    (logRecord seq p.val (s.reg (.pctl p) PCTL.OC_NOW) e more)
  wr (.pctl p) PCTL.LG_HEAD (seq + 1)
  traceEvent p who e

/-- The firmware of partition `p`, once it runs, writes the events that wait. -/
def writeEvents (p : PartId) : M Unit := do
  if (← rd (.pctl p) PCTL.FW_READY) = 1 then
    let es := (← getPart p).events
    modPart p fun x => { x with events := [] }
    forAll es (writeEvent p (.gone p))

/-- The first argument of an event that holds two values: the second from bit 32 on, as R393 lays its own out (DESIGN
CHOICE, log entry 144). -/
def twoArgs (a b : Nat) : Nat := a + b * 2 ^ 32

/-- A command after which every running firmware has written its events. -/
def fwNext (m : M Unit) (s : State) : Host.Outcome State Fault Refusal :=
  M.next (do
    attempt m
    forAll (List.finRange 4) writeEvents) s

/-- An event that concerns the engine as a whole (R486). -/
def postAll (event sev err arg : Nat) : M Unit := forAll (List.finRange 4) fun p => postRunning p event sev err arg

/-! ### Pairs mode (R423) -/
namespace Pair
def none_ : Nat := 0
def dual : Nat := 1
def singleA : Nat := 2
def singleB : Nat := 3
def down : Nat := 4
end Pair

/-- Pair `k` takes a status: a change counts, writes event 0x0105, and raises PAIR_DOWN, or PAIR_SINGLE where the
transition says so (R423, R428, R469). -/
def setPair (k st : Nat) (single : Bool) : M Unit := do
  if (← rd .dlw (DLW.STATUS k)) ≠ st then
    wr .dlw (DLW.STATUS k) st
    cnt .dlw (DLW.PAIR_FLIPS k) 1
    if single then raise .dlw 5
    if st = Pair.down then
      raise .dlw 6
      alertChange (wr .pwr PWR.SRC_PAIR_DOWN 1)
    postAll 0x0105 (if st = Pair.down then 2 else 1) Err.none (twoArgs k st)

/-- Partition `p` enters FENCE or OFF (R423). -/
def pairsLeave (p : PartId) : M Unit :=
  forAll (List.range 8) fun k => do
    let st ← rd .dlw (DLW.STATUS k)
    let a := (← rd .dlw (DLW.A_PART k)) = p.val
    let b := (← rd .dlw (DLW.B_PART k)) = p.val
    if st = Pair.dual then
      if a then setPair k Pair.singleB true else if b then setPair k Pair.singleA true
    else if (st = Pair.singleA && a) || (st = Pair.singleB && b) then setPair k Pair.down false

/-- Queue `q` of partition `p`, in RUN and not in ERROR, has started an instance (R423). A return raises no
interrupt. -/
def pairsReturn (p : PartId) (q : Nat) : M Unit :=
  forAll (List.range 8) fun k => do
    let st ← rd .dlw (DLW.STATUS k)
    let a := (← rd .dlw (DLW.A_PART k)) = p.val && (← rd .dlw (DLW.A_QUEUE k)) = q
    let b := (← rd .dlw (DLW.B_PART k)) = p.val && (← rd .dlw (DLW.B_QUEUE k)) = q
    if (st = Pair.singleA && b) || (st = Pair.singleB && a) then setPair k Pair.dual false
    else if st = Pair.down then
      if a then setPair k Pair.singleA false else if b then setPair k Pair.singleB false

end Sys2Proof.Machine
end

