-- ==== Sys2Proof/Machine/GateOps.lean ====
section
/-! DEFINITION. The commands on gates: GT_SIGNAL and the operations of GT_OP (R361 to R367, R396). -/
namespace Sys2Proof.Machine

/-- The bank of GT_SEL, GT_ARG, GT_ARG2 and GT_RES that a class has (R396). -/
def classBank : SrcClass → Option Nat
  | .host => some 0
  | .xsrc => some 1
  | .fw => some 2
  | .other => none
  | .debug => none
  | .vendor => none

/-- The source class of a write to GT_SIGNAL (R362). -/
def classSignaler : SrcClass → Signaler
  | .host => .host
  | .xsrc => .xsrc
  | .fw => .fw
  | .other => .other
  | .debug => .other
  | .vendor => .other

/-- `r` names a gate: partition gates 0 to 1,023, global gates 0 to 255 (R361). -/
def gateInRange (r : GateRef) : Bool := if r.global then r.index < 256 else r.index < 1024

/-- CREATE (R367). -/
def gateCreate (p : PartId) (r : GateRef) (value cfg : Nat) : M Nat := do
  if !gateInRange r then return Err.gateId
  else if (← getGate p r).valid then return Err.gateBusy
  else if cfgBad cfg r.global then return Err.cmdField
  else
    putGate p r (newGate cfg value)
    return Err.none

/-- DESTROY (R367). -/
def gateDestroy (p : PartId) (r : GateRef) : M Nat := do
  if !(← getGate p r).valid then return Err.gateId
  else if gateInUse (← get) p r then return Err.gateBusy
  else
    putGate p r .none_
    return Err.none

/-- SET (R367). -/
def gateSet (p : PartId) (r : GateRef) (value : Nat) : M Nat := do
  let x ← getGate p r
  if !x.valid then return Err.gateId
  else
    putGate p r { x with value := value % 2 ^ 64 }
    if x.value ≠ value % 2 ^ 64 then boundaryWatch p r
    retest p r
    return Err.none

/-- CLR_ERR (R367). -/
def gateClrErr (p : PartId) (r : GateRef) : M Nat := do
  let x ← getGate p r
  if !x.valid then return Err.gateId
  else
    putGate p r { x with err := false }
    return Err.none

/-- SET_ERR (R367). -/
def gateSetErr (p : PartId) (r : GateRef) : M Nat := do
  if !(← getGate p r).valid then return Err.gateId
  else
    gateError p r
    return Err.none

/-- A write to GT_OP: only the FW class operates on gates; GT_RES of the writer's bank takes the result (R367). -/
def gateOp (p : PartId) (cls : SrcClass) (op : M Nat) : M Unit :=
  pageWrite (.qmg p) (do
    match classBank cls with
    | none => pure ()
    | some b =>
      let code ← if cls = SrcClass.fw then op else pure Err.gateMask
      wr (.qmg p) (QMG.GT_RES b) code)

/-- GT_ARG of the FW class's bank. -/
def fwArg (s : State) (p : PartId) : Nat := s.reg (.qmg p) (QMG.GT_ARG 2)
/-- GT_ARG2 of the FW class's bank. -/
def fwArg2 (s : State) (p : PartId) : Nat := s.reg (.qmg p) (QMG.GT_ARG2 2)

/-- A write to GT_SIGNAL; an increment of 0 does nothing. -/
def gtSignalOp (p : PartId) (cls : SrcClass) (gate : GateRef) (inc : Nat) : M Unit := do
  if inc ≠ 0 then
    let _ ← signalGate p p gate (classSignaler cls) inc

/-- GT_SIGNAL (R362 to R364, R396). -/
def execGtSignal (p : PartId) (cls : SrcClass) (gate : GateRef) (inc : BitVec 32) (s : State) :
    Host.Outcome State Fault Refusal :=
  M.next (pageWrite (.qmg p) (gtSignalOp p cls gate inc.toNat)) s

/-- CREATE (R367). -/
def execCreate (p : PartId) (cls : SrcClass) (gate : GateRef) (s : State) : Host.Outcome State Fault Refusal :=
  M.next (gateOp p cls (gateCreate p gate (fwArg s p) (fwArg2 s p))) s

/-- DESTROY (R367). -/
def execDestroy (p : PartId) (cls : SrcClass) (gate : GateRef) (s : State) : Host.Outcome State Fault Refusal :=
  M.next (gateOp p cls (gateDestroy p gate)) s

/-- SET (R367). -/
def execSet (p : PartId) (cls : SrcClass) (gate : GateRef) (s : State) : Host.Outcome State Fault Refusal :=
  M.next (gateOp p cls (gateSet p gate (fwArg s p))) s

/-- CLR_ERR (R367). -/
def execClrErr (p : PartId) (cls : SrcClass) (gate : GateRef) (s : State) : Host.Outcome State Fault Refusal :=
  M.next (gateOp p cls (gateClrErr p gate)) s

/-- SET_ERR (R367). -/
def execSetErr (p : PartId) (cls : SrcClass) (gate : GateRef) (s : State) : Host.Outcome State Fault Refusal :=
  M.next (gateOp p cls (gateSetErr p gate)) s

end Sys2Proof.Machine
end

