-- ==== Sys2Proof/Machine/RegMap.lean ====
section
/-! DEFINITION. The register window and the fields of its pages (R35 to R38, R472, R480), the boundary swap of RWS fields
(R21, R265, R274, R382), and SWAP_REVERT and CNT_CLR (R472, R475). -/
namespace Sys2Proof.Machine

/-- The page with number `n`, which begins at window offset n × 0x1000 (R35 to R37). -/
def pageOf (n : Nat) : Option PageId :=
  if n = 0 then some .eng
  else if n = 1 then some .dlw
  else if n = 2 then some (.link 0)
  else if n = 3 then some (.peer 0)
  else if n = 4 then some (.link 1)
  else if n = 5 then some (.peer 1)
  else if n = 8 then some .sec
  else if n = 9 then some .pwr
  else if h : 0x100 ≤ n ∧ n < 0x2100 then
    let p : PartId := ⟨(n - 0x100) / 0x800, by omega⟩
    let r := (n - 0x100) % 0x800
    if r = 0 then some (.pctl p)
    else if r = 2 then some (.qmg p)
    else if r = 0x10 then some (.mc p 0)
    else if r = 0x11 then some (.mc p 1)
    else if h2 : 0x20 ≤ r ∧ r < 0xE0 then
      let g := tileAt p ⟨(r - 0x20) / 16, by omega⟩
      match (r - 0x20) % 16 with
      | 0 => some (.tile g .tl)
      | 1 => some (.tile g .lut)
      | 2 => some (.tile g .acc)
      | 3 => some (.tile g .cnv)
      | 4 => some (.tile g .rot)
      | 5 => some (.tile g .spd)
      | 6 => some (.tile g .lft)
      | 7 => some (.tile g .dbg)
      | _ => none
    else none
  else none

/-- The page with number `n`, where this variant fits it (R38). -/
def fittedPage (s : State) (n : Nat) : Option PageId :=
  match pageOf n with
  | some i => if pageFitted s i then some i else none
  | none => none

/-- The block's own fields of a page; the rings and windows of PEER exist on port 0 only (R360). -/
def PageId.ownFields : PageId → List Fld
  | .eng => ENG.fields
  | .dlw => DLW.fields
  | .sec => SEC.fields
  | .pwr => PWR.fields
  | .link _ => LINK.fields
  | .peer n => if n = 0 then PEER.fields else PEER.fields.filter fun f => f.off < 0x100
  | .pctl _ => PCTL.fields
  | .qmg _ => QMG.fields
  | .mc _ _ => MC.fields
  | .tile _ .tl => TL.fields
  | .tile _ .lut => LUT.fields
  | .tile _ .acc => ACC.fields
  | .tile _ .cnv => CNV.fields
  | .tile _ .rot => ROT.fields
  | .tile _ .spd => SPD.fields
  | .tile _ .lft => LFT.fields
  | .tile _ .dbg => DBG.fields

/-- Every field of a page, header included (R472). -/
def PageId.fields (i : PageId) : List Fld := HDR.fields ++ i.ownFields

/-- CAP_RWS: the page holds RWS fields (R480). -/
def PageId.hasRws : PageId → Bool
  | .tile _ .tl => true
  | .tile _ .cnv => true
  | .tile _ .rot => true
  | .tile _ .spd => true
  | .tile _ .lft => true
  | _ => false

/-- The RWS fields of a page. -/
def PageId.rws (i : PageId) : List Fld := if i.hasRws then i.ownFields.filter fun f => f.acc = .rws else []

/-- The RC counters of a page. -/
def PageId.counters (i : PageId) : List Fld := i.fields.filter fun f => f.acc = .rc

/-! ### The swap -/

/-- Every active copy of the page takes its pending value (R21), and SWAP_CNT counts the swap (R472). -/
def swapBank (i : PageId) (b : Bank) : Bank :=
  let b1 := i.rws.foldl (fun b f => b.set f.active (b.get f)) b
  if i.hasRws then b1.set HDR.SWAP_CNT (b1.get HDR.SWAP_CNT + 1) else b1

/-- Every pending copy of the page takes its active value (R472). -/
def revertBank (i : PageId) (b : Bank) : Bank := i.rws.foldl (fun b f => b.set f (b.get f.active)) b

/-- Some pending copy differs from its active copy (R472). -/
def diffBank (i : PageId) (b : Bank) : Bool := i.rws.any fun f => b.get f ≠ b.get f.active

/-- A pending bank state of 3 is discarded (R265). -/
def dropReserved (b : Bank) : Bank :=
  (List.range 16).foldl (fun b k => if b.get (SPD.BANK_PWR k) = 3 then b.set (SPD.BANK_PWR k) (b.get (SPD.BANK_PWR k).active)
    else b) b

/-- Bank `k` of tile `g` becomes zeros with valid check symbols (R265, R266). -/
def zeroBank (g : TileId) (k : Nat) : M Unit :=
  modSpd g fun x => { x with
    data := x.data.zero (k * 0x40000) 0x40000
    chk := x.chk.zero (k * 0x6000) 0x6000
    fixups := x.fixups.filter fun f => f.1 / 8192 ≠ k }

/-- What a bank does when its active state goes from `a` to `b` (R265); in a gated tile a bank that is not OFF is held in
retention (R461). The content of a bank that goes OFF is lost, and what it holds when it leaves OFF is zero. R265 has no row
for a bank that a swap sends to RETENTION while it still wakes: it goes on waking, holds accesses, and then enters RETENTION
(DESIGN CHOICE, log entry 171). -/
def bankChange (g : TileId) (k a b : Nat) : M Unit := do
  if a ≠ b then
    let f := SPD.BANK_STAT k
    let pg : PageId := .tile g .spd
    let gated := pageGated (← get) pg
    if b = 2 then
      zeroBank g k
      wr pg f 2
    else if gated then wr pg f 1
    else if b = 1 then
      if (← rd pg f) ≠ 3 then wr pg f 1
    else wr pg f 3

/-- The swap of one page, with what it sets off: bank transitions (R265) and the switch list (R274). -/
def swapPage (i : PageId) : M Unit := do
  let old := (← get).bank i
  match i with
  | .tile g .spd =>
    modify fun s => s.setBank i (swapBank i (dropReserved old))
    forAll (List.range 16) fun k => do
      bankChange g k (old.get (SPD.BANK_PWR k).active) (← rd i (SPD.BANK_PWR k).active)
    spdRelease g
  | .tile g .lft =>
    modify fun s => s.setBank i (swapBank i old)
    let changed := [LFT.SW_BASE, LFT.SW_CNT, LFT.SEQ].any fun f => old.get f ≠ old.get f.active
    if changed && !pageGated (← get) i then startSwitch g
  | _ => modify fun s => s.setBank i (swapBank i old)

/-- The pages of partition `p` that hold RWS fields. -/
def rwsPages (p : PartId) : List PageId :=
  (tilesOf p).flatMap fun g => [.tile g .tl, .tile g .cnv, .tile g .rot, .tile g .spd, .tile g .lft]

/-- The swap of a boundary: every page of the partition (R382 event 5, R383). -/
def swapAll (p : PartId) : M Unit := forAll (rwsPages p) swapPage

/-! ### Rows that act on a page as a whole -/

/-- A write that the row's page takes, where the page exists. -/
def onPage (page : Nat) (m : PageId → M Unit) : M Unit := do
  match fittedPage (← get) page with
  | some i => pageWrite i (m i)
  | none => pure ()

/-- SWAP_REVERT (R472): ignored by a page without RWS fields (R475). -/
def execSwapRevert (page : Nat) (s : State) : Host.Outcome State Fault Refusal :=
  M.next (onPage page fun i => modify fun s => s.setBank i (revertBank i (s.bank i))) s

/-- Fields of a bank are cleared. -/
def clearFields (l : List Fld) (b : Bank) : Bank := l.foldl (fun b f => b.set f 0) b

/-- The partitions whose TJ_PEAK is among cleared fields begin a new peak (R471). -/
def newPeaks (cleared : List Fld) : M Unit :=
  forAll (List.range 4) fun p =>
    if PWR.TJ_PEAK p ∈ cleared then modEng fun e => { e with tjUnread := e.tjUnread ||| 2 ^ p } else pure ()

/-- RC fields of a page are cleared, by a read or by CNT_CLR (R17, R472). -/
def clearRc (i : PageId) (l : List Fld) : M Unit := do
  modify fun s => s.setBank i (clearFields l (s.bank i))
  if i = .pwr then newPeaks l

/-- CNT_CLR (R472, R475). -/
def execCntClr (page : Nat) (s : State) : Host.Outcome State Fault Refusal :=
  M.next (onPage page fun i => clearRc i i.counters) s

end Sys2Proof.Machine
end

