-- ==== Sys2Proof/Machine/Queue.lean ====
section
/-! DEFINITION. The queue manager: doorbells, heads, dispatch, standing chains, completion records, boundaries
(R368 to R383, R461, R462). -/
namespace Sys2Proof.Machine

/-! ### Descriptors (R370, R371) -/
namespace JobD
def type (d : Nat) : Nat := bitsAt d 0 8
def compl (d : Nat) : Bool := bitAt d 8
def irq (d : Nat) : Bool := bitAt d 9
def serial (d : Nat) : Bool := bitAt d 10
def pair (d : Nat) : Bool := bitAt d 11
def csig (d : Nat) : Bool := bitAt d 12
def cglobal (d : Nat) : Bool := bitAt d 13
def tmask (d : Nat) : Nat := bitsAt d 32 12
def list (d : Nat) : Nat := bitsAt d 64 40
def lstride (d : Nat) : Nat := bitsAt d 128 24
def cgate (d : Nat) : Nat := bitsAt d 160 10
def jobId (d : Nat) : Nat := bitsAt d 192 32
def seq (d : Nat) : Nat := bitsAt d 224 32

/-- The completion gate. -/
def gate (d : Nat) : GateRef := ⟨cgate d, cglobal d⟩

/-- A reserved bit is set. -/
def reserved (d : Nat) : Bool :=
  [(14, 18), (44, 20), (104, 24), (152, 8), (170, 22), (256, 256)].any fun f => bitsAt d f.1 f.2 ≠ 0

/-- The descriptor is refused with ERR_JOB_DESC (R371). -/
def bad (d : Nat) : Bool :=
  (type d ≠ 1 && type d ≠ 2) || reserved d || (type d = 1 && tmask d = 0) || list d % 16 ≠ 0 || lstride d % 16 ≠ 0 ||
    (cglobal d && cgate d > 255)

/-- The lowest tile of TMASK. -/
def low (d : Nat) : Nat := ((List.range 12).find? (tmask d).testBit).getD 0

/-- The list of local tile `t` (R370). -/
def listOf (d t : Nat) : Nat := (list d + (t - low d) * lstride d) % 2 ^ 40
end JobD

/-- The tiles of a job: none for NOP. -/
def jobTiles (p : PartId) (d : Nat) : List TileId := if JobD.type d = 1 then tilesIn p (JobD.tmask d) else []

/-- A model's ranges hold tile address `a` as tile `g` sees it (R420). -/
def Model.coversList (m : Model) (v : Variant) (g : TileId) (a : Nat) : Bool :=
  match targetOf v g a with
  | some (.here .spd off) => m.tiles.any fun t => t.tile = g.val ∧ t.spdBase ≤ off ∧ off < t.spdBase + t.spdBytes
  | some (.pmem q off) => m.parts.any fun x => x.part = q.val ∧ x.pmem0 ≤ off ∧ off < x.pmem0 + x.pmemBytes
  | _ => false

/-- A model that holds a command list of the job. -/
def modelOfJob (s : State) (p : PartId) (d : Nat) (ok : Model → Bool) : Option Model :=
  s.eng.models.find? fun m => ok m && (jobTiles p d).any fun g => m.coversList s.variant g (JobD.listOf d (localOf g))

/-- The code with which a descriptor is refused (R371, R420, R426). -/
def jobRefusal (s : State) (p : PartId) (d : Nat) : Nat :=
  if JobD.bad d then Err.jobDesc
  else if (jobTiles p d).any fun g => s.eng.faulted.contains g.val then Err.tileFaulted
  else if (modelOfJob s p d fun m => m.status = 2).isSome then Err.quarantined
  else Err.none

/-! ### Queues -/

def qr (s : State) (p : PartId) (f : Fld) : Nat := s.reg (.qmg p) f

namespace QState
def disabled : Nat := 0
def active : Nat := 1
def draining : Nat := 2
def error : Nat := 3
def quiesced : Nat := 4
end QState

def Part.chain (x : Part) (q : Nat) : Chain := (x.chains.look q).getD ⟨0, false, none, none⟩
def modChain (p : PartId) (q : Nat) (f : Chain → Chain) : M Unit :=
  modPart p fun x => { x with chains := x.chains.put q (some (f (x.chain q))) }

/-- L of a standing chain (R378). -/
def chainLen (s : State) (p : PartId) (q : Nat) : Nat :=
  let n := qr s p (QMG.STD_LEN q)
  if n = 0 then 65536 else n

/-- The arming gate of a chain. -/
def armGate (s : State) (p : PartId) (q : Nat) : GateRef :=
  ⟨qr s p (QMG.STD_FGATE q), qr s p (QMG.STD_FGLOBAL q) = 1⟩

/-- Armed instances that have not started where the arming gate holds `v`, as a difference of 64-bit counts; 0 where it would
be negative (R378, R380). -/
def lagAt (s : State) (p : PartId) (q v : Nat) : Nat :=
  let d := (v + 2 ^ 65 - qr s p (QMG.STD_FBASE q) - qr s p (QMG.STD_SEQ q)) % 2 ^ 64
  if d < 2 ^ 63 then d else 0

/-- STD_LAG of a chain, as far as its arming gate exists. -/
def chainLag (s : State) (p : PartId) (q : Nat) : Nat :=
  let g := s.gate p (armGate s p q)
  if g.valid then lagAt s p q g.value else 0

/-- A job of the queue's chain is dispatched and has not completed (R377). -/
def Part.chainBusy (x : Part) (q : Nat) : Bool :=
  (x.jobs.any fun j => j.queue = q && j.inst.isSome && !j.ended) ||
    x.suspects.any fun y => y.job.queue = q && y.job.inst.isSome

/-- The firmware carries out UNBIND_STANDING of the queue: its next instance does not start (R387). -/
def Part.unbinding (x : Part) (q : Nat) : Bool :=
  x.fw.any fun c => bitsAt c.bits 0 8 = 0x07 && bitsAt c.bits 64 4 = q

/-- The next instance of a chain may start, as far as its arming gate, held writes, the host state, UNBIND_STANDING and a
restriction that has ended go (R377, R378, R387, R388, R465). -/
def mayStart (s : State) (p : PartId) (q : Nat) : Bool :=
  let x := s.part p
  chainLag s p q ≠ 0 && !(x.chainWrites.any fun w => w.queue = q) && !x.unbinding q && (x.chain q).due.isNone &&
    (s.reg (.pctl p) PCTL.HOST = 0 || (x.grace.look q).getD 0 < s.reg (.pctl p) PCTL.HOST_GRACE)

/-- A tile of the partition still runs the job. -/
def jobRuns (s : State) (p : PartId) (j : Job) : Bool := (tilesOf p).any fun g => ((s.tile g).job).any fun k => k.id = j.id

/-- A job of the queue's chain has ended with an error and is about to complete (R381). -/
def chainFailed (s : State) (p : PartId) (q : Nat) : Bool :=
  (s.part p).jobs.any fun j => j.queue = q && j.inst.isSome && !j.ended && j.status ≠ Err.none && !jobRuns s p j

/-- The oldest undispatched descriptor of a queue: DESC_INDEX, ring entry, instance with position, and a clear suspect
that is dispatched again (R372, R378, R421). -/
structure Head where
  index : Nat
  entry : Nat
  inst : Option (Nat × Nat)
  again : Option Job
  deriving DecidableEq, Repr

/-- What an enabled queue offers (R372). -/
def headOf (s : State) (p : PartId) (q : Nat) : Option Head :=
  let x := s.part p
  if qr s p (QMG.Q_STATE q) ≠ QState.active then none
  else
    match x.suspects.find? fun j => j.job.queue = q with
    | some j => some ⟨j.job.index, 0, none, some j.job⟩
    | none =>
      if qr s p (QMG.Q_STANDING q) = 1 then
        if chainFailed s p q then none else
        let n := qr s p (QMG.STD_SEQ q)
        let k := (x.chain q).next
        if k ≠ 0 then some ⟨((n - 1) * chainLen s p q + k) % 2 ^ 32, k, some (n - 1, k), none⟩
        else if mayStart s p q then some ⟨n * chainLen s p q % 2 ^ 32, 0, some (n, 0), none⟩
        else none
      else
        let h := qr s p (QMG.Q_HEAD q)
        if h = qr s p (QMG.Q_DB q) then none else some ⟨h, h % 2 ^ qr s p (QMG.Q_LOG2 q), none, none⟩

/-- Forget the fetched head of a queue. -/
def dropHead (p : PartId) (q : Nat) : M Unit := modPart p fun x => { x with heads := x.heads.drop q }

/-! ### The queue manager's accesses -/

/-- The SoC physical address of a tile address in system memory (R41). -/
def socAddr (a : Nat) : Nat := a - 0x4000000000

/-- The ring of a queue is given up: its fetched head and what is being fetched are forgotten. -/
def forgetHead (p : PartId) (q : Nat) : M Unit := do
  let s ← get
  dropHead p q
  disownAt (.qmg p) p (socAddr (qr s p (QMG.Q_BASE q) * 64)) (2 ^ qr s p (QMG.Q_LOG2 q) * 64)

def qmgRead (p : PartId) (a n : Nat) : M (List Byte) := settle (pccRead p (.qmg p) a n)
def qmgWrite (p : PartId) (a : Nat) (bs : List Byte) : M Unit := settle (pccWrite p (.qmg p) a bs)

/-! ### Writes to a standing chain (R377) -/

/-- The register field that a chain write names. -/
def chainFld (q k : Nat) : Fld :=
  match k with
  | 0 => QMG.Q_STANDING q
  | 1 => QMG.STD_FGATE q
  | 2 => QMG.STD_FGLOBAL q
  | 3 => QMG.STD_LEN q
  | 4 => QMG.STD_FBASE q
  | _ => QMG.STD_MAXLAG q

/-- A chain write takes effect. A queue that becomes standing starts at instance 0 (R378). -/
def chainSet (p : PartId) (w : ChainWrite) : M Unit := do
  let old ← rd (.qmg p) (QMG.Q_STANDING w.queue)
  wr (.qmg p) (chainFld w.queue w.field) w.value
  let new ← rd (.qmg p) (QMG.Q_STANDING w.queue)
  if old ≠ new then
    forgetHead p w.queue
    modPart p fun x => { x with chains := x.chains.drop w.queue, grace := x.grace.drop w.queue }
    if new = 1 then wr (.qmg p) (QMG.STD_SEQ w.queue) 0

/-- A chain write of the FW class: at once, or held until no job of the chain is dispatched (R377). -/
def chainWrite (p : PartId) (w : ChainWrite) : M Unit := do
  if (← getPart p).chainBusy w.queue then modPart p fun x => { x with chainWrites := x.chainWrites ++ [w] }
  else chainSet p w

/-- Held chain writes whose moment has come. -/
def applyChainWrites (p : PartId) : M Unit := do
  let x ← getPart p
  modPart p fun y => { y with chainWrites := x.chainWrites.filter fun w => x.chainBusy w.queue }
  forAll (x.chainWrites.filter fun w => !x.chainBusy w.queue) (chainSet p)

/-- A chain is rebased where its arming gate holds `v`: the next instance waits for the frame after that and keeps its number
(R389). -/
def rebaseAt (p : PartId) (q v : Nat) : M Unit := do
  chainWrite p ⟨q, 4, (v + 2 ^ 64 - (← rd (.qmg p) (QMG.STD_SEQ q))) % 2 ^ 64⟩

/-- The rebase of a chain, as far as its arming gate exists. -/
def rebase (p : PartId) (q : Nat) : M Unit := do
  let s ← get
  let g := s.gate p (armGate s p q)
  if g.valid then rebaseAt p q g.value

/-! ### Completion -/

/-- A queue enters ERROR (R371, R374, R381, R393). -/
def queueError (p : PartId) (q code : Nat) : M Unit := do
  let st ← rd (.qmg p) (QMG.Q_STATE q)
  if st = QState.active || st = QState.quiesced || st = QState.draining then
    wr (.qmg p) (QMG.Q_STATE q) QState.error
    raise (.qmg p) 16
    postEvent p 0x0009 2 code (q + code * 2 ^ 32)

/-- A tile that is between jobs gives its flags and output bytes to the job that it ran (R373, R374). -/
def collectTile (g : TileId) : M Unit := do
  let s ← get
  if betweenJobs s g then
    match (s.tile g).job with
    | none => pure ()
    | some tj =>
      let r := fun f => s.reg (.tile g .tl) f
      let fl := r TL.ACC_SAT + 2 * r TL.LONG_K + 4 * r TL.S_MIX + 8 * r TL.CLIP
      modPart (partOf g) fun x => { x with
        jobs := x.jobs.map fun j =>
          if j.id = tj.id then { j with flags := j.flags ||| fl, extent := min 0xFFFFFFFF (j.extent + tj.extent) } else j }
      modTile g fun t => { t with job := none }

/-- The queue reads DRAINING until the last of its jobs has completed (R377). -/
def drainQueue (p : PartId) (q : Nat) : M Unit := do
  if (← rd (.qmg p) (QMG.Q_STATE q)) = QState.draining && !((← getPart p).jobs.any fun j => j.queue = q) then
    wr (.qmg p) (QMG.Q_STATE q) QState.disabled

/-- A job has completed: what its status does to its gate and its chain; its record is due (R373, R374, R381). -/
def jobEnds (p : PartId) (j : Job) : M Unit := do
  let oc ← rd (.pctl p) PCTL.OC_NOW
  modPart p fun x => { x with
    jobs := (x.jobs.filter fun k => k.id ≠ j.id) ++ [{ j with ended := true, endOc := oc }] }
  if j.status ≠ Err.none then
    if JobD.csig j.desc then gateError p (JobD.gate j.desc)
    if j.inst.isSome then queueError p j.queue j.status
  applyChainWrites p

/-- A completion record (R374, R375); `c` is the queue's completion count. -/
def jobRecord (s : State) (p : PartId) (j : Job) : List Byte :=
  let c := qr s p (QMG.CR_HEAD j.queue)
  let gen := c / 2 ^ qr s p (QMG.CR_LOG2 j.queue) % 65535 + 1
  leBytes 4 (j.queue + p.val * 16 + gen * 65536) ++ leBytes 4 j.index ++
  leBytes 4 (j.status + j.errTile * 65536 + j.flags % 16 * 2 ^ 24 + b2n j.overrun * 2 ^ 28) ++
  leBytes 4 j.extent ++ leBytes 4 (JobD.jobId j.desc) ++ leBytes 4 j.seq ++ leBytes 4 j.endOc ++
  leBytes 4 (if j.runFree = 0 then min 0xFFFFFFFF (j.endOc - j.start) else Config.freeNat j.runFree)

/-- The completion ring of queue `q` has no free entry (R376). -/
def crFull (s : State) (p : PartId) (q : Nat) : Bool :=
  2 ^ qr s p (QMG.CR_LOG2 q) ≤ (qr s p (QMG.CR_HEAD q) + 2 ^ 32 - qr s p (QMG.CR_TAIL q)) % 2 ^ 32

/-! ### Wait states (R397, R418) -/

/-- RUNNING, WAITING, HELD, QUIET. -/
inductive WaitState where
  | running | waiting | held | quiet
  deriving DecidableEq, Repr

/-- The tiles on which a dispatched job runs. -/
def jobOn (s : State) (p : PartId) (j : Job) : List TileId :=
  (tilesOf p).filter fun g => ((s.tile g).job).any fun k => k.id = j.id

/-- Dispatched jobs of a queue. -/
def liveJobs (s : State) (p : PartId) (q : Nat) : List Job := (s.part p).jobs.filter fun j => j.queue = q && !j.ended

/-- Queues whose jobs hold one of the tiles. -/
def holdersOf (s : State) (p : PartId) (ts : List TileId) : List Nat :=
  ((s.part p).jobs.filter fun j => !j.ended && (jobOn s p j).any fun g => ts.contains g && !betweenJobs s g).map Job.queue

/-- The queues on which the head of queue `q` waits for tiles (R397); in REPLAY every other queue waits on the suspect's. -/
def heldOn (s : State) (p : PartId) (q : Nat) : List Nat :=
  match (s.part p).replaying with
  | some id =>
    let own := ((s.part p).jobs.filter fun j => j.id = id).map Job.queue
    if own.contains q || qr s p (QMG.Q_STATE q) = QState.error then [] else own
  | none =>
    match headOf s p q with
    | none => []
    | some h =>
      if s.reg (.pctl p) PCTL.BND_REQ = 1 then holdersOf s p (tilesOf p)
      else
        match (h.again.map Job.desc).orElse fun _ => (s.part p).heads.look q with
        | some d => (holdersOf s p (jobTiles p d)).filter fun k => k ≠ q
        | none => []

/-- The queue's head cannot dispatch because BND_REQ is set, whether or not a tile is held (R382, R397). -/
def boundaryHolds (s : State) (p : PartId) (q : Nat) : Bool :=
  (s.part p).replaying.isNone && s.reg (.pctl p) PCTL.BND_REQ = 1 && (headOf s p q).isSome

/-- The wait state of a queue: the first row of R397 that applies. -/
def waitState (s : State) (p : PartId) (q : Nat) : WaitState :=
  let js := liveJobs s p q
  let inWait (g : TileId) : Bool := tlState s g = TlState.gateWait
  if js.any fun j => (jobOn s p j).any fun g => !betweenJobs s g && !inWait g then .running
  else if js ≠ [] then .waiting
  else if boundaryHolds s p q || heldOn s p q ≠ [] then .held
  else .quiet

/-- A signal of a QUIET queue restarts the gate's allowance (R398). -/
def quietSignal (p : PartId) (q : Nat) (r : GateRef) : M Unit := do
  if waitState (← get) p q = .quiet then
    let x ← getGate p r
    putGate p r { x with quiet := 0 }

/-- The record of a completed job, then its gate, then IRQ; a failed write loses the record only (R374, R376). -/
def finishJob (p : PartId) (j : Job) : M Unit := do
  if JobD.compl j.desc then
    if crFull (← get) p j.queue then
      if (← rd (.pctl p) PCTL.HOST) = 0 then wait
    let s ← get
    let c := qr s p (QMG.CR_HEAD j.queue)
    let a := ringAddr (qr s p (QMG.CR_BASE j.queue)) (qr s p (QMG.CR_LOG2 j.queue)) 32 c
    match ← catchErr (qmgWrite p a (jobRecord s p j)) with
    | .ok _ => if crFull s p j.queue then cnt (.qmg p) QMG.CR_OVERWRITE 1
    | .error code => queueError p j.queue code
    wr (.qmg p) (QMG.CR_HEAD j.queue) (c + 1)
  modPart p fun x => { x with jobs := x.jobs.filter fun k => k.id ≠ j.id }
  if JobD.csig j.desc then
    let code ← signalGate p p (JobD.gate j.desc) (.queue p j.queue) 1
    if code = Err.none then quietSignal p j.queue (JobD.gate j.desc)
  if JobD.compl j.desc && JobD.irq j.desc then raise (.qmg p) j.queue
  drainQueue p j.queue

/-- Records of completed jobs are written, in the order of completion within each queue. -/
def writeRecords (p : PartId) : M Unit :=
  forAll (List.range 16) fun q => attempt (do
    let js := (← getPart p).jobs.filter fun j => j.queue = q && j.ended
    forAll js (finishJob p))

/-- A queue that holds a record back dispatches nothing (R376). -/
def Part.holdsRecord (x : Part) (q : Nat) : Bool := x.jobs.any fun j => j.queue = q && j.ended

/-! ### Dispatch (R371, R372) -/

/-- The queue manager fetches the heads that it has not fetched; a failed fetch leaves a record and puts the queue into
ERROR (R371). -/
def fetchHead (p : PartId) (q : Nat) : M Unit := do
  let s ← get
  match headOf s p q with
  | none => pure ()
  | some h =>
    if h.again.isSome || ((s.part p).heads.look q).isSome then pure ()
    else
      match ← catchErr (qmgRead p (qr s p (QMG.Q_BASE q) * 64 + h.entry * 64) 64) with
      | .ok bs => modPart p fun x => { x with heads := x.heads.put q (some (leNat bs)) }
      | .error code =>
        let oc ← rd (.pctl p) PCTL.OC_NOW
        let id := (← getPart p).nextJob
        modPart p fun x => { x with nextJob := id + 1 }
        queueError p q code
        jobEnds p { id, queue := q, desc := 2 ^ 8, index := h.index, seq := 0, start := oc, status := code, errTile := 255,
                    overrun := false, inst := none, ended := false, flags := 0, extent := 0, endOc := 0, runFree := 0 }
        writeRecords p

/-- A head with its descriptor. -/
structure Offer where
  q : Nat
  head : Head
  desc : Nat
  deriving DecidableEq, Repr

/-- The heads whose descriptors the queue manager holds. -/
def offers (s : State) (p : PartId) : List Offer :=
  (List.range 16).filterMap fun q =>
    match headOf s p q with
    | none => none
    | some h =>
      match h.again with
      | some j => some ⟨q, h, j.desc⟩
      | none => ((s.part p).heads.look q).map fun d => ⟨q, h, d⟩

/-- The emergency restriction lets the head dispatch: PAIR = 1, or a paired chain, or an instance that has started
(R462). -/
def emgAllows (s : State) (p : PartId) (o : Offer) : Bool :=
  !(s.part p).only2 ||
    match o.head.inst with
    | none => JobD.pair o.desc
    | some (_, k) => k ≠ 0 || ((s.part p).chain o.q).paired = some true

/-- What the job itself waits for: SERIAL, and its tiles between jobs. A refused descriptor waits for nothing. -/
def jobReady (s : State) (p : PartId) (o : Offer) : Bool :=
  jobRefusal s p o.desc ≠ Err.none ||
    ((!JobD.serial o.desc || !((s.part p).jobs.any fun j => j.queue = o.q)) &&
      (jobTiles p o.desc).all fun g => betweenJobs s g)

/-- Tiles that waiting heads of higher priority name (R372). -/
def reservedFor (s : State) (p : PartId) (prio : Nat) (os : List Offer) : List TileId :=
  (os.filter fun o => prio < qr s p (QMG.Q_PRIO o.q) && emgAllows s p o && jobRefusal s p o.desc = Err.none).flatMap
    fun o => jobTiles p o.desc

/-- Every model whose ranges hold a command list of the job is resident and active on that list's tile (R280, R283). -/
def modelsReady (s : State) (p : PartId) (d : Nat) : Bool :=
  s.eng.models.all fun m => (jobTiles p d).all fun g =>
    !m.coversList s.variant g (JobD.listOf d (localOf g)) || (m.resident && m.active.contains g.val)

/-- The head may be dispatched now, but for a gated tile that has to wake first. -/
def mayDispatch (s : State) (p : PartId) (os : List Offer) (o : Offer) : Bool :=
  emgAllows s p o && jobReady s p o && !((s.part p).holdsRecord o.q) &&
    (jobRefusal s p o.desc ≠ Err.none || modelsReady s p o.desc &&
      (jobTiles p o.desc).all fun g => !(reservedFor s p (qr s p (QMG.Q_PRIO o.q)) os).contains g)

/-- The partition dispatches: it is in RUN and no boundary request and no activation holds it (R372, R390, R410). -/
def dispatches (s : State) (p : PartId) : Bool :=
  s.reg .dlw (DLW.STATE p.val) = 0 && s.reg (.pctl p) PCTL.BND_REQ = 0 && !(s.part p).actHold && !s.eng.inReset

/-- The head that dispatches next: the highest Q_PRIO, round robin among equals (R372). -/
def nextOffer (s : State) (p : PartId) : Option Offer :=
  if !dispatches s p then none
  else
    let os := offers s p
    let ok := os.filter (mayDispatch s p os)
    let top := ok.foldl (fun m o => max m (qr s p (QMG.Q_PRIO o.q))) 0
    let eq := ok.filter fun o => qr s p (QMG.Q_PRIO o.q) = top
    let last := ((s.part p).lastQueue.look top).getD 16
    (eq.find? fun o => last < o.q).orElse fun _ => eq.head?

/-- The bookkeeping of an instance's first job (R378, R380, R388, R423). -/
def startInstance (p : PartId) (q n : Nat) : M Unit := do
  wr (.qmg p) (QMG.STD_SEQ q) (n + 1)
  let lag := min 0xFFFF (chainLag (← get) p q)
  let top ← rd (.qmg p) (QMG.STD_MAXLAG q)
  let late := top ≠ 0 && top < lag
  if late then
    raise (.qmg p) 17
    postEvent p 0x000A 1 Err.none (q + lag * 2 ^ 32)
  modChain p q fun c => { c with overrun := late }
  if (← rd (.pctl p) PCTL.HOST) ≠ 0 then
    modPart p fun x => { x with grace := x.grace.put q (some ((x.grace.look q).getD 0 + 1)) }
  pairsReturn p q

/-- What the dispatch of a head does to its queue's counts. -/
def takeHead (p : PartId) (o : Offer) : M Unit := do
  dropHead p o.q
  let prio := qr (← get) p (QMG.Q_PRIO o.q)
  modPart p fun x => { x with lastQueue := x.lastQueue.put prio (some o.q) }
  match o.head.again with
  | some j => modPart p fun x => { x with suspects := x.suspects.filter fun y => y.job.id ≠ j.id }
  | none =>
    match o.head.inst with
    | some (n, k) =>
      if k = 0 then startInstance p o.q n
      let len := chainLen (← get) p o.q
      modChain p o.q fun c => { c with next := (k + 1) % len }
    | none => wr (.qmg p) (QMG.Q_HEAD o.q) ((← rd (.qmg p) (QMG.Q_HEAD o.q)) + 1)

/-- The job that an offer makes. -/
def offeredJob (s : State) (p : PartId) (o : Offer) : Job :=
  let oc := s.reg (.pctl p) PCTL.OC_NOW
  let inst := o.head.inst.map Prod.fst
  { id := (s.part p).nextJob, queue := o.q, desc := o.desc, index := o.head.index
    seq := match o.head.again, inst with
      | some j, _ => j.seq
      | none, some n => n
      | none, none => JobD.seq o.desc
    start := oc, status := jobRefusal s p o.desc, errTile := 255
    overrun := inst.isSome && ((s.part p).chain o.q).overrun
    inst, ended := false, flags := 0, extent := 0, endOc := 0, runFree := 0 }

/-- The tiles of a job start its lists (R372); where one stops at once, the others are stopped too (R274, R373). -/
def startTiles (p : PartId) (j : Job) : M Unit := do
  forAll (jobTiles p j.desc) fun g =>
    startList g (JobD.listOf j.desc (localOf g)) j.seq (some ⟨j.id, j.queue, j.index, 0⟩)
  if (← getPart p).jobs.any fun k => k.id = j.id && k.status ≠ Err.none then
    forAll (jobTiles p j.desc) abortTile

/-- The head is dispatched, or refused, in which case it runs on no tile and completes at once (R371, R372). -/
def dispatchOffer (p : PartId) (o : Offer) : M Unit := do
  takeHead p o
  let j := offeredJob (← get) p o
  modPart p fun x => { x with nextJob := j.id + 1, jobs := x.jobs ++ [j] }
  if j.status ≠ Err.none then
    if j.status = Err.jobDesc then logErr (.qmg p) Err.jobDesc j.queue 0 j.index
    jobEnds p j
    writeRecords p
  else
    cnt (.qmg p) QMG.DISPATCHES 1
    startTiles p j
    if JobD.type j.desc = 2 then
      jobEnds p j
      writeRecords p

/-- A gated tile of the offer has to wake before the dispatch proceeds (R461). -/
def offerAsleep (s : State) (p : PartId) (o : Offer) : Bool :=
  jobRefusal s p o.desc = Err.none && (jobTiles p o.desc).any fun g => pageGated s (.tile g .tl)

/-- A chain is judged as a whole from its entries as they stand: paired where each has PAIR = 1; one that cannot be read does
not count as paired (R462). -/
def judge (p : PartId) (q : Nat) : M Bool := do
  let s ← get
  match ← catchErr (settle (mapAll (List.range (chainLen s p q)) fun k => do
      return JobD.pair (leNat (← pccRead p (.qmg p) (qr s p (QMG.Q_BASE q) * 64 + k * 64) 64)))) with
  | .ok l => return l.all id
  | .error _ => return false

/-- A chain whose next instance could start in a restricted partition is judged for it; until its entries have been read it is
not paired. -/
def judgeChain (p : PartId) (q : Nat) : M Unit := do
  match headOf (← get) p q with
  | some ⟨_, _, some (_, 0), _⟩ => do
    modChain p q fun c => { c with paired := none }
    let pair ← judge p q
    modChain p q fun c => { c with paired := some pair }
  | _ => pure ()

/-- The chains of a restricted partition are judged. -/
def judgeChains (p : PartId) : M Unit := do
  if (← getPart p).only2 then forAll (List.range 16) fun q => attempt (judgeChain p q)

/-- A chain that a restriction has held is rebased to where its arming gate stood when that ended, with event 0x0202; a paired
chain goes on (R465). Until its entries have been read it waits. -/
def settleChain (p : PartId) (q : Nat) : M Unit := do
  match ((← getPart p).chain q).due with
  | none => pure ()
  | some v =>
    let pair ← judge p q
    let s ← get
    modChain p q fun c => { c with due := none }
    if !pair then
      rebaseAt p q v
      postEvent p 0x0202 1 Err.none (q + min 0xFFFF (lagAt s p q v) * 2 ^ 32)

/-- The chains that a restriction which has ended still has to settle. -/
def settleChains (p : PartId) : M Unit := forAll (List.range 16) fun q => attempt (settleChain p q)

/-- What the queue manager does before it looks for work: finished tiles, held chain writes, due records, heads. -/
def prepare (p : PartId) : M Unit := do
  forAll (tilesOf p) collectTile
  applyChainWrites p
  writeRecords p
  settleChains p
  judgeChains p
  if dispatches (← get) p then forAll (List.range 16) fun q => attempt (fetchHead p q)

/-- JOB_DISPATCH (R371, R372): one head. -/
def dispatchOp (p : PartId) : M Unit := do
  prepare p
  match nextOffer (← get) p with
  | some o => if !offerAsleep (← get) p o then dispatchOffer p o
  | none => pure ()

/-- STANDING_INSTANCE (R378): while the chain's entries win the arbitration, the next instance starts and goes on. -/
def instanceOp (p : PartId) (q : Nat) : M Unit := do
  prepare p
  match headOf (← get) p q with
  | some ⟨_, _, some (n, 0), _⟩ =>
    repeatM 65536 (do
      attempt (fetchHead p q)
      let s ← get
      match nextOffer s p with
      | some o =>
        if o.q = q && o.head.inst.map Prod.fst = some n && !offerAsleep s p o then
          dispatchOffer p o
          return true
        else return false
      | none => return false)
  | _ => pure ()

/-- JOB_COMPLETE (R373, R374): the oldest job all of whose tiles have ended completes. -/
def completeOp (p : PartId) : M Unit := do
  forAll (tilesOf p) collectTile
  let s ← get
  match (s.part p).jobs.find? fun j => !j.ended && !jobRuns s p j with
  | some j => if (s.part p).replaying ≠ some j.id then jobEnds p j
  | none => pure ()
  writeRecords p

/-! ### Register writes of the queues -/

/-- DOORBELL (R369, R378, R388, R414). -/
def doorbellOp (p : PartId) (q v : Nat) : M Unit := do
  let s ← get
  if s.reg (.pctl p) PCTL.FW_READY = 0 then pure ()
  else if s.reg (.pctl p) PCTL.DB_IGNORE = 1 then cnt (.qmg p) QMG.DB_IGNORED 1
  else if qr s p (QMG.Q_STANDING q) = 1 ||
      2 ^ qr s p (QMG.Q_LOG2 q) < (v + 2 ^ 32 - qr s p (QMG.Q_HEAD q)) % 2 ^ 32 then
    wr (.qmg p) (QMG.DB_ERR q) 1
    cnt (.qmg p) QMG.DB_IGNORED 1
  else wr (.qmg p) (QMG.Q_DB q) v

/-- QUEUE_ENABLE (R377): the counts start at 0; a disabled queue reads DRAINING until its last job has completed. -/
def enableOp (p : PartId) (q : Nat) (on : Bool) : M Unit := do
  let was ← rd (.qmg p) (QMG.Q_EN q)
  if on && was = 0 then
    wr (.qmg p) (QMG.Q_EN q) 1
    wr (.qmg p) (QMG.Q_DB q) 0
    wr (.qmg p) (QMG.Q_HEAD q) 0
    wr (.qmg p) (QMG.CR_HEAD q) 0
    wr (.qmg p) (QMG.Q_STATE q) QState.active
    modChain p q fun c => { c with next := 0 }
    forgetHead p q
  else if !on && was = 1 then
    wr (.qmg p) (QMG.Q_EN q) 0
    wr (.qmg p) (QMG.Q_STATE q) QState.draining
    forgetHead p q
    drainQueue p q

/-- The host frees completion records. -/
def crTailOp (p : PartId) (q v : Nat) : M Unit := do
  wr (.qmg p) (QMG.CR_TAIL q) v
  writeRecords p

/-- The host frees trace records. -/
def trTailOp (p : PartId) (v : Nat) : M Unit := do
  wr (.pctl p) PCTL.TR_TAIL v
  forAll (tilesOf p) fun g => do
    syncOp g fun c => c.op = Op.mark

/-! ### Boundaries (R382) -/

/-- Every tile of the partition is between jobs. -/
def allBetween (s : State) (p : PartId) : Bool := (tilesOf p).all (betweenJobs s)

/-- The actions of emergency level `l` are complete (R463 events 3 to 5). -/
def emgComplete (s : State) (l : Nat) : Bool :=
  let ps := List.finRange 4
  let live := ps.filter fun p => !([7, 8].contains (s.reg .dlw (DLW.STATE p.val)))
  (l < 1 || ps.all fun p => s.reg .pwr (PWR.SETTLED p.val) = 1) &&
  (l < 2 || live.all fun p => !(s.part p).levelBnd) &&
  (l < 3 || (live.length ≤ 1 && ps.all fun p => !((s.part p).rst.any fun r => r.toOff)))

/-- EMG_DONE takes the level whose actions are complete (R463 event 6). -/
def emgSettle : M Unit := do
  let l ← rd .pwr PWR.EMG_LEVEL
  if emgComplete (← get) l then wr .pwr PWR.EMG_DONE l

/-- The restriction of level 2 ends: every standing chain is judged where its arming gate stands, and a held one rebased
(R462, R465). -/
def endRestriction (p : PartId) : M Unit := do
  if (← getPart p).only2 then
    modPart p fun x => { x with only2 := false }
    let s ← get
    forAll (List.range 16) fun q =>
      let g := s.gate p (armGate s p q)
      if qr s p (QMG.Q_STANDING q) = 1 && g.valid then modChain p q fun c => { c with due := some g.value } else pure ()
    settleChains p

/-- The models that the boundary of partition `p` makes active on its tiles (R281). -/
def switchModels (p : PartId) : M Unit :=
  modEng fun e =>
    let now := (e.models.flatMap Model.next).filter fun t => t / 12 = p.val
    { e with models := e.models.map fun x => { x with
        active := (x.active.filter fun t => !now.contains t) ++ x.next.filter fun t => t / 12 = p.val
        next := x.next.filter fun t => t / 12 ≠ p.val } }

/-- A boundary is declared (R382 events 4 to 6); after one that level 2 asked for, only pairs dispatch (R462). -/
def declareBoundary (p : PartId) : M Unit := do
  let s ← get
  swapAll p
  switchModels p
  cnt (.pctl p) PCTL.BND_CNT 1
  wr (.pctl p) PCTL.BND_REQ 0
  raise (.pctl p) 10
  postEvent p 0x0001 0 Err.none (← rd (.pctl p) PCTL.BND_CNT)
  if (s.part p).levelBnd then
    let two := s.reg .pwr PWR.EMG_LEVEL ≥ 2
    modPart p fun x => { x with levelBnd := false, only2 := two }
    emgSettle
  modPart p fun x => { x with switchWait := false, bndAct := false }

/-- BOUNDARY_DECLARE (R382): a request, and every tile of the partition between jobs. -/
def boundaryOp (p : PartId) : M Unit := do
  let s ← get
  if s.reg (.pctl p) PCTL.BND_REQ = 1 && s.reg .dlw (DLW.STATE p.val) = 0 && allBetween s p then
    forAll (tilesOf p) collectTile
    declareBoundary p

/-! ### The rows -/

/-- JOB_DISPATCH. -/
def execJobDispatch (p : PartId) (s : State) : Host.Outcome State Fault Refusal := fwNext (dispatchOp p) s
/-- STANDING_INSTANCE. -/
def execStandingInstance (p : PartId) (q : QueueId) (s : State) : Host.Outcome State Fault Refusal :=
  fwNext (instanceOp p q.val) s
/-- JOB_COMPLETE. -/
def execJobComplete (p : PartId) (s : State) : Host.Outcome State Fault Refusal := fwNext (completeOp p) s
/-- DOORBELL: one written before FW_READY = 1 is lost (R414). -/
def execDoorbell (p : PartId) (q : QueueId) (value : BitVec 32) (s : State) : Host.Outcome State Fault Refusal :=
  M.next (pageWrite (.qmg p) (doorbellOp p q.val value.toNat)) s
/-- QUEUE_ENABLE. -/
def execQueueEnable (p : PartId) (q : QueueId) (on : Bool) (s : State) : Host.Outcome State Fault Refusal :=
  M.next (pageWrite (.qmg p) (enableOp p q.val on)) s
/-- CR_TAIL_WRITE (R376): the records that wait for ring space are written. -/
def execCrTailWrite (p : PartId) (q : QueueId) (value : BitVec 32) (s : State) : Host.Outcome State Fault Refusal :=
  fwNext (pageWrite (.qmg p) (crTailOp p q.val value.toNat)) s
/-- BOUNDARY_DECLARE. -/
def execBoundaryDeclare (p : PartId) (s : State) : Host.Outcome State Fault Refusal := fwNext (boundaryOp p) s
/-- TR_TAIL_WRITE (R392): the MARKs that wait in HOLD mode go on. -/
def execTrTailWrite (p : PartId) (value : BitVec 32) (s : State) : Host.Outcome State Fault Refusal :=
  M.next (pageWrite (.pctl p) (trTailOp p value.toNat)) s

end Sys2Proof.Machine
end

