-- ==== Sys2Proof/Machine/Image.lean ====
section
/-! DEFINITION. Dycel model images: format, fit check and placement (R276 to R280, R299, R426). -/
namespace Sys2Proof.Machine

/-- The little-endian word of `n` bytes at offset `o`. -/
def wordAt (b : List Byte) (o n : Nat) : Nat := leNat ((b.drop o).take n)

/-- Two ranges share an element. -/
def overlaps (a n b m : Nat) : Bool := n ≠ 0 && m ≠ 0 && a < b + m && b < a + n

/-- A partition declaration (R277). -/
structure PartDecl where
  gates : Nat
  queues : Nat
  pmem : Nat
  deriving DecidableEq, Repr

/-- A parsed image: bytes, MODEL_ID, MODEL_VER, tile declarations (`tile` holds IPART), partition declarations, section
and fixup entries. -/
structure Image where
  bytes : List Byte
  id : Nat
  ver : Nat
  tiles : List TileAlloc
  parts : List PartDecl
  sects : List Nat
  fixes : List Nat
  deriving DecidableEq, Repr

/-- A tile declaration of 32 bytes, its reserved bits 0 and its ranges inside the tile (R277). Check 1 of R279 does not name
a declaration that passes the ends of scratchpad, book store or buffers; the model refuses it there with ERR_IMAGE_FORMAT,
and a partition declaration with more gates or queues than there are likewise (DESIGN CHOICE, log entry 141). -/
def tileDecl (d : Nat) : Option TileAlloc :=
  let t : TileAlloc :=
    { tile := bitsAt d 0 2, spdBase := bitsAt d 32 32, spdBytes := bitsAt d 64 32, book0 := bitsAt d 96 6
      nbook := bitsAt d 102 7, a0row0 := bitsAt d 128 8, a0rows := bitsAt d 136 9, a1row0 := bitsAt d 160 8
      a1rows := bitsAt d 168 9, stats := bitsAt d 192 8, luts := bitsAt d 200 4, bsrc := bitsAt d 224 22 }
  let res := [(2, 30), (109, 19), (145, 15), (177, 15), (204, 20), (246, 10)].any fun f => bitsAt d f.1 f.2 ≠ 0
  if res || t.spdBase % 64 ≠ 0 || t.spdBytes % 64 ≠ 0 || t.spdBase + t.spdBytes > 0x400000 || t.book0 + t.nbook > 64 ||
      t.a0row0 + t.a0rows > 256 || t.a1row0 + t.a1rows > 256 then none
  else some t

/-- A partition declaration of 16 bytes (R277). -/
def partDecl (d : Nat) : Option PartDecl :=
  if bitsAt d 11 21 ≠ 0 || bitsAt d 37 27 ≠ 0 || bitsAt d 0 11 > 1024 || bitsAt d 32 5 > 16 then none
  else some ⟨bitsAt d 0 11, bitsAt d 32 5, bitsAt d 64 64⟩

/-- A table of `n` entries of `k` bytes at offset `o` lies in the image. -/
def tableAt (b : List Byte) (o n k : Nat) : Option (List Nat) :=
  if o + n * k ≤ b.length then some ((List.range n).map fun i => wordAt b (o + i * k) k) else none

/-- A section lies in the image and in its declared range (R278). -/
def sectOk (m : Image) (e : Nat) : Bool :=
  let (n, u, d) := (Config.sectLen e, Config.sectUnit e, Config.sectDest e)
  Config.sectOffset e + n ≤ m.bytes.length &&
    if Config.sectPmem e then (m.parts[u]?).any fun x => d + n ≤ x.pmem
    else (m.tiles[u]?).any fun t => t.spdBase ≤ d && d + n ≤ t.spdBase + t.spdBytes

/-- The bytes that a fixup changes: a 40-bit address, or a command (R278). -/
def fixBytes (f : Nat) : Nat := if Config.fixKind f = 1 then 16 else 5

/-- A fixup lies in its section. -/
def fixOk (m : Image) (f : Nat) : Bool :=
  (m.sects[Config.fixSect f]?).any fun e => Config.fixOffset f + fixBytes f ≤ Config.sectLen e

/-- The header's length, where the header itself is well formed (R276). -/
def imageLen (h : List Byte) : Option Nat :=
  if wordAt h 0 4 = 0x494D4C4B && wordAt h 4 4 = 1 && wordAt h 0x38 4 = (crc32c (h.take 0x38)) &&
      bitsAt (wordAt h 0x0C 4) 6 2 = 0 && bitsAt (wordAt h 0x0C 4) 11 21 = 0 && bitsAt (wordAt h 0x20 4) 16 16 = 0 &&
      wordAt h 0x2C 12 = 0 && 64 ≤ wordAt h 8 4 then some (wordAt h 8 4)
  else none

/-- Check 1 of R279 over the whole image; `none` is ERR_IMAGE_FORMAT. -/
def parseImage (b : List Byte) : Option Image := do
  let n ← imageLen (b.take 64)
  if b.length ≠ n || wordAt b 0x3C 4 ≠ crc32c (b.drop 64) then none
  else
    let nt := bitsAt (wordAt b 0x0C 4) 0 6
    let np := bitsAt (wordAt b 0x0C 4) 8 3
    let decl := wordAt b 0x18 4
    let ts ← tableAt b decl nt 32
    let ps ← tableAt b (decl + 32 * nt) np 16
    let tiles ← ts.mapM tileDecl
    let parts ← ps.mapM partDecl
    let sects ← tableAt b (wordAt b 0x1C 4) (bitsAt (wordAt b 0x20 4) 0 16) 16
    let fixes ← tableAt b (wordAt b 0x24 4) (wordAt b 0x28 4) 8
    let m : Image := { bytes := b, id := wordAt b 0x10 4, ver := wordAt b 0x14 4, tiles, parts, sects, fixes }
    if sects.all (sectOk m) && fixes.all (fixOk m) then some m else none

/-! ### The placement that the host offers (R387) -/

/-- The partition of each image partition, and each image tile with its physical tile; `none` where NTILE, NPART or the
numbers do not fit (R279 check 2). -/
def placement (m : Image) (cmd : Nat) : Option (List PartId × List TileId) :=
  let ps : List PartId := (List.range m.parts.length).map fun j => ⟨bitsAt cmd (320 + 2 * j) 2 % 4, by omega⟩
  let ts := m.tiles.zipIdx.map fun (t, i) =>
    let k := bitsAt cmd (128 + 4 * i) 4
    match ps[t.tile]? with
    | some q => if h : k < 12 then some (tileAt q ⟨k, h⟩) else none
    | none => none
  if m.tiles.length = 0 || m.tiles.length > 48 || m.parts.length = 0 || m.parts.length > 4 || ts.any Option.isNone ||
      ps.eraseDups.length ≠ ps.length then none
  else
    let gs := ts.filterMap id
    if gs.eraseDups.length ≠ gs.length then none else some (ps, gs)

/-- The physical tiles of an image partition, in image order. -/
def tilesOfPart (m : Image) (gs : List TileId) (j : Nat) : List TileId :=
  ((m.tiles.zip gs).filter fun x => x.1.tile = j).map Prod.snd

/-- The image partition of a section. -/
def sectPart (m : Image) (e : Nat) : Nat :=
  if Config.sectPmem e then Config.sectUnit e else ((m.tiles[Config.sectUnit e]?).map TileAlloc.tile).getD 0

/-- The word of a section that a fixup changes. -/
def fixWord (m : Image) (e f : Nat) : Nat := wordAt m.bytes (Config.sectOffset e + Config.fixOffset f) 5

/-- The peer tile or the partition-memory address that a fixup names exists on the target (R48): a PEER fixup names an
image tile of its image partition, a PMEM fixup an offset inside the image's partition memory. -/
def fixTarget (m : Image) (gs : List TileId) (f : Nat) : Bool :=
  match m.sects[Config.fixSect f]? with
  | none => false
  | some e =>
    match Config.fixKind f with
    | 0 => (m.parts[sectPart m e]?).any fun x => fixWord m e f < x.pmem
    | 1 => true
    | _ => bitsAt (fixWord m e f) 24 4 < (tilesOfPart m gs (sectPart m e)).length

/-! ### What is taken -/

/-- What resident models hold on tile `g`. -/
def heldByModels (s : State) (g : TileId) : List TileAlloc :=
  s.eng.models.flatMap fun m => m.tiles.filter fun t => t.tile = g.val

/-- Some tile declaration meets, on its tile, what a resident model holds there. -/
def clash (s : State) (m : Image) (gs : List TileId) (meets : TileAlloc → TileAlloc → Bool) : Bool :=
  (m.tiles.zip gs).any fun (t, g) => (heldByModels s g).any (meets t)

/-- A logged fault lies in a tile's scratchpad range, or the tile is FAULTED (R279, R426). -/
def tileFault (s : State) (t : TileAlloc) (g : TileId) : Bool :=
  s.eng.faulted.contains g.val ||
    s.eng.faultLog.any fun f =>
      f.kind = 0 && f.part = (partOf g).val && f.unit = localOf g && overlaps t.spdBase t.spdBytes (f.addr / 128 * 128) 128

/-- Ranges of partition memory of partition `q` that models hold. -/
def pmemHeld (s : State) (q : PartId) : List (Nat × Nat) :=
  s.eng.models.flatMap fun m => (m.parts.filter fun x => x.part = q.val).map fun x => (x.pmem0, x.pmemBytes)

/-- Granules that the fault log excludes (R299). -/
def pmemExcluded (s : State) (q : PartId) : List (Nat × Nat) :=
  (s.eng.faultLog.filter fun f => f.kind = 1 && f.part = q.val).flatMap fun f =>
    (granulesOf s.variant ⟨f.unit % 2, by omega⟩ f.addr).map fun k => (k * 4096, 4096)

/-- The lowest 4 KiB-aligned range of `n` bytes that avoids `taken`. -/
def findRange (cap n : Nat) (taken : List (Nat × Nat)) : Option Nat :=
  let cands := (0 :: taken.map fun r => ceilDiv (r.1 + r.2) 4096 * 4096).filter fun a =>
    a + n ≤ cap && !taken.any fun r => overlaps a n r.1 r.2
  match cands with
  | [] => none
  | a :: l => some (l.foldl min a)

/-- The lowest block of `n` partition gates (or global gates) that do not exist (R279, R387). -/
def findGates (s : State) (p : PartId) (global : Bool) (n : Nat) : Option Nat :=
  let top := if global then 256 else 1024
  (List.range (top + 1 - n)).find? fun b => (List.range n).all fun i => !(s.gate p ⟨b + i, global⟩).valid

/-- The `n` lowest queues that are disabled and that no model holds, as a mask. -/
def findQueues (s : State) (q : PartId) (n : Nat) : Option Nat :=
  let free := (List.range 16).filter fun k =>
    qr s q (QMG.Q_STATE k) = QState.disabled &&
      !s.eng.models.any fun m => m.parts.any fun x => x.part = q.val && x.queues.testBit k
  if free.length < n then none else some ((free.take n).foldl (fun m k => m + 2 ^ k) 0)

/-- What a partition gives to the image: gates, queues and memory. -/
def partAlloc (s : State) (q : PartId) (d : PartDecl) : Option Nat × Option Nat × Option Nat × Option Nat :=
  (findGates s q false d.gates, findQueues s q d.queues,
    findRange s.variant.capacity d.pmem (pmemHeld s q ++ pmemExcluded s q),
    findRange s.variant.capacity d.pmem (pmemHeld s q))

/-- The fit check in the order of R279: the first code that applies, or ERR_NONE. -/
def fitCheck (s : State) (m : Image) (ps : List PartId) (gs : List TileId) : Nat :=
  let al := (m.parts.zip ps).map fun (d, q) => partAlloc s q d
  let bad (l : List (Bool × Nat)) : Nat := (firstErr l).getD Err.none
  bad [
    (m.fixes.any fun f => !fixTarget m gs f, Err.fitTiles),
    (clash s m gs fun t u => overlaps t.spdBase t.spdBytes u.spdBase u.spdBytes, Err.fitScratch),
    ((m.tiles.zip gs).any (fun (t, g) => tileFault s t g) || al.any (fun a => a.2.2.1.isNone && a.2.2.2.isSome),
      Err.fitLasting),
    (clash s m gs fun t u => overlaps t.book0 t.nbook u.book0 u.nbook, Err.fitBooks),
    (clash s m gs (fun t u => overlaps t.a0row0 t.a0rows u.a0row0 u.a0rows || overlaps t.a1row0 t.a1rows u.a1row0 u.a1rows),
      Err.fitAccrows),
    (clash s m gs (fun t u => t.stats &&& u.stats ≠ 0 || t.luts &&& u.luts ≠ 0), Err.fitStats),
    (al.any (fun a => a.1.isNone), Err.fitGates),
    (al.any (fun a => a.2.1.isNone), Err.fitQueues),
    (al.any (fun a => a.2.2.1.isNone), Err.fitPmem)]

/-! ### Placement (R278, R280) -/

/-- Bytes `[o, o + n)` of a list become the little-endian bytes of `v`. -/
def patch (bs : List Byte) (o n v : Nat) : List Byte := bs.take o ++ leBytes n v ++ bs.drop (o + n)

/-- One fixup of a section's bytes (R278). -/
def applyFix (m : Image) (gs : List TileId) (als : List PartAlloc) (e : Nat) (bs : List Byte) (f : Nat) : List Byte :=
  let o := Config.fixOffset f
  let j := sectPart m e
  let a := (als[j]?).getD ⟨0, 0, 0, 0, 0, 0⟩
  match Config.fixKind f with
  | 0 => patch bs o 5 ((wordAt bs o 5 + 0x1000000000 + a.part * 0x800000000 + a.pmem0) % 2 ^ 40)
  | 1 =>
    let c := wordAt bs o 16
    patch bs o 16 (setBits c 16 10 (bitsAt c 16 10 + a.gate0))
  | _ =>
    let x := wordAt bs o 5
    match (tilesOfPart m gs j)[bitsAt x 24 4]? with
    | some g => patch bs o 5 (setBits x 24 4 (localOf g))
    | none => bs

/-- The bytes that a section places. -/
def sectBytes (m : Image) (gs : List TileId) (als : List PartAlloc) (k e : Nat) : List Byte :=
  (m.fixes.filter fun f => Config.fixSect f = k).foldl (applyFix m gs als e)
    ((m.bytes.drop (Config.sectOffset e)).take (Config.sectLen e))

/-- The tile whose lift engine copies a section: the section's own, or for partition memory the first tile that the model
has in that partition. -/
def placeTile (m : Image) (gs : List TileId) (als : List PartAlloc) (e : Nat) : Option TileId :=
  if Config.sectPmem e then
    (tilesOfPart m gs (Config.sectUnit e)).head?.orElse fun _ =>
      (als[Config.sectUnit e]?).map fun a => tileAt ⟨a.part % 4, by omega⟩ 0
  else gs[Config.sectUnit e]?

/-- The tile address of a section's destination. -/
def placeAt (als : List PartAlloc) (e : Nat) : Nat :=
  if Config.sectPmem e then
    let a := (als[Config.sectUnit e]?).getD ⟨0, 0, 0, 0, 0, 0⟩
    0x1000000000 + a.part * 0x800000000 + a.pmem0 + Config.sectDest e
  else Config.sectDest e

/-- A lift descriptor with CHK = 1 and the CRC of the bytes that it is to copy (R272). -/
def chkDesc (src dst : Nat) (want : List Byte) : Nat :=
  src % 2 ^ 40 + dst * 2 ^ 64 + want.length * 2 ^ 128 + 2 ^ 152 + crc32c want * 2 ^ 192

/-- The most bytes of a section that one descriptor copies: whole words of 128 bytes within LEN (R272). -/
def descMax : Nat := 0xFFFF80

/-- The descriptors that copy section `k` from the image at `src` in system memory, or from the firmware's copy where fixups
have changed it (R280). -/
def sectDescs (src : Nat) (m : Image) (gs : List TileId) (als : List PartAlloc) (k e : Nat) : List LoadDesc :=
  let want := sectBytes m gs als k e
  let fixed := m.fixes.any fun f => Config.fixSect f = k
  (List.range (ceilDiv want.length descMax)).map fun i =>
    let bs := (want.drop (descMax * i)).take descMax
    ⟨chkDesc (src + Config.sectOffset e + descMax * i) (placeAt als e + descMax * i) bs, if fixed then some bs else none⟩

/-- The descriptors of the sections that tile `g` places, in the order of the section table. -/
def tileDescs (src : Nat) (m : Image) (gs : List TileId) (als : List PartAlloc) (g : TileId) : List LoadDesc :=
  m.sects.zipIdx.flatMap fun (e, k) => if placeTile m gs als e = some g then sectDescs src m gs als k e else []

/-- The placement lists of a model, each of at most as many descriptors as LFT_LIST_CNT can name. -/
def loadLists (src : Nat) (m : Image) (gs : List TileId) (als : List PartAlloc) (h : Nat) : List (TileId × LoadRun) :=
  (List.finRange 48).flatMap fun g =>
    let ds := tileDescs src m gs als g
    (List.range (ceilDiv ds.length 65535)).map fun i => (g, ⟨h, (ds.drop (65535 * i)).take 65535⟩)

/-- What the image puts into scratchpads: tile, offset, bytes. -/
def spdCopies (m : Image) (gs : List TileId) (als : List PartAlloc) : List (Nat × Nat × List Byte) :=
  m.sects.zipIdx.filterMap fun (e, k) =>
    if Config.sectPmem e then none
    else (gs[Config.sectUnit e]?).map fun g => (g.val, Config.sectDest e, sectBytes m gs als k e)

/-- A configuration word that R366 allows for a partition gate, otherwise open. -/
def freeGateCfg : M Nat := do
  let f ← freshNum
  return Config.freeAt f 0 % 2 ^ 16 + Config.freeAt f 1 % 4 * 2 ^ 20 + Config.freeAt f 2 % 2 * 2 ^ 23 +
    Config.freeAt f 3 % 2 ^ 32 * 2 ^ 32

/-- The gates of an allocation come into being with value 0 (R379); the spec gives no configuration for them. -/
def makeGates (q : PartId) (first n : Nat) : M Unit :=
  forAll (List.range n) fun i => do
    let cfg ← freeGateCfg
    putGate q ⟨first + i, false⟩ (newGate cfg 0)

/-- The allocations of an accepted image. -/
def allocsOf (s : State) (m : Image) (ps : List PartId) : List PartAlloc :=
  (m.parts.zip ps).map fun (d, q) =>
    let a := partAlloc s q d
    { part := q.val, gate0 := a.1.getD 0, gates := d.gates, queues := a.2.1.getD 0, pmem0 := a.2.2.1.getD 0
      pmemBytes := d.pmem }

/-- The fit check of an image whose format is good. An accepted image gets its allocations and a handle, and is not yet
resident: its placement lists go to the lift engines. The answer is STATUS and the handle (R279, R280). -/
def acceptImage (m : Image) (cmd : Nat) : M (Nat × Nat) := do
  let s ← get
  match placement m cmd with
  | none => return (Err.fitTiles, 0)
  | some (ps, gs) =>
    let code := fitCheck s m ps gs
    if code ≠ Err.none then return (code, 0)
    else
      let als := allocsOf s m ps
      let handle := s.eng.nextHandle
      let lists := loadLists (bitsAt cmd 64 40) m gs als handle
      modEng fun e => { e with
        nextHandle := handle + 1
        models := e.models ++ [{ handle, id := m.id, ver := m.ver, parts := als, status := 0
                                 copies := spdCopies m gs als, loadGate := 0, loadLists := lists.length, loadErr := 0
                                 active := [], next := []
                                 tiles := (m.tiles.zip gs).map fun (t, g) => { t with tile := g.val } }] }
      forAll als fun a => makeGates ⟨a.part % 4, by omega⟩ a.gate0 a.gates
      forAll lists fun x => modUnits x.1 fun u => { u with loads := u.loads ++ [x.2] }
      return (Err.none, handle)

/-- What an accepted model's placement answers: handle, first gate and partition-memory base (R387). -/
def loadResults (x : Model) : Nat :=
  let a := (x.parts[0]?).getD ⟨0, 0, 0, 0, 0, 0⟩
  x.handle + a.gate0 * 2 ^ 32 + (0x1000000000 + a.part * 0x800000000 + a.pmem0) * 2 ^ 64

end Sys2Proof.Machine
end

