-- ==== Sys2Proof/Machine/Sha.lean ====
section
/-! DEFINITION. SHA-384 and the two functions that R431 and R434 build on it: HMAC-SHA-384 and HKDF-SHA-384, as the standards
that these names stand for define them (PRESUMED, log entry 147). -/
namespace Sys2Proof.Machine

/-- Big-endian number of bytes. -/
def beNat (bs : List Byte) : Nat := bs.foldl (fun v b => v * 256 + b.toNat) 0

/-- The `n` bytes of `v`, most significant first. -/
def beBytes (n v : Nat) : List Byte := (leBytes n v).reverse

/-- A 64-bit word rotated right by `k`. -/
def ror64 (k x : Nat) : Nat := (x >>> k ||| x <<< (64 - k)) % 2 ^ 64

/-- The round constants: the first 64 bits of the fractional parts of the cube roots of the first 80 primes, four to a
number. -/
def shaRows : List Nat := [
  0x428A2F98D728AE227137449123EF65CDB5C0FBCFEC4D3B2FE9B5DBA58189DBBC,
  0x3956C25BF348B53859F111F1B605D019923F82A4AF194F9BAB1C5ED5DA6D8118,
  0xD807AA98A303024212835B0145706FBE243185BE4EE4B28C550C7DC3D5FFB4E2,
  0x72BE5D74F27B896F80DEB1FE3B1696B19BDC06A725C71235C19BF174CF692694,
  0xE49B69C19EF14AD2EFBE4786384F25E30FC19DC68B8CD5B5240CA1CC77AC9C65,
  0x2DE92C6F592B02754A7484AA6EA6E4835CB0A9DCBD41FBD476F988DA831153B5,
  0x983E5152EE66DFABA831C66D2DB43210B00327C898FB213FBF597FC7BEEF0EE4,
  0xC6E00BF33DA88FC2D5A79147930AA72506CA6351E003826F142929670A0E6E70,
  0x27B70A8546D22FFC2E1B21385C26C9264D2C6DFC5AC42AED53380D139D95B3DF,
  0x650A73548BAF63DE766A0ABB3C77B2A881C2C92E47EDAEE692722C851482353B] ++ [
  0xA2BFE8A14CF10364A81A664BBC423001C24B8B70D0F89791C76C51A30654BE30,
  0xD192E819D6EF5218D69906245565A910F40E35855771202A106AA07032BBD1B8,
  0x19A4C116B8D2D0C81E376C085141AB532748774CDF8EEB9934B0BCB5E19B48A8,
  0x391C0CB3C5C95A634ED8AA4AE3418ACB5B9CCA4F7763E373682E6FF3D6B2B8A3,
  0x748F82EE5DEFB2FC78A5636F43172F6084C87814A1F0AB728CC702081A6439EC,
  0x90BEFFFA23631E28A4506CEBDE82BDE9BEF9A3F7B2C67915C67178F2E372532B,
  0xCA273ECEEA26619CD186B8C721C0C207EADA7DD6CDE0EB1EF57D4F7FEE6ED178,
  0x06F067AA72176FBA0A637DC5A2C898A6113F9804BEF90DAE1B710B35131C471B,
  0x28DB77F523047D8432CAAB7B40C724933C9EBE0A15C9BEBC431D67C49C100D4C,
  0x4CC5D4BECB3E42B6597F299CFC657E2A5FCB6FAB3AD6FAEC6C44198C4A475817]

/-- The constant of round `t`. -/
def shaConst (t : Nat) : Nat := bitsAt (shaRows.getD (t / 4) 0) (64 * (3 - t % 4)) 64

/-- The chaining value before the first block, as eight words. -/
def shaStart : List Nat :=
  (List.range 8).map fun i => bitsAt
    (0xCBBB9D5DC1059ED8629A292A367CD5079159015A3070DD17152FECD8F70E5939 * 2 ^ 256 +
      0x67332667FFC00B318EB44A8768581511DB0C2E0D64F98FA747B5481DBEFA4FA4) (64 * (7 - i)) 64

/-- The hash state: eight working words, and the sixteen message words from the next round on. -/
structure ShaState where
  v : List Nat
  w : List Nat
  deriving DecidableEq, Repr

/-- The message word that enters the schedule sixteen rounds later. -/
def shaNext (w : List Nat) : Nat :=
  let x := w.getD 1 0
  let y := w.getD 14 0
  let s0 := (ror64 1 x).xor ((ror64 8 x).xor (x >>> 7))
  let s1 := (ror64 19 y).xor ((ror64 61 y).xor (y >>> 6))
  (s1 + w.getD 9 0 + s0 + w.getD 0 0) % 2 ^ 64

/-- One round. -/
def shaRound (s : ShaState) (t : Nat) : ShaState :=
  match s.v with
  | [a, b, c, d, e, f, g, h] =>
    let ch := (e &&& f).xor ((e.xor (2 ^ 64 - 1)) &&& g)
    let maj := (a &&& b).xor ((a &&& c).xor (b &&& c))
    let t1 := h + (ror64 14 e).xor ((ror64 18 e).xor (ror64 41 e)) + ch + shaConst t + s.w.getD 0 0
    let t2 := (ror64 28 a).xor ((ror64 34 a).xor (ror64 39 a)) + maj
    ⟨[(t1 + t2) % 2 ^ 64, a, b, c, (d + t1) % 2 ^ 64, e, f, g], s.w.drop 1 ++ [shaNext s.w]⟩
  | _ => s

/-- The chaining value after a block of 128 bytes. -/
def shaBlock (h : List Nat) (block : List Byte) : List Nat :=
  let w := (List.range 16).map fun i => beNat ((block.drop (8 * i)).take 8)
  let r := (List.range 80).foldl shaRound ⟨h, w⟩
  h.zipWith (fun x y => (x + y) % 2 ^ 64) r.v

/-- The blocks of a padded message, `n` at most. -/
def shaBlocks : Nat → List Nat → List Byte → List Nat
  | 0, h, _ => h
  | n + 1, h, bs => if bs = [] then h else shaBlocks n (shaBlock h (bs.take 128)) (bs.drop 128)

/-- SHA-384 of bytes. -/
def sha384 (bs : List Byte) : List Byte :=
  let n := bs.length
  let zeros := (239 - n % 128) % 128
  let padded := bs ++ [0x80] ++ List.replicate zeros 0 ++ beBytes 16 (8 * n)
  ((shaBlocks (n / 128 + 2) shaStart padded).take 6).flatMap (beBytes 8)

/-- A key of an HMAC as one block. -/
def hmacKey (key : List Byte) : List Byte :=
  let k := if 128 < key.length then sha384 key else key
  k ++ List.replicate (128 - k.length) 0

/-- HMAC-SHA-384. -/
def hmac384 (key msg : List Byte) : List Byte :=
  let k := hmacKey key
  sha384 ((k.map fun b => b ^^^ 0x5C) ++ sha384 ((k.map fun b => b ^^^ 0x36) ++ msg))

/-- HKDF-SHA-384 without a salt, one output block of 48 bytes. -/
def hkdf384 (secret label : List Byte) : List Byte :=
  hmac384 (hmac384 (List.replicate 48 0) secret) (label ++ [0x01])

end Sys2Proof.Machine
end

