-- ==== Sys2Proof/Machine/Bundle.lean ====
section
/-! DEFINITION. Firmware bundles and their copies in boot flash, keys and the anti-rollback counter (R430 to R436). -/
namespace Sys2Proof.Machine

/-! ### Life cycle states (R446) -/
namespace Lc
def blank : Nat := 0
def develop : Nat := 1
def secured : Nat := 2
def returned : Nat := 3
def void : Nat := 4
end Lc

def lcState (s : State) : Nat := s.reg .sec SEC.LC_STATE

/-! ### The bundle header (R432) -/
namespace BundleH
def magic (h : Nat) : Nat := bitsAt h 0 32
def hdrVer (h : Nat) : Nat := bitsAt h 32 16
def len (h : Nat) : Nat := bitsAt h 64 32
def fwVer (h : Nat) : Nat := bitsAt h 96 32
def svn (h : Nat) : Nat := bitsAt h 128 8
def keyIdx (h : Nat) : Nat := bitsAt h 136 4
def sigAlg (h : Nat) : Nat := bitsAt h 144 8
def target (h : Nat) : Nat := bitsAt h 160 8
/-- OFF and LEN of section `k`: EMC, PCC, CFG. -/
def off (h k : Nat) : Nat := bitsAt h (192 + 64 * k) 32
def size (h k : Nat) : Nat := bitsAt h (224 + 64 * k) 32

/-- The fields of the header, as lowest bit and width; every other bit is reserved. -/
def named : List (Nat × Nat) := [(0, 32), (32, 16), (64, 32), (96, 32), (128, 8), (136, 4), (144, 8), (160, 8), (192, 192)]

/-- A reserved bit is set. -/
def reserved (h : Nat) : Bool := named.foldl (fun x f => setBits x f.1 f.2 0) h ≠ 0

/-- Header and layout hold under R432. -/
def ok (h : Nat) : Bool :=
  magic h = 0x4E424C4B && hdrVer h = 1 && !reserved h && target h = 48 && svn h ≤ 64 &&
  256 ≤ len h && len h ≤ 0x7FFF00 && len h % 256 = 0 &&
  (List.range 3).all fun k => off h k % 256 = 0 && 256 ≤ off h k && off h k + size h k ≤ len h
end BundleH

/-- Where a copy begins in flash (R430): 0 is A, 1 is B. -/
def copyBase (k : Nat) : Nat := if k = 0 then 0x1000000 else 0x1800000

/-- The header of a copy. -/
def copyHeader (s : State) (k : Nat) : Nat := leNat (s.eng.flash.read (copyBase k) 256)

/-- The bundle bytes of a copy. -/
def copyBytes (s : State) (k : Nat) : List Byte := s.eng.flash.read (copyBase k) (BundleH.len (copyHeader s k))

/-- The tag area of a copy (R431). -/
def copyTag (s : State) (k : Nat) : List Byte := s.eng.flash.read (copyBase k + 0x7FFFC0) 64

/-- A key slot is usable (R433). -/
def keyUsable (s : State) (i : Nat) : Bool :=
  i < 16 && (s.reg .sec SEC.KEY_PROV).testBit i && !(s.reg .sec SEC.KEY_REVOKED).testBit i

/-- The tag area belongs to a bundle of length `n` (R431). -/
def tagAreaOk (t : List Byte) (n : Nat) : Bool :=
  leNat (t.take 4) = 0x47544B46 && leNat ((t.drop 4).take 4) = n && leNat ((t.drop 8).take 8) = 0

/-- The device key of a life cycle class: RETURNED, or the class that DEVELOP and SECURED share (R434). -/
def deviceKey (secret : BitVec 256) (returned : Bool) : List Byte :=
  hkdf384 (beBytes 32 secret.toNat) (Config.deviceLabel ++ [BitVec.ofNat 8 (b2n returned)])

/-- The tag of a bundle under the device key (R431). -/
def deviceTag (s : State) (bundle : List Byte) : List Byte :=
  hmac384 (deviceKey s.eng.otp.secret s.eng.otp.returned) bundle

/-- Check 2 of R436: the tag matches under the device key. -/
def tagMatches (s : State) (k : Nat) : Bool := (copyTag s k).drop 16 = deviceTag s (copyBytes s k)

/-- The result of a copy (R436); `err` is an xSPI error or timeout of its read. In RETURNED, where every customer key is
erased, a vendor image needs none (R446; DEDUCED, log entry 148). -/
def classifyCopy (s : State) (k : Nat) (err : Bool) : Nat :=
  let h := copyHeader s k
  if err || !BundleH.ok h || !tagAreaOk (copyTag s k) (BundleH.len h) then Err.bundleAuth
  else if !tagMatches s k then Err.bundleAuth
  else if lcState s ≠ Lc.returned && !keyUsable s (BundleH.keyIdx h) then Err.keyRevoked
  else if BundleH.svn h < s.reg .sec SEC.SVN_CTR then Err.rollback
  else Err.none

/-- The EMC and PCC images of copy `k` go into the engine cores' memory, and its bundle runs (R438, R442). -/
def placeImages (k : Nat) : M Unit := do
  let s ← get
  let h := copyHeader s k
  let image (i : Nat) : Memory := Memory.empty.write 0 (((copyBytes s k).drop (BundleH.off h i)).take (BundleH.size h i))
  modEng fun e => { e with emcMem := image 0, pccMem := image 1, runSvn := BundleH.svn h, runCopy := k }

end Sys2Proof.Machine
end

