-- ==== Sys2Proof/Machine/Ecdsa.lean ====
section
/-! DEFINITION. The check of an ECDSA P-384 signature over SHA-384 (R432, R439): the curve and the check are those of the
standards that these names stand for (PRESUMED, log entry 147). -/
namespace Sys2Proof.Machine

/-! ### The curve y² = x³ − 3x + b over the field of p384 elements -/

def p384 : Nat := 2 ^ 384 - 2 ^ 128 - 2 ^ 96 + 2 ^ 32 - 1
def p384b : Nat :=
  0xB3312FA7E23EE7E4988E056BE3F82D19181D9C6EFE8141120314088F * 2 ^ 160 + 0x5013875AC656398D8A2ED19D2A85C8EDD3EC2AEF
/-- The order of the base point. -/
def p384n : Nat := 2 ^ 384 - 2 ^ 192 + 0xC7634D81F4372DDF581A0DB248B0A77AECEC196ACCC52973
def p384x : Nat :=
  0xAA87CA22BE8B05378EB1C71EF320AD746E1D3B628BA79B9859F741E0 * 2 ^ 160 + 0x82542A385502F25DBF55296C3A545E3872760AB7
def p384y : Nat :=
  0x3617DE4A96262C6F5D9E98BF9292DC29F8F41DBD289A147CE9DA3113 * 2 ^ 160 + 0xB5F0B8C00A60B1CE1D7E819D7A431D7C90EA0E5F

/-- `b` to the power of the low `n` bits of `e`, modulo `m`. -/
def powMod (b e m : Nat) : Nat → Nat
  | 0 => 1
  | n + 1 =>
    let h := powMod (b * b % m) (e / 2) m n
    if e % 2 = 1 then b * h % m else h

/-- The inverse modulo a prime of 384 bits. -/
def invMod (a m : Nat) : Nat := powMod (a % m) (m - 2) m 384

/-- A point: `none` is the point at infinity. -/
abbrev EcPoint := Option (Nat × Nat)

/-- The point on the line of slope `k` through two points whose x are `x` and `u`. -/
def ecThird (k x y u : Nat) : EcPoint :=
  let v := (k * k + 2 * p384 - x - u) % p384
  some (v, (k * (x + p384 - v) + p384 - y) % p384)

/-- The sum of two points. -/
def ecAdd (a b : EcPoint) : EcPoint :=
  match a, b with
  | none, b => b
  | a, none => a
  | some (x, y), some (u, w) =>
    if x = u then
      if (y + w) % p384 = 0 then none
      else ecThird ((3 * x * x + p384 - 3) * invMod (2 * y) p384 % p384) x y u
    else ecThird ((w + p384 - y) * invMod (u + p384 - x) p384 % p384) x y u

/-- The multiple of a point by the low `n` bits of `k`. -/
def ecMul (a : EcPoint) (k : Nat) : Nat → EcPoint
  | 0 => none
  | n + 1 =>
    let h := ecMul (ecAdd a a) (k / 2) n
    if k % 2 = 1 then ecAdd a h else h

/-- A point of the curve, from its 97 uncompressed bytes. -/
def ecDecode (key : List Byte) : Option (Nat × Nat) :=
  let x := beNat ((key.drop 1).take 48)
  let y := beNat (key.drop 49)
  if key.length = 97 && key.headD 0 = 0x04 && x < p384 && y < p384 &&
      (y * y) % p384 = (x * x * x + (p384 - 3) * x + p384b) % p384 then some (x, y)
  else none

/-- The 96 bytes r ‖ s are a signature over the SHA-384 of `msg`. -/
def ecdsaVerifies (key sig msg : List Byte) : Bool :=
  let r := beNat (sig.take 48)
  let s := beNat (sig.drop 48)
  match ecDecode key with
  | none => false
  | some q =>
    if sig.length = 96 && 1 ≤ r && r < p384n && 1 ≤ s && s < p384n then
      let w := invMod s p384n
      let e := beNat (sha384 msg)
      match ecAdd (ecMul (some (p384x, p384y)) (e * w % p384n) 384) (ecMul (some q) (r * w % p384n) 384) with
      | some (x, _) => x % p384n = r
      | none => false
    else false

end Sys2Proof.Machine
end

