-- ==== Sys2Proof/Machine/Shake.lean ====
section
/-! DEFINITION. SHAKE128 and SHAKE256, which ML-DSA-65 hashes with (PRESUMED, log entry 147). The state is 25 lanes of 64
bits, lane x + 5y at place (x, y). -/
namespace Sys2Proof.Machine

/-- A 64-bit lane rotated left by `k` places. -/
def rol64 (k x : Nat) : Nat := ror64 ((64 - k % 64) % 64) x

/-- The rotation of each lane: along the path from (1, 0), the t-th one has (t + 1)(t + 2) / 2. -/
def keccakRot : List Nat :=
  let step (p : Nat × Nat) : Nat × Nat := (p.2, (2 * p.1 + 3 * p.2) % 5)
  ((List.range 24).foldl (fun (a : (Nat × Nat) × List Nat) t =>
    (step a.1, a.2.set (a.1.1 + 5 * a.1.2) ((t + 1) * (t + 2) / 2 % 64))) ((1, 0), List.replicate 25 0)).2

/-- One step of the register that gives the round constants. -/
def keccakLfsr (r : Nat) : Nat := if r ≥ 128 then (2 * r).xor 0x171 else 2 * r

/-- The register after `n` steps. -/
def keccakReg (n : Nat) : Nat := (List.range n).foldl (fun r _ => keccakLfsr r) 1

/-- The constant of round `t`: bit 2ʲ − 1 is the register's lowest bit after j + 7t steps. -/
def keccakConst (t : Nat) : Nat :=
  (List.range 7).foldl (fun c j => c + (keccakReg (j + 7 * t) % 2) * 2 ^ (2 ^ j - 1)) 0

/-- One round: θ, ρ with π, χ and ι. -/
def keccakRound (rots a : List Nat) (rc : Nat) : List Nat :=
  let at_ (l : List Nat) (i : Nat) : Nat := l.getD i 0
  let c := (List.range 5).map fun x =>
    (at_ a x).xor ((at_ a (x + 5)).xor ((at_ a (x + 10)).xor ((at_ a (x + 15)).xor (at_ a (x + 20)))))
  let d := (List.range 5).map fun x => (at_ c ((x + 4) % 5)).xor (rol64 1 (at_ c ((x + 1) % 5)))
  let e := a.zipIdx.map fun (v, i) => rol64 (at_ rots i) (v.xor (at_ d (i % 5)))
  let b := (List.range 25).map fun i => let x := i % 5; let y := i / 5; at_ e ((x + 3 * y) % 5 + 5 * x)
  let f := (List.range 25).map fun i =>
    let y := i / 5 * 5
    (at_ b i).xor (((at_ b (y + (i + 1 - y) % 5)).xor (2 ^ 64 - 1)) &&& at_ b (y + (i + 2 - y) % 5))
  f.modify 0 fun v => v.xor rc

/-- The permutation of 24 rounds. -/
def keccak (a : List Nat) : List Nat := (List.range 24).foldl (fun a t => keccakRound keccakRot a (keccakConst t)) a

/-- A block enters the state. -/
def keccakAbsorb (a : List Nat) (block : List Byte) : List Nat :=
  keccak (a.zipIdx.map fun (v, i) => v.xor (leNat ((block.drop (8 * i)).take 8)))

/-- The blocks of `rate` bytes of a padded message enter the state, `n` at most. -/
def keccakBlocks (rate : Nat) : Nat → List Nat → List Byte → List Nat
  | 0, a, _ => a
  | n + 1, a, bs => if bs = [] then a else keccakBlocks rate n (keccakAbsorb a (bs.take rate)) (bs.drop rate)

/-- `n` blocks of output. -/
def keccakSqueeze (rate : Nat) : Nat → List Nat → List Byte
  | 0, _ => []
  | n + 1, a => (a.flatMap (leBytes 8)).take rate ++ keccakSqueeze rate n (keccak a)

/-- `n` bytes of the SHAKE function whose rate is `rate`. -/
def shake (rate : Nat) (msg : List Byte) (n : Nat) : List Byte :=
  let k := rate - 1 - msg.length % rate
  let pad : List Byte := if k = 0 then [0x9F] else [0x1F] ++ List.replicate (k - 1) 0 ++ [0x80]
  let a := keccakBlocks rate (msg.length / rate + 2) (List.replicate 25 0) (msg ++ pad)
  (keccakSqueeze rate (n / rate + 1) a).take n

def shake128 (msg : List Byte) (n : Nat) : List Byte := shake 168 msg n
def shake256 (msg : List Byte) (n : Nat) : List Byte := shake 136 msg n

end Sys2Proof.Machine
end

