-- ==== Sys2Proof/Machine/Mldsa.lean ====
section
/-! DEFINITION. The check of an ML-DSA-65 signature (R432, R439), as the standard that this name stands for defines it, with
an empty context (PRESUMED, log entry 147). -/
namespace Sys2Proof.Machine.Mldsa

/-- The modulus, and a root of unity of order 512. -/
def q : Nat := 8380417
def zeta : Nat := 1753
/-- Half the range of z, and half the width of a high-bits interval. -/
def gamma1 : Nat := 2 ^ 19
def gamma2 : Nat := 261888

/-- A polynomial: 256 coefficients below the modulus. -/
abbrev Poly := List Nat

/-- The bits of a byte string, least significant first, cut into `n` numbers of `w` bits. -/
def unpack (w n : Nat) (bs : List Byte) : List Nat :=
  let v := leNat bs
  (List.range n).map fun i => v >>> (w * i) % 2 ^ w

/-- Powers of `r`: 256 of them, from the zeroth. -/
def powers (r : Nat) : List Nat := ((List.range 255).foldl (fun (a : List Nat × Nat) _ =>
  let x := a.2 * r % q; (x :: a.1, x)) ([1], 1)).1.reverse

/-- `r` to the power `n`, modulo the modulus. -/
def pow (r : Nat) : Nat → Nat
  | 0 => 1
  | n + 1 => pow r n * r % q

/-- The 8 bits of `i` in reverse order. -/
def rev8 (i : Nat) : Nat := (List.range 8).foldl (fun v k => 2 * v + i >>> k % 2) 0

/-- The sum of products of two lists. -/
def dot (a b : List Nat) : Nat := (a.zipWith (· * ·) b).foldl (fun s x => (s + x) % q) 0

/-- The values of a polynomial at the odd powers of the root, in bit-reversed order. -/
def ntt (a : Poly) : Poly := (List.range 256).map fun i => dot a (powers (pow zeta (2 * rev8 i + 1)))

/-- The polynomial with such values: 8347681 is the inverse of 256, and exponents run backwards modulo 512. -/
def intt (v : Poly) : Poly :=
  (List.range 256).map fun j =>
    8347681 * dot v ((List.range 256).map fun i => pow zeta ((512 - (2 * rev8 i + 1) * j % 512) % 512)) % q

/-- The first 256 numbers below the modulus that the stream spells, three bytes each. -/
def rejPoly (seed : List Byte) : Poly :=
  ((unpack 24 1400 (shake128 seed 4200)).map (· % 2 ^ 23)).filter (· < q) |>.take 256

/-- Entry (r, s) of the public matrix. -/
def matrix (rho : List Byte) (r s : Nat) : Poly := rejPoly (rho ++ leBytes 1 s ++ leBytes 1 r)

/-- The challenge: 49 coefficients of 1 or −1, at places that the stream names. -/
def ball (seed : List Byte) : Poly :=
  let st := shake256 seed 1024
  let signs := leNat (st.take 8)
  let go (a : Poly × List Byte) (i : Nat) : Poly × List Byte :=
    match a.2.dropWhile (fun b => i < b.toNat) with
    | [] => a
    | b :: rest =>
      let j := b.toNat
      let s := if signs.testBit (i + 49 - 256) then q - 1 else 1
      ((a.1.set i (a.1.getD j 0)).set j s, rest)
  (((List.range 49).map (· + 207)).foldl go (List.replicate 256 0, st.drop 8)).1

/-- The places of the hints of each polynomial, or none where their encoding is malformed. -/
def hints (y : List Byte) : Option (List (List Nat)) :=
  let v := y.map BitVec.toNat
  let ends := v.drop 55
  let starts := 0 :: ends.take 5
  let rows := (starts.zip ends).map fun p => (v.drop p.1).take (p.2 - p.1)
  let rising (l : List Nat) : Bool := (l.zip (l.drop 1)).all fun p => p.1 < p.2
  if (starts.zip ends).all (fun p => p.1 ≤ p.2 && p.2 ≤ 55) && rows.all rising &&
      ((v.take 55).drop (ends.getLastD 0)).all (· = 0) then some rows
  else none

/-- The high bits of `r` under hint `h`. -/
def useHint (h : Bool) (r : Nat) : Nat :=
  let m := 2 * gamma2
  let low : Int := if r % m ≤ gamma2 then (r % m : Nat) else (r % m : Int) - m
  let top := ((r : Int) - low = q - 1)
  let r1 : Nat := if top then 0 else (((r : Int) - low) / m).toNat
  let r0 : Int := if top then low - 1 else low
  if h then (if 0 < r0 then (r1 + 1) % 16 else (r1 + 15) % 16) else r1

/-- Coefficients of four bits as bytes. -/
def pack4 : List Nat → List Byte
  | a :: b :: t => BitVec.ofNat 8 (a + 16 * b) :: pack4 t
  | _ => []

/-- Row `r` of what the signature commits to, before rounding. -/
def approx (rho : List Byte) (z c : List Poly) (t1 : Poly) (r : Nat) : Poly :=
  let az := (List.range 5).map fun s => (matrix rho r s).zipWith (fun a b => a * b % q) (z.getD s [])
  let t := ntt (t1.map fun x => x * 2 ^ 13 % q)
  intt ((List.range 256).map fun i =>
    ((az.map fun p => p.getD i 0).foldl (· + ·) 0 + (q - (c.headD []).getD i 0 * t.getD i 0 % q)) % q)

/-- The signature verifies. -/
def verifies (key sig msg : List Byte) : Bool :=
  let rho := key.take 32
  let seed := sig.take 48
  let zs := (List.range 5).map fun i => (unpack 20 256 ((sig.drop (48 + 640 * i)).take 640))
  let small := zs.all fun z => z.all fun v => 196 < v && v < 2 * gamma1 - 196
  match hints (sig.drop 3248) with
  | none => false
  | some hs =>
    if key.length = 1952 && sig.length = 3309 && small then
      let z := zs.map fun z => ntt (z.map fun v => (gamma1 + q - v) % q)
      let c := [ntt (ball seed)]
      let rows := (List.range 6).map fun r =>
        let t1 := unpack 10 256 ((key.drop (32 + 320 * r)).take 320)
        ((approx rho z c t1 r).zipIdx.map fun (x, i) => useHint ((hs.getD r []).contains i) x)
      let mu := shake256 (shake256 key 64 ++ [0, 0] ++ msg) 64
      seed = shake256 (mu ++ rows.flatMap pack4) 48
    else false

end Sys2Proof.Machine.Mldsa
end

