-- ==== Sys2Proof/Machine/Mailbox.lean ====
section
/-! DEFINITION. The security block's mailbox: one command at a time, packages and signed requests, INSTALL
(R439 to R443, R446, R449). -/
namespace Sys2Proof.Machine

/-! ### Signature blocks and packages -/

/-- A signature block. -/
structure SigBlock where
  alg : Nat
  key : List Byte
  sig : List Byte
  deriving DecidableEq, Repr

/-- The lengths of public key and signature under a SIG_ALG. -/
def sigLengths (alg : Nat) : Option (Nat × Nat) :=
  if alg = 1 then some (97, 96) else if alg = 2 then some (1952, 3309) else none

/-- A signature block that fills the bytes it is read from. -/
def sigBlock (b : List Byte) : Option SigBlock :=
  let at_ (o n : Nat) : Nat := leNat ((b.drop o).take n)
  let k := at_ 4 4
  let m := at_ 8 4
  if at_ 1 3 = 0 && b.length = 16 + k + m && sigLengths (at_ 0 1) = some (k, m) then
    some ⟨at_ 0 1, (b.drop 16).take k, b.drop (16 + k)⟩
  else none

/-- The bundle of a package and its signature block; `none` breaks check 2 of R439. -/
def package (b : List Byte) : Option (List Byte × SigBlock) :=
  let h := leNat (b.take 256)
  if b.length < 256 || !BundleH.ok h || b.length < BundleH.len h then none
  else
    match sigBlock (b.drop (BundleH.len h)) with
    | some x => if x.alg = BundleH.sigAlg h then some (b.take (BundleH.len h), x) else none
    | none => none

/-- The life cycle state lets updates in. -/
def lcOpen (s : State) : Bool := lcState s = Lc.develop || lcState s = Lc.secured

/-- The SHA-384 hash of a public key, as the OTP slots hold it (R433). -/
def keyHash (key : List Byte) : Nat := beNat (sha384 key)

/-- A signature verifies under a SIG_ALG of R432. -/
def sigVerifies (alg : Nat) (key sig msg : List Byte) : Bool :=
  if alg = 1 then ecdsaVerifies key sig msg else Mldsa.verifies key sig msg

/-- The checks of R439 in order; ERR_NONE where all pass. -/
def installCheck (s : State) (b : List Byte) : Nat :=
  if !lcOpen s then Err.lifecycle
  else
    match package b with
    | none => Err.sigInvalid
    | some (bundle, x) =>
      let h := leNat (bundle.take 256)
      if !keyUsable s (BundleH.keyIdx h) then Err.keyRevoked
      else if s.eng.otp.hashes.look (BundleH.keyIdx h) ≠ some (keyHash x.key) then Err.sigInvalid
      else if !sigVerifies x.alg x.key x.sig bundle then Err.sigInvalid
      else if BundleH.svn h < s.reg .sec SEC.SVN_CTR then Err.rollback
      else Err.none

/-- The tag area of R431 for a bundle. -/
def tagArea (s : State) (bundle : List Byte) : List Byte :=
  leBytes 4 0x47544B46 ++ leBytes 4 bundle.length ++ leBytes 8 0 ++ deviceTag s bundle

/-- Bytes of a bundle and of a tag area go into copy `k` (R431). -/
def writeSlot (k : Nat) (bundle area : List Byte) : M Unit :=
  modEng fun e => { e with flash := (e.flash.write (copyBase k) bundle).write (copyBase k + 0x7FFFC0) area }

/-- A bundle goes into copy `k` with its tag area (R440). -/
def writeCopy (k : Nat) (bundle : List Byte) : M Unit := do writeSlot k bundle (tagArea (← get) bundle)

/-- A tag area of which the first `m` bytes are written: what the others hold is open, and each differs from what it was to
hold, so that the copy fails check 1 or 2 (R440; DESIGN CHOICE, log entry 173). -/
def cutTag (area : List Byte) (m fresh : Nat) : List Byte :=
  area.zipIdx.map fun (b, i) => if i < m then b else b ^^^ BitVec.ofNat 8 (1 + (Config.freeByte fresh i).toNat % 255)

/-- A power loss or reset after `n` bytes of a bundle and its tag area: copy `k` holds the bundle as far as it was written,
and a tag area that is not complete (R440). -/
def writePart (k : Nat) (bundle : List Byte) (n : Nat) : M Unit := do
  let fresh ← freshNum
  writeSlot k (bundle.take n) (cutTag (tagArea (← get) bundle) (n - bundle.length) fresh)

/-- The copy that INSTALL writes: not the one that is running, which is the one that the ROM booted or the one last
activated (R440; DEDUCED, log entry 149). -/
def installTarget (s : State) : Nat := 1 - s.eng.runCopy

/-- INSTALL by the mailbox (R439, R440). -/
def installOp (b : List Byte) : M Nat := do
  let s ← get
  let code := installCheck s b
  if code = Err.none then
    match package b with
    | some (bundle, _) =>
      let k := installTarget s
      writeCopy k bundle
      wr .sec SEC.INST_VALID 1
      wr .sec SEC.INST_COPY k
      wr .sec SEC.INST_VER (BundleH.fwVer (leNat (bundle.take 256)))
    | none => pure ()
  return code

/-- The signature over `record` verifies under a usable key, other than the one of slot `but` (R443). -/
def requestSigned (s : State) (request record : List Byte) (but : Nat) : Bool :=
  match sigBlock request with
  | none => false
  | some x =>
    ((List.range 16).any fun i => i ≠ but && keyUsable s i && s.eng.otp.hashes.look i = some (keyHash x.key)) &&
      sigVerifies x.alg x.key x.sig record

/-! ### One command at a time (R441, R446, R449) -/

/-- Mailbox writes reach the security block: in DEVELOP and SECURED not while the engine is in reset, in the other states
always (R446; DEDUCED, log entry 150). -/
def mbReached (s : State) : Bool := !s.eng.inReset || !lcOpen s

/-- A command has finished with `code`. -/
def mbDone (code : Nat) : M Unit := do
  wr .sec SEC.STATUS code
  wr .sec SEC.BUSY 0
  wr .sec SEC.DONE 1
  raise .sec 0

/-- A mailbox command: discarded while another runs or is held; refused where the life cycle state does not allow it. -/
def mbStart (status : Bool) (m : M Nat) : M Unit := do
  let s ← get
  if mbReached s then
    if s.reg .sec SEC.BUSY = 1 then wr .sec SEC.OVR 1
    else if lcState s = Lc.blank then mbDone Err.lifecycle
    else if !status && !lcOpen s then mbDone Err.lifecycle
    else mbDone (← m)

/-- INSTALL: held while an activation is between its check and the restart (R441). -/
def mbInstall (b : List Byte) : M Unit := do
  let s ← get
  if mbReached s && s.reg .sec SEC.BUSY = 0 && lcOpen s && s.eng.activating.isSome then
    wr .sec SEC.BUSY 1
    modEng fun e => { e with heldMailbox := some b }
  else mbStart false (installOp b)

/-- A held INSTALL starts. -/
def mbRelease : M Unit := do
  match (← get).eng.heldMailbox with
  | some b =>
    modEng fun e => { e with heldMailbox := none }
    mbDone (← installOp b)
  | none => pure ()

/-- COMMIT_SVN raises the counter, of 64 fuses, to the running bundle's SVN (R435). -/
def commitOp : M Unit :=
  mbStart false (do
    let s ← get
    if s.reg .sec SEC.SVN_CTR < s.eng.runSvn && s.eng.runSvn ≤ 64 then wr .sec SEC.SVN_CTR s.eng.runSvn
    return Err.none)

/-- COMMIT_SVN (R442). -/
def execCommitSvn (s : State) : Host.Outcome State Fault Refusal := M.next commitOp s

/-- REVOKE of the slot that MB_SLOT names, under a signed request. -/
def revokeOp (request : List Byte) : M Unit :=
  mbStart false (do
    let s ← get
    let slot := s.reg .sec SEC.MB_SLOT
    let record := leBytes 4 0x56454B52 ++ leBytes 4 slot ++ leBytes 8 (s.reg .sec SEC.DEV_ID)
    if !((List.range 16).any fun i => i ≠ slot && keyUsable s i) then return Err.lifecycle
    else if !requestSigned s request record slot then return Err.sigInvalid
    else
      wr .sec SEC.KEY_REVOKED (s.reg .sec SEC.KEY_REVOKED ||| 2 ^ slot)
      return Err.none)

/-- REVOKE (R443). -/
def execRevoke (request : List Byte) (s : State) : Host.Outcome State Fault Refusal := M.next (revokeOp request) s

/-- MB_STATUS (R449). -/
def execMbStatus (s : State) : Host.Outcome State Fault Refusal := M.next (mbStart true (return Err.none)) s

end Sys2Proof.Machine
end

