-- ==== Sys2Proof/Machine/Firmware.lean ====
section
/-! DEFINITION. The firmware of a partition control core: command ring and replies (R386, R387, R485), driver loss and
re-attach (R388, R389), activation (R390). -/
namespace Sys2Proof.Machine

/-! ### Commands -/

/-- The argument fields of each OP, as lowest bit and width; `none` where the table lists no such OP (R387, R485). -/
def fwFields (op : Nat) : Option (List (Nat × Nat)) :=
  match op with
  | 0x01 => some [(64, 40), (128, 192), (320, 8)]
  | 0x02 => some [(64, 32)]
  | 0x03 => some [(64, 32), (96, 12)]
  | 0x04 => some [(64, 11), (80, 1), (128, 64), (192, 64)]
  | 0x05 => some [(64, 10), (74, 11), (85, 1)]
  | 0x06 => some [(64, 4), (80, 16), (96, 10), (106, 1), (112, 16)]
  | 0x07 => some [(64, 4)]
  | 0x08 => some []
  | 0x09 => some []
  | 0x0A => some [(64, 8), (96, 32)]
  | _ => none

/-- A command is refused with ERR_FW_CMD: unknown OP, or a reserved bit set (R386, R387). -/
def fwBad (bits : Nat) : Bool :=
  match fwFields (bitsAt bits 0 8) with
  | none => true
  | some fs => ((0, 8) :: (32, 32) :: fs).foldl (fun x f => setBits x f.1 f.2 0) bits ≠ 0

/-- The partition's firmware runs. -/
def fwRuns (s : State) (p : PartId) : Bool :=
  s.reg (.pctl p) PCTL.FW_READY = 1 && (s.reg .dlw (DLW.STATE p.val) = 0 || s.reg .dlw (DLW.STATE p.val) = 6)

/-- The reply ring is full. -/
def frFull (s : State) (p : PartId) : Bool :=
  2 ^ s.reg (.pctl p) PCTL.FR_LOG2 ≤ (s.reg (.pctl p) PCTL.FR_HEAD + 2 ^ 32 - s.reg (.pctl p) PCTL.FR_TAIL) % 2 ^ 32

/-- A reply's 32 bytes (R386). -/
def replyRecord (s : State) (p : PartId) (r : FwReply) : List Byte :=
  let gen := s.reg (.pctl p) PCTL.FR_HEAD / 2 ^ s.reg (.pctl p) PCTL.FR_LOG2 % 65535 + 1
  leBytes 4 (r.op + gen * 65536) ++ leBytes 4 r.count ++ leBytes 4 r.status ++ leBytes 4 r.cookie ++ leBytes 16 r.results

/-- The oldest unwritten reply is written; it waits while the ring is full, and a failed write loses it (R386). -/
def writeReply (p : PartId) : M Unit := do
  let s ← get
  match (s.part p).replies with
  | [] => pure ()
  | r :: _ =>
    if frFull s p then wait
    let n := s.reg (.pctl p) PCTL.FR_HEAD
    let a := ringAddr (s.reg (.pctl p) PCTL.FR_BASE) (s.reg (.pctl p) PCTL.FR_LOG2) 32 n
    match ← catchErr (settle (pccWrite p (.fw p) a (replyRecord s p r))) with
    | .ok _ => if r.op = 0x09 then raise (.pctl p) 3
    | .error code => postEvent p 0x000B 2 code r.count
    wr (.pctl p) PCTL.FR_HEAD (n + 1)
    raise (.pctl p) 0
    modPart p fun x => { x with replies := x.replies.tail }

/-- A command has ended: its reply is due. -/
def fwReply (p : PartId) (c : FwCmd) (status results : Nat) : M Unit :=
  modPart p fun x => { x with
    fw := none
    replies := x.replies ++ [⟨bitsAt c.bits 0 8, c.count, status, bitsAt c.bits 32 32, results⟩] }

/-- FW_COMMAND_FETCH (R386): held replies first; then the next command, or the fetch error as a reply. -/
def fwFetchOp (p : PartId) : M Unit := do
  if fwRuns (← get) p then
    writeReply p
    let s ← get
    let n := s.reg (.pctl p) PCTL.FC_HEAD
    if (s.part p).fw.isNone && (s.part p).replies = [] && n ≠ s.reg (.pctl p) PCTL.FC_DB then
      let a := ringAddr (s.reg (.pctl p) PCTL.FC_BASE) (s.reg (.pctl p) PCTL.FC_LOG2) 64 n
      match ← catchErr (settle (pccRead p (.fw p) a 64)) with
      | .ok bs =>
        wr (.pctl p) PCTL.FC_HEAD (n + 1)
        let c : FwCmd := ⟨leNat bs, n, 0⟩
        if fwBad c.bits then fwReply p c Err.fwCmd 0 else modPart p fun x => { x with fw := some c }
      | .error code =>
        wr (.pctl p) PCTL.FC_HEAD (n + 1)
        fwReply p ⟨0, n, 0⟩ code 0
      attempt (writeReply p)

/-- The firmware carries out the command that it has fetched, where it is `op`; in GRACE and ORPHANED it begins only ATTACH
and QUERY (R387). `m` answers STATUS and the result bytes, or waits. -/
def fwRow (p : PartId) (op : Nat) (m : FwCmd → M (Nat × Nat)) : M Unit := do
  if fwRuns (← get) p then
    match (← getPart p).fw with
    | some c =>
      if bitsAt c.bits 0 8 = op then
        if c.phase = 0 && (← rd (.pctl p) PCTL.HOST) ≠ 0 && op ≠ 0x08 && op ≠ 0x0A then fwReply p c Err.notAttached 0
        else
          let r ← m c
          fwReply p c r.1 r.2
    | none => pure ()
    writeReply p

/-- The command in hand goes into a later phase. -/
def fwPhase (p : PartId) (c : FwCmd) (n : Nat) : M Unit := modPart p fun x => { x with fw := some { c with phase := n } }

/-! ### Models -/

/-- The bytes of an image, as far as its header gives its length. -/
def imageBytes (p : PartId) (a : Nat) : M (Option (List Byte)) := do
  match imageLen (← pccRead p (.fw p) a 64) with
  | none => return none
  | some n => return some (← pccRead p (.fw p) a n)

/-- Ring entries that hold queued or bound descriptors of queue `q` (R368, R378). -/
def entriesOf (s : State) (q : PartId) (k : Nat) : List Nat :=
  if qr s q (QMG.Q_STANDING k) = 1 then List.range (chainLen s q k)
  else if qr s q (QMG.Q_EN k) = 0 then []
  else
    let h := qr s q (QMG.Q_HEAD k)
    let n := (qr s q (QMG.Q_DB k) + 2 ^ 32 - h) % 2 ^ 32
    (List.range (min n (2 ^ qr s q (QMG.Q_LOG2 k)))).map fun i => (h + i) % 2 ^ qr s q (QMG.Q_LOG2 k)

/-- The descriptors of a queue's entries, read by the firmware of partition `p`; entries that cannot be read are left out. -/
def queuedDescs (p q : PartId) (k : Nat) : M (List Nat) := do
  let s ← get
  let ds ← mapAll (entriesOf s q k) fun e => do
    match ← catchErr (pccRead p (.fw p) (qr s q (QMG.Q_BASE k) * 64 + e * 64) 64) with
    | .ok bs => return some (leNat bs)
    | .error _ => return none
  return ds.filterMap id

/-- A descriptor is a job of the model: the model's ranges hold one of its command lists (R420). -/
def ofModel (s : State) (m : Model) (p : PartId) (d : Nat) : Bool :=
  (jobTiles p d).any fun g => m.coversList s.variant g (JobD.listOf d (localOf g))

/-- A job of the model is dispatched, posted or bound (R387). -/
def modelBusy (p : PartId) (m : Model) : M Bool := do
  let s ← get
  let ran := (List.finRange 4).any fun q =>
    ((s.part q).jobs.any fun j => !j.ended && ofModel s m q j.desc) ||
      (s.part q).suspects.any fun x => ofModel s m q x.job.desc
  let posted ← mapAll (List.finRange 4) fun q => do
    let ds ← mapAll (List.range 16) fun k => queuedDescs p q k
    return ds.flatten.any (ofModel s m q)
  return ran || posted.any id

/-- What a model holds is given back: its partition gates cease to exist. -/
def releaseModel (m : Model) : M Unit := do
  forAll m.parts fun a => forAll (List.range a.gates) fun i => putGate ⟨a.part % 4, by omega⟩ ⟨a.gate0 + i, false⟩ .none_
  modEng fun e => { e with models := e.models.filter fun x => x.handle ≠ m.handle }

def modelNamed (s : State) (h : Nat) : Option Model := s.eng.models.find? fun m => m.handle = h

/-- A resident model (R280). -/
def residentNamed (s : State) (h : Nat) : Option Model := s.eng.models.find? fun m => m.handle = h && m.resident

/-- A placement is given up: its lists leave the lift engines, and what the model holds is given back. -/
def dropModel (m : Model) : M Unit := do
  forAll (List.finRange 48) fun g => do
    let u := (← getTile g).units
    if u.load.any fun l => l.handle = m.handle then listStop g
    if u.loads.any fun l => l.handle = m.handle then
      modUnits g fun u => { u with loads := u.loads.filter fun l => l.handle ≠ m.handle }
  releaseModel m

/-- The lift engine of tile `g` carries its placement lists as far as it can, until those of model `h` are done (R280). -/
def driveLoads (g : TileId) (h : Nat) : M Unit :=
  repeatM liftFuel (do
    if (← getTile g).units.loads.any fun l => l.handle = h then
      startLoad g
      liftPieceOp g
    else return false)

/-- The placement of model `h` goes on; once its load gate has advanced the model is resident. An error ends the placement and
gives everything back (R280; log entry 142). -/
def placeModel (h : Nat) : M (Nat × Nat) := do
  forAll (List.finRange 48) fun g => driveLoads g h
  match modelNamed (← get) h with
  | none => return (Err.modelId, 0)
  | some x =>
    if x.loadErr ≠ Err.none then
      dropModel x
      return (x.loadErr, 0)
    else if x.resident then
      postEvent ⟨((x.parts[0]?).map PartAlloc.part).getD 0 % 4, by omega⟩ 0x0002 0 Err.none x.handle
      return (Err.none, loadResults x)
    else wait

/-- LOAD_MODEL (R279, R280): the image is read, checked and accepted once, and the command's phase is then its handle. -/
def loadOp (p : PartId) (c : FwCmd) : M (Nat × Nat) := do
  if c.phase ≠ 0 then placeModel c.phase
  else
    match ← catchErr (settle (imageBytes p (bitsAt c.bits 64 40))) with
    | .error code => return (code, 0)
    | .ok b =>
      match b.bind parseImage with
      | none => return (Err.imageFormat, 0)
      | some m =>
        let r ← acceptImage m c.bits
        if r.1 ≠ Err.none then return (r.1, 0)
        fwPhase p c r.2
        placeModel r.2

/-- UNLOAD_MODEL (R387). -/
def unloadOp (p : PartId) (c : FwCmd) : M (Nat × Nat) := do
  match residentNamed (← get) (bitsAt c.bits 64 32) with
  | none => return (Err.modelId, 0)
  | some m =>
    if ← settle (modelBusy p m) then return (Err.modelBusy, 0)
    else
      releaseModel m
      return (Err.none, 0)

/-- A model's ranges as tile `t` of it sees them: its scratchpad range, its partition memory, and the scratchpad ranges of
its other tiles in the partition (R281, R283). -/
def modelRanges (m : Model) (t : TileAlloc) : List (Nat × Nat) :=
  let parts := m.parts.map fun a => (0x1000000000 + a.part * 0x800000000 + a.pmem0, a.pmemBytes)
  let peers := (m.tiles.filter fun u => u.tile ≠ t.tile && u.tile / 12 = t.tile / 12).map fun u =>
    (0x100000000 + u.tile % 12 * 0x1000000 + u.spdBase, u.spdBytes)
  ((t.spdBase, t.spdBytes) :: parts ++ peers).filter fun r => r.2 ≠ 0

/-- Region `i` of master `m` at tile `g` grants a range, with execute permission for the lift engine; or is disabled. -/
def writeRegion (g : TileId) (m i : Nat) (r : Option (Nat × Nat)) : M Unit := do
  let put (f : Fld) (v : Nat) : M Unit := wr (.tile g .spd) f v
  match r with
  | none => put (SPD.RG_EN m i) 0
  | some (a, n) =>
    put (SPD.RG_EN m i) 1
    put (SPD.RG_R m i) 1
    put (SPD.RG_W m i) 1
    put (SPD.RG_X m i) (b2n (m = 3))
    put (SPD.RG_BASE m i) (a / 64)
    put (SPD.RG_LIMIT m i) ((a + n - 1) / 64)

/-- Runs of equal tags: tag, first index, count. -/
def tagRuns : Nat → List Nat → List (Nat × Nat × Nat)
  | _, [] => []
  | i, x :: l =>
    match tagRuns (i + 1) l with
    | [] => [(x, i, 1)]
    | (y, j, n) :: r => if x = y then (x, i, n + 1) :: r else (x, i, 1) :: (y, j, n) :: r

/-- A lift descriptor without CHK and SIG (R272). -/
def descOf (src dst len tag : Nat) : Nat := src + dst * 2 ^ 64 + len * 2 ^ 128 + tag * 2 ^ 156

/-- The switch list that restores a model's books with their tags and its LUTs from BSRC (R277, R281). -/
def switchList (t : TileAlloc) (tags : List Nat) : List Nat :=
  let lutSrc := t.bsrc + ceilDiv (129 * t.nbook) 64 * 64
  (tagRuns 0 tags).map (fun (tag, i, n) => descOf (t.bsrc + 128 * i) (0x450000 + 128 * (t.book0 + i)) (128 * n) tag) ++
    ((List.range 4).filter t.luts.testBit).zipIdx.map fun (k, j) => descOf (lutSrc + 256 * j) (0x460000 + 256 * k) 256 0

/-- An access of the firmware to a tile, checked by the class 4 region registers (R260). -/
def fwReq (g : TileId) : Req := ⟨g, 4, 4, false, true, .fw (partOf g)⟩

/-- A byte of what a model has placed in a tile's scratchpad, as the firmware's copy holds it. -/
def Model.copyByte (m : Model) (g : TileId) (a : Nat) : Nat :=
  match m.copies.find? fun c => c.1 = g.val && c.2.1 ≤ a && a < c.2.1 + c.2.2.length with
  | some c => (c.2.2.getD (a - c.2.1) 0).toNat
  | none => 0

/-- The tags of a model's books on a tile, which stand behind the book sources (R277). -/
def modelTags (m : Model) (g : TileId) (t : TileAlloc) : List Nat :=
  (List.range t.nbook).map fun i => m.copyByte g (t.bsrc + 128 * t.nbook + i)

/-- Where a switch list can stand: the parts of the banks in state `stat` that an enabled class 4 region grants for reading
and writing, as address and length, with room for 64 descriptors. -/
def listWindows (s : State) (g : TileId) (stat : Nat) : List (Nat × Nat) :=
  let b := s.bank (.tile g .spd)
  (List.range 16).flatMap fun r => (List.range 16).filterMap fun k =>
    let lo := max (64 * Bank.get b (SPD.RG_BASE 4 r).active) (k * 0x40000)
    let hi := min (64 * (Bank.get b (SPD.RG_LIMIT 4 r).active + 1)) ((k + 1) * 0x40000)
    if regionGrants b 4 r .a (lo / 64) && bankStat s g k = stat && lo + 2048 ≤ hi then some (lo, hi - lo) else none

/-- The 32-byte place of a switch list, which the spec does not give: open among the places that serve it at once, or that a
waking bank will serve, or, where there is none, in scratchpad (log entry 143). -/
def listPlace (s : State) (g : TileId) (fresh : Nat) : Nat :=
  let ws := if listWindows s g 0 ≠ [] then listWindows s g 0 else listWindows s g 3
  match ws[Config.freeAt fresh 0 % ws.length]? with
  | some w => w.1 / 32 + Config.freeAt fresh 1 % ((w.2 - 2048) / 32 + 1)
  | none => Config.freeAt fresh 0 % (2 ^ 17 - 64)

/-- The firmware writes a tile's switch list into its scratchpad: the list's 32-byte index and length. A write that no region
allows is refused; one at a waking bank waits (R260, R264). -/
def writeSwitchList (g : TileId) (m : Model) (t : TileAlloc) : M (Nat × Nat) := do
  let ds := (switchList t (modelTags m g t)).take 64
  let place := listPlace (← get) g (← freshNum)
  let _ ← catchErr ((fwReq g).write (32 * place) (ds.flatMap (leBytes 32)))
  return (place, ds.length)

/-- The pending registers of one tile for the incoming model (R281 event 1): the regions of the masters of the tile take
its ranges, in ascending region numbers (DESIGN CHOICE, log entry 143); the banks of its scratchpad range go to ON; and
LFT_SWITCH names its switch list, with SEQ toggled so that the list runs. -/
def switchTile (g : TileId) (m : Model) (t : TileAlloc) : M Unit := do
  pageWrite (.tile g .spd) (do
    forAll (List.range 4) fun k => forAll (List.range 16) fun i => writeRegion g k i (modelRanges m t)[i]?
    forAll (List.range 16) fun k =>
      if overlaps t.spdBase t.spdBytes (k * 0x40000) 0x40000 then wr (.tile g .spd) (SPD.BANK_PWR k) 0 else pure ())
  let (at_, n) ← writeSwitchList g m t
  pageWrite (.tile g .lft) (do
    wr (.tile g .lft) LFT.SW_BASE at_
    wr (.tile g .lft) LFT.SW_CNT n
    wr (.tile g .lft) LFT.SEQ (1 - (← rd (.tile g .lft) LFT.SEQ.active)))

/-- The model becomes active on these tiles at the partition's next boundary, and no other does there. -/
def switchNext (h : Nat) (ts : List Nat) : M Unit :=
  modEng fun e => { e with models := e.models.map fun x =>
    let rest := x.next.filter fun t => !ts.contains t
    { x with next := if x.handle = h then rest ++ ts else rest } }

/-- SWITCH_MODEL (R281): the pending registers, then the wait for the partition's next boundary. The command's phase is
what BND_CNT will be there: 1 more, or its greatest value, at which it stops. -/
def switchOp (p : PartId) (c : FwCmd) : M (Nat × Nat) := do
  let h := bitsAt c.bits 64 32
  let mask := bitsAt c.bits 96 12
  if c.phase = 0 then
    match residentNamed (← get) h with
    | none => return (Err.modelId, 0)
    | some m =>
      let ts := m.tiles.filter fun t => (tilesIn p mask).any fun g => g.val = t.tile
      forAll ts fun t => if ht : t.tile < 48 then switchTile ⟨t.tile, ht⟩ m t else pure ()
      switchNext h (ts.map TileAlloc.tile)
      modPart p fun x => { x with switchWait := true }
      fwPhase p c (min 0xFFFFFFFF ((← rd (.pctl p) PCTL.BND_CNT) + 1))
      wait
  else if (← getPart p).switchWait then wait
  else
    postEvent p 0x0003 0 Err.none (h + mask * 2 ^ 32)
    return (Err.none, c.phase)

/-! ### Gates -/

/-- GATE_CREATE (R387). -/
def fwGateCreate (p : PartId) (c : FwCmd) : M (Nat × Nat) := do
  let n := bitsAt c.bits 64 11
  let global := bitAt c.bits 80
  let cfg := bitsAt c.bits 128 64
  if n = 0 || 1024 < n || cfgBad cfg global then return (Err.cmdField, 0)
  else
    match findGates (← get) p global n with
    | none => return (Err.fitGates, 0)
    | some b =>
      forAll (List.range n) fun i => putGate p ⟨b + i, global⟩ (newGate cfg (bitsAt c.bits 192 64))
      return (Err.none, b)

/-- GATE_DESTROY (R387): the whole range is checked before any gate is destroyed. -/
def fwGateDestroy (p : PartId) (c : FwCmd) : M (Nat × Nat) := do
  let s ← get
  let first := bitsAt c.bits 64 10
  let n := bitsAt c.bits 74 11
  let global := bitAt c.bits 85
  let rs : List GateRef := (List.range n).map fun i => ⟨first + i, global⟩
  if n = 0 then return (Err.cmdField, 0)
  else if rs.any fun r => !(s.gate p r).valid then return (Err.gateId, 0)
  else if rs.any (gateInUse s p) then return (Err.gateBusy, 0)
  else
    forAll rs fun r => putGate p r .none_
    return (Err.none, 0)

/-! ### Standing chains -/

/-- BIND_STANDING (R378, R387). -/
def bindOp (p : PartId) (c : FwCmd) : M (Nat × Nat) := do
  let s ← get
  let q := bitsAt c.bits 64 4
  let l := bitsAt c.bits 80 16
  let gate : GateRef := ⟨bitsAt c.bits 96 10, bitAt c.bits 106⟩
  let log2 := qr s p (QMG.Q_LOG2 q)
  let len := if l = 0 then 65536 else l
  if qr s p (QMG.Q_EN q) = 0 || qr s p (QMG.Q_STANDING q) = 1 || qr s p (QMG.Q_DB q) ≠ qr s p (QMG.Q_HEAD q) ||
      2 ^ log2 < len then return (Err.jobDesc, 0)
  else if !(s.gate p gate).valid then return (Err.gateId, 0)
  else
    match ← catchErr (settle (mapAll (List.range len) fun k => do
        return leNat (← pccRead p (.fw p) (qr s p (QMG.Q_BASE q) * 64 + k * 64) 64))) with
    | .error code => return (code, 0)
    | .ok ds =>
      if ds.any JobD.bad then return (Err.jobDesc, 0)
      else
        let base := (s.gate p gate).value
        forAll [(0, 1), (1, gate.index), (2, b2n gate.global), (3, l), (4, base), (5, bitsAt c.bits 112 16)] fun w =>
          chainSet p ⟨q, w.1, w.2⟩
        return (Err.none, base)

/-- UNBIND_STANDING (R387): the reply waits for the running instance. -/
def unbindOp (p : PartId) (c : FwCmd) : M (Nat × Nat) := do
  let q := bitsAt c.bits 64 4
  let x ← getPart p
  fwPhase p c 1
  if x.chainBusy q || ((x.chain q).next ≠ 0 && qr (← get) p (QMG.Q_STATE q) = QState.active) then wait
  else
    chainSet p ⟨q, 0, 0⟩
    return (Err.none, ← rd (.qmg p) (QMG.STD_SEQ q))

/-! ### Driver loss -/

/-- ATTACH (R389). -/
def attachOp (p : PartId) (_c : FwCmd) : M (Nat × Nat) := do
  let before ← rd (.pctl p) PCTL.HOST
  wr (.pctl p) PCTL.DB_IGNORE 0
  forAll (List.range 16) fun q => do
    if (← rd (.qmg p) (QMG.Q_STATE q)) = QState.quiesced then
      rebase p q
      wr (.qmg p) (QMG.Q_STATE q) QState.active
  wr (.pctl p) PCTL.HOST 0
  modPart p fun x => { x with grace := [] }
  postEvent p 0x0006 0 Err.none before
  return (Err.none, before)

/-- HB_EXPIRE (R388): the expiry test is true. -/
def hbExpireOp (p : PartId) : M Unit := do
  let s ← get
  let tmo := s.reg (.pctl p) PCTL.HB_TMO
  if fwRuns s p && s.reg (.pctl p) PCTL.HOST = 0 && tmo ≠ 0 then
    wr (.pctl p) PCTL.HB_AGE (max tmo (s.reg (.pctl p) PCTL.HB_AGE))
    raise (.pctl p) 8
    postEvent p 0x0004 1 Err.none (← rd (.pctl p) PCTL.HB_AGE)
    wr (.pctl p) PCTL.HOST 1
    wr (.pctl p) PCTL.DB_IGNORE 1
    modPart p fun x => { x with grace := [] }

/-- Queue `q` has done what GRACE lets it do: its chain has started HOST_GRACE instances and none runs part-way, or every
posted descriptor is dispatched. -/
def graceDone (s : State) (p : PartId) (q : Nat) : Bool :=
  qr s p (QMG.Q_STATE q) ≠ QState.active ||
    (if qr s p (QMG.Q_STANDING q) = 1 then
      s.reg (.pctl p) PCTL.HOST_GRACE ≤ ((s.part p).grace.look q).getD 0 && ((s.part p).chain q).next = 0
    else qr s p (QMG.Q_HEAD q) = qr s p (QMG.Q_DB q))

/-- The lowest queue with a standing chain. -/
def lowestStanding (s : State) (p : PartId) : Option Nat :=
  (List.range 16).find? fun q => qr s p (QMG.Q_STANDING q) = 1

/-- ORPHAN (R388). -/
def orphanOp (p : PartId) : M Unit := do
  let s ← get
  if fwRuns s p && s.reg (.pctl p) PCTL.HOST = 1 && (s.part p).jobs = [] && (s.part p).suspects = [] &&
      ((List.range 16).all (graceDone s p)) then
    wr (.pctl p) PCTL.HOST 2
    forAll (List.range 16) fun q =>
      if qr s p (QMG.Q_STANDING q) = 1 && qr s p (QMG.Q_STATE q) = QState.active then
        wr (.qmg p) (QMG.Q_STATE q) QState.quiesced
      else pure ()
    raise (.pctl p) 1
    postEvent p 0x0005 2 Err.none (match lowestStanding s p with | some q => qr s p (QMG.STD_SEQ q) | none => 0)
    if s.reg (.pctl p) PCTL.ORPH_ALERT = 1 then alertChange (wr .pwr PWR.SRC_ORPHAN 1)

/-! ### Activation (R390, R416, R441) -/

/-- A partition between FENCE and REPLAY. -/
def inReset (s : State) (p : PartId) : Bool :=
  let t := s.reg .dlw (DLW.STATE p.val)
  1 ≤ t && t ≤ 6

/-- The boundary request that an activation makes in a partition; one that stands already is not the activation's (R390). -/
def activationRequest (q : PartId) : M Unit := do
  modPart q fun x => { x with actHold := true }
  if (← rd (.pctl q) PCTL.BND_REQ) = 0 then
    requestBoundary q
    modPart q fun x => { x with bndAct := true }

/-- A partition's hold of an activation is released, with a boundary request that the activation alone has made, unless it
has `done` its work: the boundary is then declared as for any request (R382, R390). -/
def releaseHold (done : Bool) (q : PartId) : M Unit := do
  if !done && (← getPart q).bndAct then wr (.pctl q) PCTL.BND_REQ 0
  modPart q fun x => { x with actHold := false, bndAct := false }

/-- The holds of an activation are released; an INSTALL that it held starts. -/
def activationEnds (done : Bool) : M Unit := do
  modEng fun e => { e with activating := none }
  forAll (List.finRange 4) (releaseHold done)
  mbRelease

/-- The check of the installed bundle: the code with which the activation ends, or ERR_NONE. -/
def activationCheck (s : State) : Nat :=
  let k := s.reg .sec SEC.INST_COPY
  if s.reg .sec SEC.INST_VALID = 0 then Err.fwNone
  else if !(tagAreaOk (copyTag s k) (BundleH.len (copyHeader s k)) && tagMatches s k) then Err.fwCheck
  else if s.reg .sec SEC.INST_VER ≤ s.reg .sec SEC.FW_VER_RUN then Err.fwNone
  else Err.none

/-- The five cores restart on the installed bundle. -/
def restartCores : M Nat := do
  let s ← get
  let ver := s.reg .sec SEC.INST_VER
  wr .sec SEC.FW_VER_RUN ver
  wr .sec SEC.INST_VALID 0
  placeImages (s.reg .sec SEC.INST_COPY)
  forAll (List.finRange 4) fun q => do
    if (← rd (.pctl q) PCTL.FW_READY) = 1 then wr (.pctl q) PCTL.FW_VER ver
  activationEnds true
  postAll 0x0008 0 Err.none ver
  return ver

/-- The activation of partition `p` is deferred: ACT_DEFER is set, with event 0x0007 (R390). -/
def deferActivation (p : PartId) (level : Nat) : M Unit := do
  if (← rd (.pctl p) PCTL.ACT_DEFER) = 0 then
    wr (.pctl p) PCTL.ACT_DEFER 1
    postAll 0x0007 1 Err.none level

/-- A rise of the level before the restart abandons an activation: the holds are released, and the deferral starts again
(R390). -/
def abandonActivation (level : Nat) : M Unit := do
  match (← get).eng.activating with
  | none => pure ()
  | some p =>
    activationEnds false
    deferActivation p level

/-- FW_ACTIVATE: deferred above level 0; the check and the holds; the restart when all partitions are between jobs. -/
def activateOp (p : PartId) (c : FwCmd) : M (Nat × Nat) := do
  let s ← get
  let level := s.reg .pwr PWR.EMG_LEVEL
  if level ≠ 0 then
    deferActivation p level
    fwPhase p c 1
    wait
  else if s.eng.activating = some p then
    if (List.finRange 4).any fun q => inReset s q || !allBetween s q then wait
    let ver ← restartCores
    return (Err.none, ver)
  else
    wr (.pctl p) PCTL.ACT_DEFER 0
    if s.eng.activating.isSome || (List.finRange 4).any (inReset s) then
      fwPhase p c 1
      wait
    let code := activationCheck s
    if code ≠ Err.none then return (code, 0)
    modEng fun e => { e with activating := some p }
    forAll (List.finRange 4) activationRequest
    fwPhase p c 2
    wait

/-! ### QUERY (R485) -/

/-- Resident models with a tile in the partition, in ascending handle order. -/
def modelsIn (s : State) (p : PartId) : List Model :=
  s.eng.models.filter fun m => m.resident && m.tiles.any fun t => t.tile / 12 = p.val

/-- STATUS and result bytes of an item. -/
def queryItem (s : State) (p : PartId) (item i : Nat) : Nat × Nat :=
  let r := fun f => s.reg (.pctl p) f
  if 6 < item then (Err.fwCmd, 0)
  else if item < 5 && i ≠ 0 then (Err.cmdField, 0)
  else
    match item with
    | 0 => (Err.none, r PCTL.FC_BASE * 64 + r PCTL.FC_LOG2 * 2 ^ 64)
    | 1 => (Err.none, r PCTL.FR_BASE * 64 + r PCTL.FR_LOG2 * 2 ^ 64)
    | 2 => (Err.none, r PCTL.LG_BASE * 64 + r PCTL.LG_LOG2 * 2 ^ 64)
    | 3 => (Err.none, r PCTL.TR_BASE * 64 + r PCTL.TR_LOG2 * 2 ^ 64 + r PCTL.TR_MODE * 2 ^ 72)
    | 4 => (Err.none, r PCTL.FW_VER + r PCTL.HOST * 2 ^ 32 + (modelsIn s p).length % 2 ^ 16 * 2 ^ 64 +
        s.eng.faultLog.length % 2 ^ 16 * 2 ^ 96)
    | 5 =>
      match (modelsIn s p)[i]? with
      | some m => (Err.none, m.handle + m.status * 2 ^ 32 + m.id * 2 ^ 64 + m.ver * 2 ^ 96)
      | none => (Err.cmdField, 0)
    | _ =>
      match s.eng.faultLog[i]? with
      | some f => (Err.none, f.kind + f.part * 2 ^ 4 + f.unit * 2 ^ 8 + b2n f.unc * 2 ^ 12 + f.addr * 2 ^ 64)
      | none => (Err.cmdField, 0)

/-! ### Register writes -/

/-- FC_DB (R369, R386): a command count outside the ring is discarded. -/
def fcDoorbellOp (p : PartId) (v : Nat) : M Unit := do
  let s ← get
  let r := fun f => s.reg (.pctl p) f
  if r PCTL.FW_READY = 1 && (v + 2 ^ 32 - r PCTL.FC_HEAD) % 2 ^ 32 ≤ 2 ^ r PCTL.FC_LOG2 then
    if v ≠ r PCTL.FC_DB then raise (.pctl p) 9
    wr (.pctl p) PCTL.FC_DB v

def hbWriteOp (p : PartId) (v : Nat) : M Unit := do
  wr (.pctl p) PCTL.HB v
  wr (.pctl p) PCTL.HB_AGE 0

def frTailOp (p : PartId) (v : Nat) : M Unit := do
  wr (.pctl p) PCTL.FR_TAIL v
  if fwRuns (← get) p then writeReply p

/-! ### The rows -/

/-- FC_DOORBELL (R386). -/
def execFcDoorbell (p : PartId) (value : BitVec 32) (s : State) : Host.Outcome State Fault Refusal :=
  M.next (pageWrite (.pctl p) (fcDoorbellOp p value.toNat)) s
/-- FW_COMMAND_FETCH (R386). -/
def execFwCommandFetch (p : PartId) (s : State) : Host.Outcome State Fault Refusal := fwNext (fwFetchOp p) s
/-- LOAD_MODEL. -/
def execLoadModel (p : PartId) (s : State) : Host.Outcome State Fault Refusal := fwNext (fwRow p 0x01 (loadOp p)) s
/-- UNLOAD_MODEL. -/
def execUnloadModel (p : PartId) (s : State) : Host.Outcome State Fault Refusal := fwNext (fwRow p 0x02 (unloadOp p)) s
/-- SWITCH_MODEL. -/
def execSwitchModel (p : PartId) (s : State) : Host.Outcome State Fault Refusal := fwNext (fwRow p 0x03 (switchOp p)) s
/-- GATE_CREATE. -/
def execGateCreate (p : PartId) (s : State) : Host.Outcome State Fault Refusal := fwNext (fwRow p 0x04 (fwGateCreate p)) s
/-- GATE_DESTROY. -/
def execGateDestroy (p : PartId) (s : State) : Host.Outcome State Fault Refusal := fwNext (fwRow p 0x05 (fwGateDestroy p)) s
/-- BIND_STANDING. -/
def execBindStanding (p : PartId) (s : State) : Host.Outcome State Fault Refusal := fwNext (fwRow p 0x06 (bindOp p)) s
/-- UNBIND_STANDING. -/
def execUnbindStanding (p : PartId) (s : State) : Host.Outcome State Fault Refusal := fwNext (fwRow p 0x07 (unbindOp p)) s
/-- ATTACH. -/
def execAttach (p : PartId) (s : State) : Host.Outcome State Fault Refusal := fwNext (fwRow p 0x08 (attachOp p)) s
/-- FW_ACTIVATE. -/
def execFwActivate (p : PartId) (s : State) : Host.Outcome State Fault Refusal := fwNext (fwRow p 0x09 (activateOp p)) s
/-- QUERY. -/
def execQuery (p : PartId) (s : State) : Host.Outcome State Fault Refusal :=
  fwNext (fwRow p 0x0A fun c => do
    return queryItem (← get) p (bitsAt c.bits 64 8) (bitsAt c.bits 96 32)) s
/-- HB_WRITE (R388). -/
def execHbWrite (p : PartId) (value : BitVec 32) (s : State) : Host.Outcome State Fault Refusal :=
  M.next (pageWrite (.pctl p) (hbWriteOp p value.toNat)) s
/-- HB_EXPIRE. -/
def execHbExpire (p : PartId) (s : State) : Host.Outcome State Fault Refusal := fwNext (hbExpireOp p) s
/-- ORPHAN. -/
def execOrphan (p : PartId) (s : State) : Host.Outcome State Fault Refusal := fwNext (orphanOp p) s
/-- FR_TAIL_WRITE (R386). -/
def execFrTailWrite (p : PartId) (value : BitVec 32) (s : State) : Host.Outcome State Fault Refusal :=
  fwNext (pageWrite (.pctl p) (frTailOp p value.toNat)) s

end Sys2Proof.Machine
end

