-- ==== Sys2Proof/Machine/Aes.lean ====
section
/-! DEFINITION. AES-128-GCM, which seals Piste frames (R336). The rule names the algorithm; its steps are those of FIPS 197
and SP 800-38D (PRESUMED, log entry 147). A block is a list of 16 bytes as numbers. -/
namespace Sys2Proof.Machine.Aes

/-- The S-box, 32 bytes a row, the byte of the lowest input lowest. -/
def sboxRows : List Nat :=
  [0xC072A49CAFA2D4ADF04759FA7DC982CA76ABD7FE2B670130C56F6BF27B777C63,
   0x75B227EBE28012079A059618C323C7041531D871F1E5A534CCF73F362693FDB7,
   0xCF584C4A39BECB6A5BB1FC20ED00D153842FE329B3D63B52A05A6E1B1A2C8309,
   0xD2F3FF1021DAB6BCF5389D928F40A351A89F3C507F02F94585334D43FBAAEFD0,
   0xDB0B5EDE14B8EE4688902A22DC4F816073195D643D7EA7C41744975FEC130CCD,
   0x08AE7A65EAF4566CA94ED58D6D37C8E779E4959162ACD3C25C2406490A3A32E0,
   0x9E1DC186B95735610EF6034866B53E708A8BBD4B1F74DDE8C6B4A61C2E2578BA,
   0x16BB54B00F2D99416842E6BF0D89A18CDF2855CEE9871E9B948ED9691198F8E1]

def sbox (x : Nat) : Nat := bitsAt (sboxRows.getD (x / 32) 0) (8 * (x % 32)) 8

/-- Multiplication by x modulo x⁸ + x⁴ + x³ + x + 1. -/
def double (a : Nat) : Nat := if a < 128 then 2 * a else (2 * a).xor 0x11B

/-- Two blocks added. -/
def plus (a b : List Nat) : List Nat := List.zipWith Nat.xor a b

/-- The round key after `k`, with the round's constant. -/
def nextKey (rcon : Nat) (k : List Nat) : List Nat :=
  let turned := ([13, 14, 15, 12].map fun i => sbox (k.getD i 0)).modify 0 (Nat.xor rcon)
  let w0 := plus (k.take 4) turned
  let w1 := plus ((k.drop 4).take 4) w0
  let w2 := plus ((k.drop 8).take 4) w1
  w0 ++ w1 ++ w2 ++ plus (k.drop 12) w2

/-- The round keys after `k`, one for each constant. -/
def laterKeys (k : List Nat) : List Nat → List (List Nat)
  | [] => []
  | c :: cs => let n := nextKey c k; n :: laterKeys n cs

/-- SubBytes and ShiftRows: column c of row r comes from column c + r. -/
def subShift (b : List Nat) : List Nat := (List.range 16).map fun i => sbox (b.getD (5 * i % 16) 0)

/-- MixColumns. -/
def mix (b : List Nat) : List Nat :=
  (List.range 16).map fun i =>
    let at_ (j : Nat) := b.getD (i / 4 * 4 + (i + j) % 4) 0
    let d := double ((at_ 0).xor (at_ 1))
    (d.xor (at_ 1)).xor ((at_ 2).xor (at_ 3))

/-- The rounds after the first key addition; the last one mixes no columns. -/
def rounds (b : List Nat) : List (List Nat) → List Nat
  | [] => b
  | [k] => plus (subShift b) k
  | k :: ks => rounds (plus (mix (subShift b)) k) ks

/-- The key schedule of a 16-byte key. -/
def schedule (key : List Nat) : List (List Nat) :=
  key :: laterKeys key [0x01, 0x02, 0x04, 0x08, 0x10, 0x20, 0x40, 0x80, 0x1B, 0x36]

/-- One block enciphered under a key schedule. -/
def cipher (ks : List (List Nat)) (b : List Nat) : List Nat :=
  match ks with
  | [] => b
  | k :: rest => rounds (plus b k) rest

/-! ### Galois/counter mode -/

/-- The bytes of `w`, most significant first. -/
def bigBytes (n w : Nat) : List Nat := (List.range n).map fun i => bitsAt w (8 * (n - 1 - i)) 8

/-- Bytes, most significant first, as one number. -/
def bigNat (bs : List Nat) : Nat := bs.foldl (fun w b => 256 * w + b) 0

/-- The product of two GHASH blocks over the top `n` bits of `x` that are left. -/
def hashMul (x v : Nat) : Nat → Nat
  | 0 => 0
  | n + 1 => (if x.testBit n then v else 0).xor (hashMul x ((v / 2).xor (if v % 2 = 1 then 0xE1 <<< 120 else 0)) n)

/-- Bytes in blocks of 16, the last one filled with zeros. -/
def blocks (bs : List Nat) : Nat → List (List Nat)
  | 0 => []
  | n + 1 => if bs = [] then [] else (bs.take 16 ++ List.replicate (16 - bs.length) 0) :: blocks (bs.drop 16) n

/-- GHASH of a list of blocks under the hash key. -/
def ghash (h : Nat) (bs : List (List Nat)) : Nat := bs.foldl (fun y b => hashMul (y.xor (bigNat b)) h 128) 0

/-- Blocks of text under successive counters from `c` (R336: the nonce and a 32-bit counter). -/
def counter (ks : List (List Nat)) (nonce : List Nat) (c : Nat) : List (List Nat) → List Nat
  | [] => []
  | b :: bs => plus b (cipher ks (nonce ++ bigBytes 4 c)) ++ counter ks nonce (c + 1) bs

def nats (bs : List Byte) : List Nat := bs.map BitVec.toNat
def bytes (ns : List Nat) : List Byte := ns.map (BitVec.ofNat 8)

/-- Text enciphered, which also deciphers it. -/
def crypt (ks : List (List Nat)) (nonce text : List Nat) : List Nat :=
  (counter ks nonce 2 (blocks text (text.length / 16 + 1))).take text.length

/-- The 128-bit tag of additional data and ciphertext. -/
def tag (ks : List (List Nat)) (nonce aad text : List Nat) : List Nat :=
  let h := bigNat (cipher ks (List.replicate 16 0))
  let len := bigBytes 8 (8 * aad.length) ++ bigBytes 8 (8 * text.length)
  let y := ghash h (blocks aad (aad.length / 16 + 1) ++ blocks text (text.length / 16 + 1) ++ [len])
  plus (bigBytes 16 y) (cipher ks (nonce ++ [0, 0, 0, 1]))

/-- Ciphertext and tag of plain text under a key (R336). -/
def sealed (key nonce aad text : List Byte) : List Byte :=
  let ks := schedule (nats key)
  let c := crypt ks (nats nonce) (nats text)
  bytes (c ++ tag ks (nats nonce) (nats aad) c)

/-- The plain text, where the whole tag is right (R336). -/
def opened (key nonce aad text mac : List Byte) : Option (List Byte) :=
  let ks := schedule (nats key)
  if bytes (tag ks (nats nonce) (nats aad) (nats text)) = mac then some (bytes (crypt ks (nats nonce) (nats text))) else none

end Sys2Proof.Machine.Aes
end

