-- ==== Sys2Proof/Machine/FrameCode.lean ====
section
/-! DEFINITION. The Reed-Solomon code of Piste frames, RS(264,256), and the split of a frame body into its codewords
(R322). -/
namespace Sys2Proof.Machine.FrameCode

/-- The coefficients of g(x) from x⁷ down to 1, a byte each; that of x⁸ is 1 (R322). -/
def gen : Nat := 0xFF0B5136EFADC818

/-- Eight field elements, a byte each, multiplied by α at once. -/
def alpha8 (v : Nat) : Nat :=
  ((v &&& 0x7F7F7F7F7F7F7F7F) <<< 1).xor (((v >>> 7) &&& 0x0101010101010101) * 0x1D)

/-- Eight field elements multiplied by the element whose low `n` bits are those of `f`. -/
def scale (f v : Nat) : Nat → Nat
  | 0 => 0
  | n + 1 => (if f.testBit 0 then v else 0).xor (scale (f / 2) (alpha8 v) n)

/-- One step of the division by g(x): the remainder takes in one more byte. -/
def divStep (r : Nat) (b : Byte) : Nat :=
  (bitsAt r 0 56 <<< 8).xor (scale ((r >>> 56).xor b.toNat) gen 8)

/-- The remainder of bytes times x⁸ by g(x). -/
def remainder (bs : List Byte) : Nat := bs.foldl divStep 0

/-- A number's eight bytes, highest first. -/
def eight (v : Nat) : List Byte := (leBytes 8 v).reverse

/-- A codeword: body bytes followed by their 8 check bytes. -/
def codeword (bs : List Byte) : List Byte := bs ++ eight (remainder bs)

/-- A frame body in codewords of 256 body bytes, the last one shortened. -/
def encode (body : List Byte) : Nat → List Byte
  | 0 => []
  | n + 1 => if body = [] then [] else codeword (body.take 256) ++ encode (body.drop 256) n

/-! ### Correction -/

def power (a : Nat) : Nat → Nat
  | 0 => 1
  | n + 1 => gfMul a (power a n)

/-- The inverse of a field element that is not 0. -/
def inverse (a : Nat) : Nat := power a 254

/-- A polynomial, lowest coefficient first, at `x`. -/
def evalAt (p : List Nat) (x : Nat) : Nat := p.foldr (fun c y => c.xor (gfMul x y)) 0

/-- What the search for the error locator holds: the locator, the number of errors so far, and the last locator that was
left, already divided by its discrepancy, times x. -/
structure Search where
  loc : List Nat
  errs : Nat
  prev : List Nat

/-- The sum of two polynomials. -/
def addPoly : List Nat → List Nat → List Nat
  | a :: as, b :: bs => a.xor b :: addPoly as bs
  | [], bs => bs
  | as, [] => as

/-- The locator takes in the syndrome at place `n`: where it does not foretell it, it is mended by the last locator left. -/
def searchStep (syn : List Nat) (n : Nat) (x : Search) : Search :=
  let d := (List.range (x.errs + 1)).foldl (fun d i => d.xor (gfMul (x.loc.getD i 0) (syn.getD (n - i) 0))) 0
  if d = 0 then { x with prev := 0 :: x.prev }
  else
    let loc := addPoly x.loc (x.prev.map (gfMul d))
    if 2 * x.errs ≤ n then ⟨loc, n + 1 - x.errs, 0 :: x.loc.map (gfMul (inverse d))⟩
    else ⟨loc, x.errs, 0 :: x.prev⟩

/-- The error locator of eight syndromes. -/
def locator (syn : List Nat) : Search := (List.range 8).foldl (fun x n => searchStep syn n x) ⟨[1], 0, [0, 1]⟩

/-- The value of the error at the place whose element is `x`: x Ω(1/x) / Λ'(1/x), with Ω = S Λ mod x⁸. -/
def errorValue (syn loc : List Nat) (x : Nat) : Nat :=
  let omega := (List.range 8).map fun k =>
    (List.range (k + 1)).foldl (fun v i => v.xor (gfMul (loc.getD i 0) (syn.getD (k - i) 0))) 0
  let slope := (loc.zipIdx.map fun c => if c.2 % 2 = 1 then c.1 else 0).tail
  let y := inverse x
  gfMul x (gfMul (evalAt omega y) (inverse (evalAt slope y)))

/-- The place, counted from the last byte, of an error whose element is αᵖ. A full codeword has 264 places and the field 255
elements: the places 0 to 8 and 255 to 263 share theirs, so that the code does not tell them apart. Which of the two the
receiver takes is a free choice (DESIGN CHOICE, log entry 152). -/
def placeOf (len p : Nat) : Nat := if p + 255 < len && Config.farSymbol p then p + 255 else p

/-- A received codeword after correction with the number of symbols put right; none where more than four are wrong
(R322). -/
def correct (word : List Byte) : Option (Nat × List Byte) :=
  let k := word.length - 8
  let r := (remainder (word.take k)).xor (leNat (word.drop k).reverse)
  if r = 0 then some (0, word.take k)
  else
    let coeffs := (leBytes 8 r).map BitVec.toNat
    let syn := (List.range 8).map fun j => evalAt coeffs (power 2 j)
    let x := locator syn
    let places := (List.range (min word.length 255)).filter fun p => evalAt x.loc (power (inverse 2) p) = 0
    if 4 < x.errs || places.length ≠ x.errs then none
    else
      let fixed := places.foldl (fun w p => correctAt w (placeOf word.length p) (errorValue syn x.loc (power 2 p))) word
      some (x.errs, fixed.take k)

/-- A received frame: the symbols put right in its correctable codewords, and its body where all of them are. A last
codeword without a body byte is uncorrectable. -/
def decode (bs : List Byte) : Nat → Nat × Option (List Byte)
  | 0 => (0, some [])
  | n + 1 =>
    if bs = [] then (0, some [])
    else
      let rest := decode (bs.drop 264) n
      match if (bs.take 264).length ≤ 8 then none else correct (bs.take 264) with
      | none => (rest.1, none)
      | some w => (w.1 + rest.1, rest.2.map (w.2 ++ ·))

end Sys2Proof.Machine.FrameCode
end

