-- ==== Sys2Proof/Machine/PisteFrame.lean ====
section
/-! DEFINITION. Piste frames as bytes: messages, header, acknowledgement field, seal and codewords (R322, R333 to R336,
R338). -/
namespace Sys2Proof.Machine

/-- The 16 bytes that head a message (R338). -/
def msgHeader (m : Msg) : List Byte :=
  leBytes 4 (m.type % 2 ^ 8 + m.dst % 2 ^ 4 * 2 ^ 8 + m.dpart.val * 2 ^ 12 + b2n m.moved * 2 ^ 14 + b2n m.last * 2 ^ 15 +
    m.data.length % 2 ^ 12 * 2 ^ 16) ++
  leBytes 2 m.seq ++ leBytes 2 m.oseq ++ leBytes 8 m.arg.toNat

/-- A message in a payload: header, data and zeros up to a multiple of 16 bytes (R338). -/
def msgImage (m : Msg) : List Byte :=
  msgHeader m ++ m.data ++ List.replicate ((16 - m.data.length % 16) % 16) 0

/-- A frame's payload (R338). -/
def payload (f : Frame) : List Byte := f.msgs.flatMap msgImage

/-- The header field PLEN: the payload's length in units of 16 bytes (R333, R334). -/
def plen (f : Frame) : Nat := (payload f).length / 16

/-- The 32-byte frame header (R334). -/
def frameHeader (f : Frame) : List Byte :=
  leBytes 4 (f.stn % 2 ^ 4 + f.part.val * 2 ^ 4 + f.wl.val * 2 ^ 6 + f.slot.val * 2 ^ 8 + f.epoch % 2 ^ 12 * 2 ^ 16) ++
  leBytes 4 (f.depoch % 2 ^ 12 + plen f % 2 ^ 9 * 2 ^ 16) ++ leBytes 8 (f.lap % 2 ^ 48) ++ leBytes 4 f.job.toNat ++
  leBytes 4 (f.kgen % 2 ^ 8 + f.mapver % 2 ^ 8 * 2 ^ 8) ++ leBytes 8 0

/-- The 48-byte acknowledgement field (R335). -/
def ackImage (acks : List AckEntry) : List Byte :=
  (List.range 12).flatMap fun i => match acks[i]? with
    | some e => leBytes 4 (e.rxNext % 2 ^ 16 + e.depoch % 2 ^ 12 * 2 ^ 16 + b2n e.valid * 2 ^ 28)
    | none => leBytes 4 0

/-- The 96-bit nonce (R336). -/
def nonceOf (f : Frame) : List Byte :=
  leBytes 6 f.lap ++ leBytes 1 (f.slot.val + f.wl.val * 2 ^ 4) ++ leBytes 1 f.stn ++ leBytes 4 f.job.toNat

def keyBytes (key : BitVec 128) : List Byte := leBytes 16 key.toNat

/-- The body of a frame, sealed under its key (R333, R336). -/
def sealFrame (f : Frame) : List Byte :=
  frameHeader f ++ Aes.sealed (keyBytes f.key) (nonceOf f) (frameHeader f) (payload f ++ ackImage f.acks)

/-- The bytes of a frame's codewords, as its burst carries them (R321, R322). -/
def burstOf (f : Frame) : List Byte := FrameCode.encode (sealFrame f) 18

/-! ### Reading -/

/-- Bits `lo` to `lo + n - 1` of the bytes that begin at `off`. -/
def fieldAt (bs : List Byte) (off lo n : Nat) : Nat := bitsAt (leNat ((bs.drop off).take 8)) lo n

/-- The message of a header and its data (R338). -/
def readMsg (h data : List Byte) : Msg where
  type := fieldAt h 0 0 8
  dst := fieldAt h 0 8 4
  dpart := ⟨fieldAt h 0 12 2 % 4, Nat.mod_lt _ (by decide)⟩
  moved := fieldAt h 0 14 1 = 1
  last := fieldAt h 0 15 1 = 1
  seq := fieldAt h 4 0 16
  oseq := fieldAt h 6 0 16
  arg := BitVec.ofNat 64 (fieldAt h 8 0 64)
  data

/-- The messages of a payload, up to the first header of TYPE 0 (R338). A message whose data would pass the payload's end is
none, nor is anything after it (DESIGN CHOICE, log entry 153). -/
def readMsgs (bs : List Byte) : Nat → List Msg
  | 0 => []
  | n + 1 =>
    let len := fieldAt bs 0 16 12
    let rest := bs.drop 16
    if bs.length < 16 || fieldAt bs 0 0 8 = 0 || rest.length < len then []
    else readMsg (bs.take 16) (rest.take len) :: readMsgs (rest.drop ((len + 15) / 16 * 16)) n

/-- The entries of an acknowledgement field (R335). -/
def readAcks (bs : List Byte) : List AckEntry :=
  (List.range 12).map fun i => ⟨fieldAt bs (4 * i) 0 16, fieldAt bs (4 * i) 16 12, fieldAt bs (4 * i) 28 1 = 1⟩

/-- What the header of a frame body tells (R334). -/
def readHeader (h : List Byte) : Frame where
  stn := fieldAt h 0 0 4
  part := ⟨fieldAt h 0 4 2 % 4, Nat.mod_lt _ (by decide)⟩
  wl := ⟨fieldAt h 0 6 2 % 4, Nat.mod_lt _ (by decide)⟩
  slot := ⟨fieldAt h 0 8 4 % 16, Nat.mod_lt _ (by decide)⟩
  epoch := fieldAt h 0 16 12
  depoch := fieldAt h 4 0 12
  lap := fieldAt h 8 0 48
  job := BitVec.ofNat 32 (fieldAt h 16 0 32)
  kgen := fieldAt h 20 0 8
  mapver := fieldAt h 20 8 8
  msgs := []
  acks := []
  key := 0

/-- A frame body read under a key: none where its length is not that of PLEN, PLEN passes 256, or the tag fails (R333,
R336). -/
def openFrame (body : List Byte) (key : BitVec 128) : Option Frame :=
  let h := body.take 32
  let f := readHeader h
  let n := 16 * fieldAt h 4 16 9
  if body.length ≠ n + 96 || 4096 < n then none
  else
    (Aes.opened (keyBytes key) (nonceOf f) h ((body.drop 32).take (n + 48)) (body.drop (n + 80))).map fun text =>
      { f with msgs := readMsgs (text.take n) 256, acks := readAcks (text.drop n), key }

end Sys2Proof.Machine
end

