-- ==== Sys2Proof/Machine/PisteWin.lean ====
section
/-! DEFINITION. What the Piste ports share: epochs, reduction windows, remote transfers and stations going DOWN (R344 to
R348, R350 to R352, R355). -/
namespace Sys2Proof.Machine

/-! ### Epochs and stations -/

/-- Epoch `a` is newer than `b`: it lies 1 to 2,047 ahead, modulo 4,096 (R337). -/
def newerEpoch (a b : Nat) : Bool :=
  let d := (a + 4096 - b % 4096) % 4096
  1 ≤ d && d ≤ 2047

/-- The recorded epoch of partition `p` of station `t` (R345). -/
def peerEpoch (s : State) (n : PortId) (t p : Nat) : Nat := bitsAt (s.reg (.peer n) (PEER.P_PEPOCH t)) (12 * p) 12

/-- Partition `p` of station `t` is recorded with epoch `e`. -/
def setPeerEpoch (n : PortId) (t p e : Nat) : M Unit := do
  wr (.peer n) (PEER.P_PEPOCH t) (setBits (← rd (.peer n) (PEER.P_PEPOCH t)) (12 * p) 12 e)

/-- One bit of a mask field takes a value. -/
def setMaskBit (i : PageId) (f : Fld) (b : Nat) (v : Bool) : M Unit := do
  wr i f (setBits (← rd i f) b 1 (b2n v))

/-- Station `t` is a member at port `n`, or is one no longer. -/
def setMember (n : PortId) (t : Nat) (v : Bool) : M Unit := do
  setMaskBit (.link n) LINK.MEMBER t v
  wr (.peer n) (PEER.P_MEMBER t) (b2n v)

/-- Station `t` is UP or DOWN at port `n`. -/
def setUp (n : PortId) (t : Nat) (v : Bool) : M Unit := do
  setMaskBit (.link n) LINK.UP t v
  wr (.peer n) (PEER.P_UP t) (b2n v)

/-- Messages of epoch `e` or an older one than the ended epoch of partition `p` of station `t` are dropped (R345). -/
def epochEnded (x : Port) (t p e : Nat) : Bool :=
  match x.epochsEnded.look (4 * t + p) with
  | some ended => e = ended || newerEpoch ended e
  | none => false

/-! ### Reduction windows (R350 to R352) -/

def winOpen (s : State) (w : Nat) : Bool := s.reg (.peer 0) (PEER.WSTATE w) = 1

/-- The values that window `w` latched at ARM. -/
def winLatch (s : State) (w : Nat) : WinLatch := (s.eng.windows.look w).getD ⟨0, 0, 0⟩

/-- The window leaves OPEN. -/
def winLeave (w st : Nat) : M Unit := do
  wr (.peer 0) (PEER.WSTATE w) st
  modEng fun e => { e with windows := e.windows.put w none }

/-- An OPEN window becomes TAINTED (R351, R352). -/
def winTaint (w cause contrib : Nat) : M Unit := do
  let l := winLatch (← get) w
  winLeave w 3
  wr (.peer 0) (PEER.TCAUSE w) cause
  wr (.peer 0) (PEER.TCONTRIB w) contrib
  gateError 0 ⟨l.gate, true⟩
  raise (.link 0) 5

/-- Every OPEN window that still expects a contributor of the list is tainted with its lowest one (R352). -/
def taintFor (cause : Nat) (cs : List Nat) : M Unit :=
  forAll (List.range 32) fun w => do
    let s ← get
    if winOpen s w then
      let l := winLatch s w
      let a := s.reg (.peer 0) (PEER.ARRIVED w)
      match cs.find? fun c => l.expect.testBit c && !a.testBit c with
      | some c => winTaint w cause c
      | none => pure ()

/-- The lowest-numbered OPEN window that holds a TAG; TAG 0 matches none (R350, R351). -/
def winFor (s : State) (tag : Nat) : Option Nat :=
  if tag = 0 then none else (List.range 32).find? fun w => winOpen s w && (winLatch s w).tag = tag

/-- A message from an expected contributor, received at port `n`, is counted in its window (R351). -/
def winCount (n : PortId) (w c : Nat) (last : Bool) : M Unit := do
  let pg : PageId := .peer 0
  cnt pg (PEER.WIN_ADDS w) 1
  if last then
    if (← rd pg (PEER.ARRIVED w)).testBit c then cnt (.link n) LINK.WIN_DUP 1
    else setMaskBit pg (PEER.ARRIVED w) c true

/-- A write of a window's control word with ARM = 1 (R351). -/
def winArmOp (w : Nat) : M Unit := do
  let pg : PageId := .peer 0
  let s ← get
  let expect := s.reg pg (PEER.EXPECT w)
  if !winOpen s w && expect ≠ 0 then
    wr pg (PEER.ARRIVED w) 0
    wr pg (PEER.WSAT w) 0
    wr pg (PEER.TCAUSE w) 0
    wr pg (PEER.TCONTRIB w) 0
    wr pg (PEER.WIN_ADDS w) 0
    modEng fun e => { e with windows := e.windows.put w (some ⟨s.reg pg (PEER.TAG w), s.reg pg (PEER.GATE w), expect⟩) }
    wr pg (PEER.WSTATE w) 1

/-- ARRIVED = EXPECT: the window is COMPLETE; its signal is of the FW class and a refusal of it counts at partition 0
(R351, R362, R363). -/
def winCompleteOp (w : Nat) : M Unit := do
  let s ← get
  let l := winLatch s w
  if winOpen s w && s.reg (.peer 0) (PEER.ARRIVED w) = l.expect then
    winLeave w 2
    let _ ← signalGate 0 0 ⟨l.gate, true⟩ .fw 1
    raise (.link 0) 4

/-! ### Accesses of a port (R344, R348) -/

/-- A class 6 access at partition `p`, checked at tile p.0 as one access; a partition outside RUN answers ERR_FENCED
(R259, R261, R344, R411). -/
def portAccess (p : PartId) (perm : Perm) (addr n : Nat) (m : M α) : M α := do
  let g := tileAt p 0
  let a := 0x1000000000 + p.val * 0x800000000 + addr
  if !open_ (← get) p then fail Err.fenced
  if addr + n > (← get).variant.capacity then spdRefuse g Err.addrRange 6 3 a
  if !regionOk ((← get).bank (.tile g .spd)) 6 perm a n then spdRefuse g Err.region 6 0 a
  passAlone (memWay 6 (pathAt g 6) p (interleave (← get).variant addr).1)
  m

/-! ### Remote transfers (R347, R348) -/

namespace XferD
def op (d : Nat) : Nat := bitsAt d 0 2
def stn (d : Nat) : Nat := bitsAt d 2 4
def rpart (d : Nat) : Nat := bitsAt d 6 2
def gate (d : Nat) : GateRef := ⟨bitsAt d 8 10, bitAt d 18⟩
def sig (d : Nat) : Bool := bitAt d 19
def len (d : Nat) : Nat := bitsAt d 32 24
def local_ (d : Nat) : Nat := bitsAt d 64 40
def remote (d : Nat) : Nat := bitsAt d 128 40
/-- A reserved field is not 0, or LEN breaks R347. STATUS is the port's. -/
def bad (d : Nat) : Bool :=
  op d > 1 || bitsAt d 20 12 ≠ 0 || bitsAt d 56 8 ≠ 0 || bitsAt d 104 24 ≠ 0 || bitsAt d 168 24 ≠ 0 ||
  bitsAt d 208 48 ≠ 0 || len d = 0 || len d % 4 ≠ 0
end XferD

/-- The ring entry of partition `p` at XR_TAIL, as an offset in its memory (R347). -/
def xferEntry (s : State) (p : PartId) : Nat :=
  s.reg (.peer 0) (PEER.XR_BASE p.val) * 32 +
    s.reg (.peer 0) (PEER.XR_TAIL p.val) % 2 ^ s.reg (.peer 0) (PEER.XR_LOG2 p.val) * 32

def modXfer (p : PartId) (f : Xfer → Xfer) : M Unit := modPart p fun x => { x with xfer := x.xfer.map f }

/-- What the end of a transfer does to its gate, and the STATUS that it writes (R348, R363). -/
def xferGate (p : PartId) (d code : Nat) : M Nat := do
  let r := XferD.gate d
  if code ≠ Err.none then
    if XferD.sig d then gateError p r
    return code
  else if XferD.sig d then signalGate p p r .fw 1
  else return Err.none

/-- The descriptor in progress ends: STATUS, XR_TAIL, gate and XFER_ERR (R348). -/
def xferFinish (p : PartId) (code : Nat) : M Unit := do
  match (← getPart p).xfer with
  | none => pure ()
  | some x =>
    let status ← xferGate p x.desc (if code ≠ Err.none then code else x.err)
    if status ≠ Err.none then raise (.link 0) 6
    let a := xferEntry (← get) p + 24
    attempt (portAccess p .w a 2 (mcWriteOp p 6 a (leBytes 2 status) [] []))
    wr (.peer 0) (PEER.XR_TAIL p.val) ((← rd (.peer 0) (PEER.XR_TAIL p.val)) + 1)
    modPart p fun y => { y with xfer := none }

/-- Every message of a transfer has been sent and answered. -/
def xferDone (x : Xfer) : Bool := x.sent = XferD.len x.desc && x.open_ = []

/-- The next message of a transfer (R348). A read's length is in words. -/
def xferMsg (x : Xfer) (rid n : Nat) (bs : List Byte) : Msg :=
  let d := x.desc
  let a := XferD.remote d + x.sent
  if XferD.op d = 0 then
    mkMsg MsgType.write (XferD.stn d) ⟨XferD.rpart d % 4, by omega⟩ (a % 2 ^ 40 + rid * 2 ^ 50) bs
  else mkMsg MsgType.read (XferD.stn d) ⟨XferD.rpart d % 4, by omega⟩ (a % 2 ^ 40 + n / 4 * 2 ^ 40 + rid * 2 ^ 50) []

/-- The requests of a transfer that the fence has discarded, or whose replies it has dropped, are waited for no longer. -/
def Xfer.without (x : Xfer) (rids : List Nat) : Xfer :=
  if rids = [] then x
  else { x with open_ := x.open_.filter fun o => !rids.contains o.1, err := if x.err = Err.none then Err.fenced else x.err }

/-- One more message of the transfer; false when none is left or the port's queue is full. Once its partition's fence has
started a transfer issues nothing more (R411). -/
def xferSend (p : PartId) : M Bool := do
  match (← getPart p).xfer with
  | none => return false
  | some x =>
    let d := x.desc
    let n := min 4064 (XferD.len d - x.sent)
    if n = 0 || !open_ (← get) p then return false
    else
      let go : M Unit := do
        let la := XferD.local_ d + x.sent
        let bs ← if XferD.op d = 0 then portAccess p .r la n (mcReadOp p 6 la n [] [] false) else pure []
        let rid := (← getPart p).nextRid
        pisteSend p (XferD.stn d) (xferMsg x rid n bs) (.xfer p)
        modPart p fun y => { y with nextRid := (rid + 1) % 16384 }
        modXfer p fun y => { y with sent := y.sent + n, open_ := y.open_ ++ [(rid, x.sent, n)] }
      fun s =>
        match go s with
        | .ok _ s' => .ok true s'
        | .error .wait _ => .ok false s
        | .error (.err code) s' => (do xferFinish p code; return false) s'

/-- The next posted descriptor is read and starts, or ends at once with its error. True while there is more to do. -/
def xferStart (p : PartId) : M Bool := do
  let s ← get
  if (s.part p).xfer.isSome then return false
  else if s.reg (.peer 0) (PEER.XR_TAIL p.val) = s.reg (.peer 0) (PEER.XR_HEAD p.val) then return false
  else
    let a := xferEntry s p
    match ← catchErr (portAccess p .r a 32 (mcReadOp p 6 a 32 [] [] false)) with
    | .error code =>
      modPart p fun y => { y with xfer := some ⟨0, 0, [], 0, 0⟩ }
      xferFinish p code
      return true
    | .ok bs =>
      let d := leNat bs
      modPart p fun y => { y with xfer := some ⟨d, 0, [], 0, 0⟩ }
      if XferD.bad d then
        xferFinish p Err.cmdField
        return true
      else
        repeatM 5000 (xferSend p)
        return (← getPart p).xfer.isNone

/-- The port goes on with the transfers of partition `p`. -/
def xferPump (p : PartId) : M Unit := do
  repeatM 5000 (xferSend p)
  repeatM 65536 (xferStart p)

/-- The transfers that meet `hit` end with `code`, and the next ones start. -/
def xferEndAll (code : Nat) (hit : PartId → Xfer → Bool) : M Unit :=
  forAll (List.finRange 4) fun p => do
    if ((← getPart p).xfer).any (hit p) then
      xferFinish p code
      xferPump p

/-- A station goes DOWN at a port (R355). -/
def stationDown (n : PortId) (t : Nat) : M Unit := do
  setUp n t false
  raise (.link n) 1
  modPort n fun x => { x with
    tx := x.tx.filter fun m => m.dst ≠ t
    held := x.held.filter fun m => m.src.stn.val ≠ t
    downLaps := x.downLaps.put t none }
  taintFor 1 ((List.range 4).map fun p => 4 * t + p)
  xferEndAll Err.pstPeerDown fun _ x => XferD.stn x.desc = t

/-- Streams to and from station `t` start at SEQ 0 (R340, R354). -/
def resetStreams (n : PortId) (t : Nat) : M Unit := do
  wr (.peer n) (PEER.TX_SEQ t) 0
  wr (.peer n) (PEER.TX_ACK t) 0
  wr (.peer n) (PEER.RX_NEXT t) 0

/-- A newer epoch of a remote partition is recorded; windows that expect it are tainted (R345, R352). -/
def learnEpoch (n : PortId) (t p e : Nat) : M Unit := do
  if newerEpoch e (peerEpoch (← get) n t p) then
    setPeerEpoch n t p e
    if !epochEnded (← getPort n) t p e then setMaskBit (.peer n) (PEER.P_FENCED t) p false
    taintFor 2 [4 * t + p]

/-- A member accepts the JOIN_ACK of station `t` (R354). -/
def memberJoins (n : PortId) (t depoch : Nat) (epochs : Nat) : M Unit := do
  setMember n t true
  setUp n t true
  wr (.peer n) (PEER.P_DEPOCH t) depoch
  resetStreams n t
  modPort n fun x => { x with
    tx := x.tx.filter fun m => m.dst ≠ t
    held := x.held.filter fun m => m.src.stn.val ≠ t
    downLaps := x.downLaps.put t none
    epochsEnded := x.epochsEnded.filter fun e => e.1 / 4 ≠ t }
  wr (.peer n) (PEER.P_FENCED t) 0
  forAll (List.range 4) fun p => learnEpoch n t p (bitsAt epochs (12 * p) 12)
  xferEndAll Err.pstPeerDown fun _ x => XferD.stn x.desc = t

/-- XR_HEAD_WRITE (R347). -/
def execXrHeadWrite (p : PartId) (head : BitVec 16) (s : State) : Host.Outcome State Fault Refusal :=
  M.next (pageWrite (.peer 0) (do
    wr (.peer 0) (PEER.XR_HEAD p.val) head.toNat
    xferPump p)) s

/-- XFER_COMPLETE (R348): every reply has returned. -/
def execXferComplete (p : PartId) (s : State) : Host.Outcome State Fault Refusal :=
  M.next (do
    if ((← getPart p).xfer).any xferDone then
      xferFinish p Err.none
      xferPump p) s

/-- XFER_TIMEOUT (R348). -/
def execXferTimeout (p : PartId) (s : State) : Host.Outcome State Fault Refusal :=
  M.next (do
    if (← getPart p).xfer.isSome then
      xferFinish p Err.pstTimeout
      xferPump p) s

/-- WIN_ARM (R351). -/
def execWinArm (w : Fin 32) (s : State) : Host.Outcome State Fault Refusal :=
  M.next (pageWrite (.peer 0) (winArmOp w.val)) s

/-- WIN_DISARM (R351). -/
def execWinDisarm (w : Fin 32) (s : State) : Host.Outcome State Fault Refusal :=
  M.next (pageWrite (.peer 0) (winLeave w.val 0)) s

/-- WIN_COMPLETE (R351). -/
def execWinComplete (w : Fin 32) (s : State) : Host.Outcome State Fault Refusal :=
  M.next (winCompleteOp w.val) s

end Sys2Proof.Machine
end

