-- ==== Sys2Proof/Machine/PistePort.lean ====
section
/-! DEFINITION. The Piste port: laps, slots, frames sent, echoes, membership on its own side (R323 to R336, R340, R342,
R353 to R358). -/
namespace Sys2Proof.Machine

def portState (s : State) (n : PortId) : Nat := s.reg (.link n) LINK.STATE
def ownStn (s : State) (n : PortId) : Nat := s.reg (.link n) LINK.STN

/-- The port enters a state; a change raises STATE_CHG (R353, R359). -/
def enterState (n : PortId) (st : Nat) : M Unit := do
  if portState (← get) n ≠ st then
    wr (.link n) LINK.STATE st
    raise (.link n) 0

/-! ### Lap maps (R327, R328) -/

/-- Byte of slot `i` in the map in force. -/
def mapByte (s : State) (n : PortId) (i : Nat) : Nat := bitsAt (s.reg (.link n) (LINK.LAPMAP_ACT (i / 4))) (8 * (i % 4)) 8
/-- Station `t` owns slot `i`. -/
def ownsSlot (s : State) (n : PortId) (t i : Nat) : Bool := bitsAt (mapByte s n i) 4 2 = 0 && bitsAt (mapByte s n i) 0 4 = t
/-- Slot `i` is a contention slot. -/
def contentionSlot (s : State) (n : PortId) (i : Nat) : Bool := bitsAt (mapByte s n i) 4 2 = 1
/-- The map gives station `t` a slot. -/
def mapGives (s : State) (n : PortId) (t : Nat) : Bool := (List.range 16).any (ownsSlot s n t)

/-- Map version `a` is newer than `b`: 1 to 127 ahead, modulo 256 (R328). -/
def newerMap (a b : Nat) : Bool :=
  let d := (a + 256 - b % 256) % 256
  1 ≤ d && d ≤ 127

/-- The distributing station has nothing left to repeat: EFF_LAP has passed and every member has reported (R328). -/
def mapSettled (s : State) (n : PortId) (m : NewMap) : Bool :=
  m.eff < s.reg (.link n) LINK.LAP &&
    (List.range 12).all fun t => !(s.reg (.link n) LINK.MEMBER).testBit t || t = ownStn s n || m.reported.contains t

/-- A newer map than the one in force has been heard of, which keeps the station out of reserved slots (R328). -/
def muted (s : State) (n : PortId) : Bool := (s.port n).muted.any fun v => newerMap v (s.reg (.link n) LINK.MAPVER)

/-- A joiner that has accepted its JOIN_ACK is a member once the map in force gives it a slot (R353). -/
def memberIfGiven (n : PortId) : M Unit := do
  let s ← get
  if portState s n = PortState.joining && (s.port n).joinAcked && mapGives s n (ownStn s n) then
    modPort n fun x => { x with joinAcked := false }
    enterState n PortState.member

/-- The distributed map comes into force at the start of lap EFF_LAP; a station that a newer one mutes stays mute until that
one is in force (R328). -/
def adoptMap (n : PortId) : M Unit := do
  let s ← get
  match (s.port n).newMap with
  | none => pure ()
  | some m =>
    if m.eff ≤ s.reg (.link n) LINK.LAP then
      forAll (List.range 4) fun w => wr (.link n) (LINK.LAPMAP_ACT w) (m.words.getD w 0)
      wr (.link n) LINK.MAPVER m.ver
      modPort n fun x => { x with
        muted := x.muted.filter fun v => newerMap v m.ver
        newMap := if m.mine && !mapSettled s n m then some m else none }
      memberIfGiven n

/-! ### The start of a lap -/

/-- A counter of consecutive laps after one more lap. -/
def lapsOf (bad : Bool) (k : Nat) : Nat := if bad then k + 1 else 0

/-- The lap that ends is evaluated (R331, R332, R355, R356), and a new one starts. -/
def lapBoundary (n : PortId) : M Unit := do
  let s ← get
  let x := s.port n
  let silent := (List.range 12).filter fun t => stationUp s n t && t ≠ ownStn s n && !x.heard.contains t
  modPort n fun x => { x with
    downLaps := silent.foldl (fun l t => l.put t (some ((l.look t).getD 0 + 1))) x.downLaps
    heard := []
    badLaps := lapsOf x.echoBad x.badLaps
    echoBad := false
    alarmLaps := lapsOf x.slotBad x.alarmLaps
    slotBad := false
    backoff := x.backoff - 1
    contended := false }
  adoptMap n

/-! ### What a slot's frames hold (R325, R333 to R335, R343) -/

/-- Bytes of a message in a payload (R338). -/
def msgBytes (m : Msg) : Nat := 16 + ceilDiv m.data.length 16 * 16

/-- The state of a partition as HEARTBEAT tells it (R339): REPLAY counts as RESET, FAILED as OFF. -/
def beatState (st : Nat) : Nat := if st = 0 then 0 else if st ≤ 2 then 1 else if st ≤ 6 then 2 else 3

/-- The HEARTBEAT message (R339). -/
def heartbeatMsg (s : State) : Msg :=
  mkMsg MsgType.heartbeat 15 0 0
    ((List.finRange 4).flatMap fun p => leBytes 4 (ownEpoch s p + beatState (s.reg .dlw (DLW.STATE p.val)) * 2 ^ 12))

/-- FENCE messages: one for each partition whose fence has ended the epoch that HEARTBEAT still gives (R358). -/
def fenceMsgs (s : State) : List Msg :=
  ((List.finRange 4).filter fun p => (s.part p).fenceOf = some (ownEpoch s p)).map fun p =>
    mkMsg MsgType.fence 15 0 (p.val + ownEpoch s p * 2 ^ 12) []

/-- The LAPMAP message of a station that distributes a map, until EFF_LAP has passed and every member has reported (R328). -/
def lapmapMsgs (s : State) (n : PortId) : List Msg :=
  match (s.port n).newMap with
  | some m => if m.mine && !mapSettled s n m then
      [mkMsg MsgType.lapmap 15 0 (m.eff % 2 ^ 48 + m.ver * 2 ^ 48) (m.words.flatMap (leBytes 4))] else []
  | none => []

/-- The partition epochs that a JOIN_ACK gives station `t`: one more than the newest recorded (R354). -/
def ackEpochs (s : State) (n : PortId) (t : Nat) : Nat :=
  (List.range 4).foldl (fun w p => w + (peerEpoch s n t p + 1) % 4096 * 2 ^ (12 * p)) 0

/-- The JOIN_ACK messages due (R354). -/
def joinAckMsgs (s : State) (n : PortId) : List Msg :=
  (s.port n).joinAcks.map fun a => mkMsg MsgType.joinAck a.1 0 (a.2 + ackEpochs s n a.1 * 2 ^ 12) []

/-- Moved from a lost star and not yet sent on this one (R357). -/
def TxMsg.fresh (m : TxMsg) : Bool := m.msg.moved && m.seq.isNone

/-- Precedence of a queued message: moved ones come first, in front of those of R343 (R357). -/
def precedence (m : TxMsg) : Nat :=
  if m.fresh then 2
  else if m.resend then 3
  else
    let t := m.msg.type
    if t = MsgType.writeAck || t = MsgType.readData then 4
    else if t = MsgType.gateSig then 5
    else if t = MsgType.atomAdd then 6
    else 7

/-- The message is ready to be sent. -/
def TxMsg.ready (m : TxMsg) : Bool := m.seq.isNone || m.resend

/-- Positions of ready messages that no earlier ready one of the same partition and destination precedes (R343). -/
def firstReady (l : List TxMsg) : List (Nat × TxMsg) :=
  (l.zipIdx.foldl (fun (acc : List (Nat × TxMsg)) e =>
    if e.1.ready && !(acc.any fun a => a.2.part = e.1.part && a.2.dst = e.1.dst) then acc ++ [(e.2, e.1)] else acc) [])

/-- A message that has no SEQ yet finds no space in its stream's window: 1,024 messages to its station are
unacknowledged (R340). -/
def noSpace (l : List TxMsg) (m : TxMsg) : Bool :=
  m.seq.isNone && 1024 ≤ (l.filter fun k => k.dst = m.dst && k.seq.isSome).length

/-- A message that goes again, or moves, and another of its kind to the same station goes before it in the order of their
SEQs: those of this star, or of the lost one (R342, R357). -/
def after (m k : TxMsg) : Bool :=
  let behind (a b : Nat) : Bool := let d := seqBehind a b; 1 ≤ d && d < 32768
  k.dst = m.dst &&
    ((m.fresh && k.fresh && behind k.msg.oseq m.msg.oseq) ||
      (m.resend && k.resend && match m.seq, k.seq with
        | some a, some b => behind b a
        | _, _ => false))

/-- The messages that may go next: while moved ones can, only they (R340, R342, R343, R357). -/
def mayGo (l : List TxMsg) : List (Nat × TxMsg) :=
  let ok := (firstReady l).filter fun e => !noSpace l e.2 && !l.any (after e.2)
  let moved := ok.filter fun e => e.2.fresh
  if moved = [] then ok else moved

/-- The next message for a frame: of its partition and epoch once it has one, fitting, of the highest precedence, in issue
order. -/
def nextMsg (l : List TxMsg) (room : Nat) (grp : Option (PartId × Nat)) : Option (Nat × TxMsg) :=
  let ok := (mayGo l).filter fun e =>
    msgBytes e.2.msg ≤ room && (match grp with | none => true | some g => e.2.part = g.1 && e.2.epoch = g.2)
  ok.foldl (fun best e => match best with
    | none => some e
    | some b => if precedence e.2 < precedence b.2 then some e else some b) none

/-- The message at position `i` has been placed in a frame with SEQ `q`. -/
def placed (l : List TxMsg) (i q : Nat) : List TxMsg :=
  l.modify i fun m => { m with seq := some q, resend := false, age := 0 }

/-- A frame's payload is filled from the queue: its messages, and its partition and epoch (R334, R340, R343). -/
def fillFrame (n : PortId) : Nat → Nat → Option (PartId × Nat) → List Msg → M (List Msg × Option (PartId × Nat))
  | 0, _, grp, ms => return (ms, grp)
  | fuel + 1, room, grp, ms => do
    match nextMsg (← getPort n).tx room grp with
    | none => return (ms, grp)
    | some (i, m) =>
      let q ← match m.seq with
        | some q => pure q
        | none => do
          let q ← rd (.peer n) (PEER.TX_SEQ m.dst)
          wr (.peer n) (PEER.TX_SEQ m.dst) (q + 1)
          pure q
      if m.resend then cnt (.link n) LINK.RTX 1
      modPort n fun x => { x with tx := placed x.tx i q }
      fillFrame n fuel (room - msgBytes m.msg) (some (m.part, m.epoch)) (ms ++ [{ m.msg with seq := q }])

/-- The acknowledgement field (R335). -/
def ackField (s : State) (n : PortId) : List AckEntry :=
  (List.range 12).map fun t =>
    if t = ownStn s n then ⟨0, 0, false⟩
    else ⟨s.reg (.peer n) (PEER.RX_NEXT t), s.reg (.peer n) (PEER.P_DEPOCH t), s.reg (.peer n) (PEER.P_MEMBER t) = 1⟩

/-- A frame of this station in the present slot (R333, R334, R336). -/
def mkFrame (s : State) (n : PortId) (wl : Fin 4) (grp : Option (PartId × Nat)) (msgs : List Msg) : Frame :=
  let x := s.port n
  let r := fun f => s.reg (.link n) f
  { stn := ownStn s n
    part := (grp.map Prod.fst).getD 0
    wl
    slot := ⟨x.slot % 16, by omega⟩
    epoch := (grp.map Prod.snd).getD (ownEpoch s 0)
    depoch := r LINK.DEPOCH
    lap := r LINK.LAP
    job := BitVec.ofNat 32 (r LINK.JOB)
    kgen := r LINK.KGEN_CUR
    mapver := r LINK.MAPVER
    msgs
    acks := ackField s n
    key := x.keyCur }

/-- A frame goes out. -/
def sendFrame (n : PortId) (wl : Fin 4) (grp : Option (PartId × Nat)) (msgs : List Msg) : M Unit := do
  let f := mkFrame (← get) n wl grp msgs
  modPort n fun x => { x with out := x.out ++ [f], sealed := true }
  cnt (.link n) LINK.FR_TX 1

/-- The frames of a member in its own slot (R325, R343): wavelength 0 with HEARTBEAT, FENCE, LAPMAP and JOIN_ACK before
its queued messages, and the other wavelengths while messages are ready. -/
def memberFrames (n : PortId) : M Unit := do
  let s ← get
  let acks := joinAckMsgs s n
  let pre := heartbeatMsg s :: (fenceMsgs s ++ lapmapMsgs s n ++ acks)
  let used := (pre.map msgBytes).foldl (· + ·) 0
  let (ms, grp) ← fillFrame n 256 (4096 - used) none pre
  sendFrame n 0 grp ms
  forAll [1, 2, 3] fun wl => do
    let (ms, grp) ← fillFrame n 256 4096 none []
    if ms ≠ [] then sendFrame n wl grp ms
  modPort n fun x => { x with joinAcks := [] }
  forAll acks fun m => memberJoins n m.dst (bitsAt m.arg.toNat 0 12) (bitsAt m.arg.toNat 12 48)

/-- The last DEPOCH used, or 0xFFF where there was none (R339). -/
def lastDepoch (s : State) (n : PortId) : Nat :=
  if (s.port n).depochUsed then s.reg (.link n) LINK.DEPOCH else 0xFFF

/-- What the port sends in the slot that has just started (R325, R329); a LEAVING one sends LEAVE for 2 laps, which are the
32 slots after the request (R353). -/
def transmit (n : PortId) (inTime : Bool) (randSlot : Fin 16) (randWl : Fin 4) : M Unit := do
  let s ← get
  let x := s.port n
  let st := portState s n
  let mine := ownsSlot s n (ownStn s n) x.slot && !muted s n
  if !inTime then pure ()
  else if st = PortState.member && mine then memberFrames n
  else if st = PortState.leaving && mine && x.leaveSlots ≤ 32 then
    sendFrame n 0 none [heartbeatMsg s, mkMsg MsgType.leave 15 0 0 []]
  else if st = PortState.joining && contentionSlot s n x.slot && x.backoff = 0 && !x.contended &&
      x.slot = randSlot.val then
    modPort n fun x => { x with contended := true }
    sendFrame n randWl none [mkMsg MsgType.join 15 0 (lastDepoch s n) []]

/-- A job master that hears no member starts at lap 0, under a key with which no frame that it knows of has been sealed
(R326). -/
def masterStarts (s : State) (n : PortId) : Bool :=
  s.reg (.link n) LINK.MASTER = 1 && ownStn s n < 12 && s.reg (.link n) LINK.MEMBER = 0 && !(s.port n).sealed

/-- SLOT_START (R323, R325, R326). -/
def slotStartOp (n : PortId) (inTime : Bool) (randSlot : Fin 16) (randWl : Fin 4) : M Unit := do
  let s ← get
  let st := portState s n
  let lk : PageId := .link n
  if st = PortState.off || st = PortState.starDown || n.val ≥ s.variant.ports then pure ()
  else if s.reg lk LINK.LAPSYNC = 0 then
    if masterStarts s n then
      wr lk LINK.LAPSYNC 1
      wr lk LINK.LAP 0
      modPort n fun x => { x with slot := 0 }
  else
    let x := s.port n
    modPort n fun x => { x with out := [] }
    if x.slot ≥ 15 && s.reg lk LINK.LAP + 1 ≥ 2 ^ 48 then pure ()
    else
      if x.slot ≥ 15 then
        wr lk LINK.LAP (s.reg lk LINK.LAP + 1)
        modPort n fun x => { x with slot := 0 }
        lapBoundary n
      else modPort n fun x => { x with slot := x.slot + 1 }
      if st = PortState.leaving then modPort n fun x => { x with leaveSlots := x.leaveSlots + 1 }
      transmit n inTime randSlot randWl

/-! ### Echoes (R324, R330 to R332) -/

/-- The sequenced messages of a garbled frame are sent again in the next owned slot (R330). -/
def resendFrame (n : PortId) (f : Frame) : M Unit :=
  modPort n fun x => { x with
    tx := x.tx.map fun m =>
      if f.msgs.any (fun k => k.dst = m.dst && sequenced k.type && m.seq = some k.seq) then { m with resend := true }
      else m }

/-- A job master that alone is on the star answers its own JOIN (R353, R354; log entry 20). -/
def selfJoin (n : PortId) : M Unit := do
  let s ← get
  let t := ownStn s n
  let d := (s.reg (.link n) LINK.DEPOCH + 1) % 4096
  let e := ackEpochs s n t
  wr (.link n) LINK.DEPOCH d
  wr (.peer 0) PEER.OWN_PEPOCH e
  memberJoins n t d e
  modPort n fun x => { x with joinAcked := true, depochUsed := true }
  memberIfGiven n

/-- The echo is that of the frame: correctable, the same body byte for byte, and no other burst's energy in its preamble
(R330). -/
def echoClean (f : Frame) (burst : List Byte) (energy : Bool) : Bool :=
  (FrameCode.decode burst 18).2 = some (sealFrame f) && !energy

/-- A collision: it counts, and the contender draws its backoff (R330, R331). -/
def collide (n : PortId) (draw : Nat) : M Unit := do
  cnt (.link n) LINK.COLLISION 1
  modPort n fun x => { x with
    collisions := x.collisions + 1
    backoff := 1 + draw % 2 ^ min (x.collisions + 1) 6 }

/-- A garbled echo of a frame in an owned slot (R330, R332, R356). -/
def garble (n : PortId) (f : Frame) : M Unit := do
  let x ← getPort n
  cnt (.link n) LINK.GARBLED_ECHO 1
  resendFrame n f
  if !x.slotBad && x.alarmLaps + 1 ≥ (← rd (.link n) LINK.ALARM_LAPS) then raise (.link n) 2
  modPort n fun x => { x with slotBad := true, echoBad := x.echoBad || f.wl = 0 }

/-- A clean echo of a frame in a contention slot (R331). -/
def uncontended (n : PortId) : M Unit := do
  let s ← get
  modPort n fun x => { x with collisions := 0 }
  if portState s n = PortState.joining && s.reg (.link n) LINK.MASTER = 1 && s.reg (.link n) LINK.MEMBER = 0 then selfJoin n

/-- ECHO_CHECK: the echo of the frame sent on a wavelength in this slot. The round trip is measured on every echo (R324). -/
def echoOp (n : PortId) (wl : Fin 4) (echo : EchoResult) (draw : Nat) : M Unit := do
  let s ← get
  match (s.port n).out.find? fun f => f.wl = wl with
  | none => pure ()
  | some f =>
    modPort n fun x => { x with out := x.out.filter fun f => f.wl ≠ wl }
    match echo with
    | .missing => modPort n fun x => { x with echoBad := x.echoBad || wl = 0 }
    | .heard burst rtt energy =>
      wr (.link n) LINK.PST_RANGE rtt
      modPort n fun x => { x with dark := 0 }
      let contention := contentionSlot s n f.slot.val
      match echoClean f burst energy, contention with
      | true, true => uncontended n
      | true, false => pure ()
      | false, true => collide n draw
      | false, false => garble n f

/-! ### The firmware's side of membership (R353) -/

/-- A final count from 98,000 to 102,000 (R456). -/
def oscGood (count : Nat) : Bool := 98000 ≤ count && count ≤ 102000

/-- EN = 1 takes an OFF port with a calibrated oscillator (R455) into LISTEN, EN = 0 turns it OFF; the port then knows no lap and no station. -/
def linkEnable (n : PortId) (on : Bool) : M Unit := do
  let lk : PageId := .link n
  wr lk LINK.EN (b2n on)
  if on then
    if portState (← get) n = PortState.off && oscGood (← rd .pwr (PWR.OSC_CAL_T n.val)) then
      modPort n fun x => { x with dark := 0 }
      enterState n PortState.listen
  else
    enterState n PortState.off
    wr lk LINK.LAPSYNC 0
    forAll (List.range 12) fun t => do
      setMember n t false
      setUp n t false
    modPort n fun x => { x with out := [], held := [], heard := [], downLaps := [], echoBad := false, badLaps := 0, dark := 0,
                                slotBad := false, alarmLaps := 0, collisions := 0, backoff := 0, contended := false,
                                joinAcks := [], joinAcked := false, leaveSlots := 0 }

/-- The JOIN bit: joining starts in LISTEN with LAPSYNC = 1 and an own station of 0 to 11, and stops with 0. -/
def linkJoin (n : PortId) (on : Bool) : M Unit := do
  let s ← get
  let st := portState s n
  if on then
    if st = PortState.listen && s.reg (.link n) LINK.LAPSYNC = 1 && ownStn s n < 12 then enterState n PortState.joining
  else if st = PortState.joining then
    modPort n fun x => { x with joinAcked := false }
    enterState n PortState.listen

/-- The LEAVE bit. -/
def linkLeave (n : PortId) : M Unit := do
  if portState (← get) n = PortState.member then
    enterState n PortState.leaving
    modPort n fun x => { x with leaveSlots := 0 }

/-- A write of the register at 0x040 of the LINK page (R359). -/
def linkCtrlWrite (n : PortId) (v : Nat) : M Unit := do
  wr (.link n) LINK.STN (bitsAt v 1 4)
  wr (.link n) LINK.MASTER (bitsAt v 5 1)
  linkEnable n (v.testBit 0)
  linkJoin n (v.testBit 6)
  if v.testBit 7 then linkLeave n

/-- The star is lost to the port: its own wavelength-0 echo has been bad in DOWN_LAPS laps, or there has been no signal for
2,000 OC (R356). -/
def starLost (s : State) (n : PortId) : Bool :=
  s.reg (.link n) LINK.DOWN_LAPS ≤ (s.port n).badLaps || 2000 ≤ (s.port n).dark

/-- A message of a lost star as the surviving one takes it: one that had a SEQ is MOVED, with that SEQ as its OSEQ; one that
had none there is as new (R357). -/
def TxMsg.move (m : TxMsg) : TxMsg :=
  match m.seq with
  | some q => { m with msg := { m.msg with moved := true, oseq := q }, seq := none, resend := false, age := 0 }
  | none => { m with msg := { m.msg with moved := false, oseq := 0 } }

/-- STAR_DOWN (R356, R357): the messages of the lost star go to the surviving one. -/
def starDownOp (n : PortId) : M Unit := do
  let s ← get
  let st := portState s n
  if st = PortState.off || st = PortState.starDown || !starLost s n then pure ()
  else
    enterState n PortState.starDown
    raise (.link n) 3
    let k : PortId := 1 - n
    if portMember (← get) k then
      let moved := (← getPort n).tx.map TxMsg.move
      modPort n fun x => { x with tx := [] }
      modPort k fun x => { x with tx := x.tx ++ moved }

/-- SWAP: a held next key becomes the current one (R336). -/
def keySwapOp (n : PortId) : M Unit := do
  let lk : PageId := .link n
  if (← rd lk LINK.NEXT_VALID) = 1 then
    wr lk LINK.KGEN_CUR (← rd lk LINK.KGEN_NEXT)
    wr lk LINK.NEXT_VALID 0
    modPort n fun x => { x with keyCur := x.keyNext, sealed := x.sealedNext, sealedNext := false }

/-- GO: the job master begins to distribute LAPMAP_NEW (R328). -/
def lapmapGoOp (n : PortId) : M Unit := do
  let s ← get
  let lk : PageId := .link n
  if s.reg lk LINK.MASTER = 1 then
    let m : NewMap :=
      ⟨(List.range 4).map fun w => s.reg lk (LINK.LAPMAP_NEW w), s.reg lk LINK.EFF_LAP, s.reg lk LINK.VER, true, []⟩
    modPort n fun x => { x with newMap := some m }

/-- SLOT_START (R325). -/
def execSlotStart (n : PortId) (inTime : Bool) (randSlot : Fin 16) (randWl : Fin 4) (s : State) :
    Host.Outcome State Fault Refusal := M.next (slotStartOp n inTime randSlot randWl) s

/-- SLOT_SILENT (R323): the slot ends after SILENCE OC; the next one begins with its own SLOT_START. -/
def execSlotSilent (_n : PortId) (s : State) : Host.Outcome State Fault Refusal := .next s

/-- ECHO_CHECK (R330). -/
def execEchoCheck (n : PortId) (wl : Fin 4) (echo : EchoResult) (draw : Nat) (s : State) :
    Host.Outcome State Fault Refusal := M.next (echoOp n wl echo draw) s

/-- BACKOFF_EXPIRY (R331): the drawn number of laps has passed. -/
def execBackoffExpiry (n : PortId) (s : State) : Host.Outcome State Fault Refusal :=
  M.next (modPort n fun x => { x with backoff := 0 }) s

/-- RETRANSMIT (R342): every unacknowledged message to the station is sent again, in SEQ order. -/
def execRetransmit (n : PortId) (stn : StnId) (s : State) : Host.Outcome State Fault Refusal :=
  M.next (modPort n fun x => { x with
    tx := x.tx.map fun m => if m.dst = stn.val && m.seq.isSome then { m with resend := true } else m }) s

/-- LAPMAP_ADOPT (R328). -/
def execLapmapAdopt (n : PortId) (s : State) : Host.Outcome State Fault Refusal := M.next (adoptMap n) s

/-- PEER_DOWN (R355): DOWN_LAPS laps have brought no accepted frame of an UP station. -/
def execPeerDown (n : PortId) (stn : StnId) (s : State) : Host.Outcome State Fault Refusal :=
  M.next (do
    let s ← get
    if stationUp s n stn.val && s.reg (.link n) LINK.DOWN_LAPS ≤ ((s.port n).downLaps.look stn.val).getD 0 then
      stationDown n stn.val) s

/-- STAR_DOWN (R356). -/
def execStarDown (n : PortId) (s : State) : Host.Outcome State Fault Refusal := M.next (starDownOp n) s

/-- PORT_ENABLE (R353). -/
def execPortEnable (n : PortId) (value : BitVec 32) (s : State) : Host.Outcome State Fault Refusal :=
  M.next (pageWrite (.link n) (linkCtrlWrite n value.toNat)) s

/-- JOIN_REQUEST (R353). -/
def execJoinRequest (n : PortId) (on : Bool) (s : State) : Host.Outcome State Fault Refusal :=
  M.next (pageWrite (.link n) (linkJoin n on)) s

/-- LEAVE_REQUEST (R353). -/
def execLeaveRequest (n : PortId) (s : State) : Host.Outcome State Fault Refusal :=
  M.next (pageWrite (.link n) (linkLeave n)) s

/-- KEY_SWAP (R336). -/
def execKeySwap (n : PortId) (s : State) : Host.Outcome State Fault Refusal :=
  M.next (pageWrite (.link n) (keySwapOp n)) s

/-- LAPMAP_GO (R328). -/
def execLapmapGo (n : PortId) (s : State) : Host.Outcome State Fault Refusal :=
  M.next (pageWrite (.link n) (lapmapGoOp n)) s

end Sys2Proof.Machine
end

