-- ==== Sys2Proof/Machine/RegRead.lean ====
section
/-! DEFINITION. Reading the register pages: stored fields, and the fields that show what the rest of the state holds
(R15 to R20, R38, R414, R461, R472 to R479 and the register map of each chapter). -/
namespace Sys2Proof.Machine

/-- BLK_ID.CODE (R474). -/
def PageId.code : PageId → Nat
  | .eng => 0x01
  | .dlw => 0x02
  | .link _ => 0x03
  | .peer _ => 0x04
  | .sec => 0x05
  | .pwr => 0x06
  | .pctl _ => 0x10
  | .qmg _ => 0x11
  | .mc _ _ => 0x12
  | .tile _ .tl => 0x20
  | .tile _ .lut => 0x21
  | .tile _ .acc => 0x22
  | .tile _ .cnv => 0x23
  | .tile _ .rot => 0x24
  | .tile _ .spd => 0x25
  | .tile _ .lft => 0x26
  | .tile _ .dbg => 0x27

/-- BLK_ID.UNIT (R472). -/
def PageId.unit : PageId → Nat
  | .link n => n.val
  | .peer n => n.val
  | .mc _ c => c.val
  | .tile g _ => localOf g
  | _ => 0

/-- BLK_ID (R472). -/
def PageId.blkId (i : PageId) : Nat :=
  i.code + i.unit * 2 ^ 16 + (match i.part with | some p => p.val | none => 0) * 2 ^ 20

/-- BLK_CAP (R472): the DLW page has a window. -/
def PageId.blkCap (i : PageId) : Nat := b2n i.hasRws + (if i = .dlw then 2 else 0)

/-- A field's part of the 32-bit word at page offset `off`; WO fields read 0 (R20). -/
def fieldWord (b : Bank) (f : Fld) (off : Nat) : Nat :=
  if f.acc = .wo then 0
  else if f.off = off then (b.get f <<< f.lo) % 2 ^ 32
  else if f.wide && f.off + 4 = off then (b.get f <<< f.lo) >>> 32 % 2 ^ 32
  else 0

/-- GT_SEL, GT_ARG, GT_ARG2 and GT_RES lie in the bank of the class that accesses them (R396). -/
def bankedOff (i : PageId) (cls : SrcClass) (off : Nat) : Nat :=
  match i with
  | .qmg _ =>
    if [0x048, 0x068, 0x06C, 0x070, 0x074, 0x078].contains off then
      match classBank cls with
      | some b => off + 0x1000 * b
      | none => off + 0x3000
    else off
  | _ => off

/-- The stored fields at page offset `off`: in a page with RWS fields, 0x800 to 0xFFF show their active copies (R480). -/
def storedWord (i : PageId) (b : Bank) (cls : SrcClass) (off : Nat) : Nat :=
  if i.hasRws && 0x800 ≤ off then (i.rws.map Fld.active).foldl (fun w f => w ||| fieldWord b f off) 0
  else i.fields.foldl (fun w f => w ||| fieldWord b f (bankedOff i cls off)) 0

/-- The low or high half of a 64-bit value. -/
def half (hi : Bool) (x : Nat) : Nat := (if hi then x >>> 32 else x) % 2 ^ 32

/-- ENG_IDENT (R478). -/
def engIdent (v : Variant) : Nat :=
  let io := v.ports
  let (n, st) := match v with | .m4i1 => (0, 4) | .m8i1 => (1, 8) | .m8i2 => (2, 8)
  48 + 4 * 2 ^ 8 + io * 2 ^ 11 + n * 2 ^ 13 + st * 2 ^ 16

/-- The stack of a channel group (R25, R26). -/
def stackOf (v : Variant) (p : PartId) (c : Fin 2) : Nat := match v with | .m4i1 => p.val | _ => 2 * p.val + c.val

/-- The command at the head of the sequencer (R221, R479). While an accepted synchronising command has not completed and a
later command stands next to be accepted, R221 does not say which of them is the head: the model shows the oldest accepted
one (DESIGN CHOICE, log entry 165). -/
def headCmd (t : Tile) : CmdWord :=
  match t.seq.sync, t.seq.ahead with
  | c :: _, _ => c.bits
  | [], f :: _ => f.bits
  | [], [] => 0

/-- Some page of the tile asserts its interrupt (R394). -/
def tileIrq (s : State) (g : TileId) : Bool :=
  [TPage.tl, .lut, .acc, .cnv, .rot, .spd, .lft, .dbg].any fun k =>
    s.reg (.tile g k) HDR.IRQ_STAT &&& s.reg (.tile g k) HDR.IRQ_EN ≠ 0

/-- A 12-bit mask of the tiles of a partition that meet `ok`. -/
def tileMask (p : PartId) (ok : TileId → Bool) : Nat :=
  (tilesOf p).foldl (fun m g => if ok g then m + 2 ^ localOf g else m) 0

/-- A 16-bit mask of queues. -/
def queueMask (ok : Nat → Bool) : Nat := (List.range 16).foldl (fun m q => if ok q then m + 2 ^ q else m) 0

/-- The gate that GT_SEL of a class selects (R396). -/
def selGate (s : State) (p : PartId) (cls : SrcClass) : GateRef :=
  match classBank cls with
  | some b => ⟨qr s p (QMG.SEL_INDEX b), qr s p (QMG.SEL_GLOBAL b) = 1⟩
  | none => ⟨0, false⟩

/-- ACC_ROW_INFO (R154). -/
def rowInfo (x : RowState) : Nat :=
  x.pcnt + x.s * 2 ^ 17 + b2n x.sMix * 2 ^ 21 + b2n x.longK * 2 ^ 22 + b2n x.sat * 2 ^ 23 + b2n x.written * 2 ^ 24

/-- Word `w` of a row map (R154). -/
def rowMap (x : AccBuf) (bit : RowState → Bool) (w : Nat) : Nat :=
  (List.range 32).foldl (fun m i => if bit (x.row (32 * w + i)) then m + 2 ^ i else m) 0

/-- Memory reads of 64 bytes of a tile's lift engine in flight (R271, R285): those that wait at the system port. -/
def liftReads (s : State) (g : TileId) : Nat :=
  ((s.eng.sys.reqs.filter fun r => r.data.isNone && [2, 4, 5, 7].any fun u => r.who = .tile g u).map
    fun r => r.len / 64).sum

/-- The jobs of queue `q` that are dispatched and not completed, suspects without a verdict among them (R396, R417). -/
def inflight (s : State) (p : PartId) (q : Nat) : Nat :=
  let x := s.part p
  (x.jobs.filter fun j => j.queue = q && !j.ended).length +
    (x.suspects.filter fun y => y.job.queue = q && y.verdict.isNone && !x.jobs.any fun j => j.id = y.job.id).length

/-- What a queue's registers show of the rest of the state (R380, R396). -/
def queueWord (s : State) (p : PartId) (off : Nat) : Nat :=
  let q := (off - 0x100) / 0x40
  match (off - 0x100) % 0x40 with
  | 0x14 => min 255 (inflight s p q) * 2 ^ 8
  | 0x3C => (if qr s p (QMG.Q_STANDING q) = 1 then min 0xFFFF (chainLag s p q) else 0) * 2 ^ 16
  | _ => 0

/-- ARRAY_BUSY, BUILD_BUSY and WIN_LOAD (R223): the micro-operations that the array unit's head may make next are in
progress (DEDUCED, log entry 30). -/
def arrayStatus (t : Tile) : Nat :=
  match t.head .array, t.units.arrayRun with
  | some c, some r =>
    let n := rowCount c.bits r
    let live := fillsOp c.op && r.retry.isNone
    let step := live && stepReady c.bits r && (c.op ≠ Op.sweep || t.arr.ready ≠ [])
    let build := live && c.op = Op.sweep && !r.bpos.done n && t.arr.ready.length < 2
    let load := live && !r.pos.done n && r.window ≠ some (r.pos.rb, r.pos.sc)
    b2n step + b2n build * 2 + b2n load * 2 ^ 3
  | _, _ => 0

/-- The fields that are computed from the state, at page offset `off`. -/
def liveWord (s : State) (i : PageId) (cls : SrcClass) (off : Nat) : Nat :=
  match i with
  | .eng =>
    if off = 0x040 then engIdent s.variant
    else if off = 0x100 then
      (s.eng.sys.reqs.filter fun r => r.handed && r.data.isNone).length % 2 ^ 11 + b2n (sysStalls s) * 2 ^ 11
    else 0
  | .dlw =>
    if 0x800 ≤ off && s.reg .dlw DLW.PAGE < 24 then
      leNat (s.eng.dump.read (s.reg .dlw DLW.SLOT * 49152 + s.reg .dlw DLW.PAGE * 2048 + (off - 0x800)) 4)
    else 0
  | .pctl p =>
    if off = 0x050 then tileMask p (fun g => !betweenJobs s g) * 2 ^ 16
    else if off = 0x0D0 then tileMask p (tileIrq s)
    else 0
  | .qmg p =>
    if off = 0x050 || off = 0x054 then half (off = 0x054) (s.gate p (selGate s p cls)).value
    else if off = 0x058 || off = 0x05C then half (off = 0x05C) (s.gateCfg p (selGate s p cls))
    else if off = 0x080 then
      queueMask (fun q => (headOf s p q).isSome) + queueMask (fun q => qr s p (QMG.Q_STATE q) = QState.error) * 2 ^ 16
    else if 0x100 ≤ off && off < 0x500 then queueWord s p off
    else 0
  | .mc p c =>
    if off = 0x040 then stackOf s.variant p c
    else if off = 0x048 || off = 0x04C then half (off = 0x04C) s.variant.capacity
    else 0
  | .tile g .tl =>
    if off = 0x040 then
      let t := s.tile g
      opOf (headCmd t) * 2 ^ 8 + t.units.array.length * 2 ^ 16 + t.units.cnv.length * 2 ^ 18 + t.units.lift.length * 2 ^ 20
    else 0
  | .tile g .lut => if off = 0x040 then arrayStatus (s.tile g) else 0
  | .tile g .acc =>
    let t := s.tile g
    if off = 0x040 then t.bufState 0 + t.bufState 1 * 4 + b2n (t.hold 0) * 2 ^ 8 + b2n (t.hold 1) * 2 ^ 9
    else if off = 0x04C then rowInfo ((t.acc (s.reg i ACC.BUF)).row (s.reg i ACC.ROW))
    else if 0x100 ≤ off && off < 0x180 then
      rowMap (t.acc ((off - 0x100) / 32 % 2)) (if off < 0x140 then RowState.sat else RowState.longK) ((off - 0x100) % 32 / 4)
    else 0
  | .tile g .lft => if off = 0x040 then min 32 (liftReads s g) * 2 ^ 3 else 0
  | .tile g .dbg =>
    if 0x080 ≤ off && off < 0x090 && tlState s g ≠ TlState.idle then
      bitsAt (headCmd (s.tile g)).toNat (8 * (off - 0x080)) 32
    else 0
  | _ => 0

/-- What the header shows of the page's state: BLK_ID, BLK_CAP, PRESENT, ERR_INFO and DIFF (R472). -/
def headerWord (s : State) (i : PageId) (off : Nat) : Nat :=
  match off with
  | 0x000 => i.blkId
  | 0x008 => i.blkCap
  | 0x010 => 1
  | 0x024 => half (s.reg i HDR.ERR_HI = 1) (s.reg i HDR.ERR_REC)
  | 0x02C => b2n (diffBank i (s.bank i))
  | _ => 0

/-- The 32-bit word at page offset `off`, whatever state the page's domain is in. -/
def rawWord (s : State) (i : PageId) (cls : SrcClass) (off : Nat) : Nat :=
  storedWord i (s.bank i) cls off ||| liveWord s i cls off ||| headerWord s i off

/-- The page shows only its identification: its tile is gated, or its partition is in RESET, RETRAIN, RESTART or OFF
(R414, R461, R472, R474). -/
def pageHidden (s : State) (i : PageId) : Bool :=
  pageGated s i ||
    match i.part with
    | some p => [3, 4, 5, 8].contains (s.reg .dlw (DLW.STATE p.val))
    | none => false

/-- What a read of a page's word returns (R19, R38, R414, R461, R474). -/
def regWord (s : State) (i : PageId) (cls : SrcClass) (off : Nat) : Nat :=
  if !pageAwake s i then 0
  else if off < 0x00C then rawWord s i cls off
  else if pageHidden s i then 0
  else rawWord s i cls off

/-- The RC fields that a read of `size` bytes at page offset `off` clears (R16, R17, R20). -/
def clearedBy (i : PageId) (off size : Nat) : List Fld :=
  i.counters.filter fun f =>
    if f.wide then size = 8 && f.off = off else f.off = off || (size = 8 && f.off = off + 4)

/-- Where a window address lies in a host aperture: partition and aperture offset (R36, R39). -/
def apertureAt (addr : Nat) : Option (PartId × Nat) :=
  if h : 0x100000 ≤ addr ∧ addr < 0x2100000 then
    let off := (addr - 0x100000) % 0x800000
    if 0x300000 ≤ off then some (⟨(addr - 0x100000) / 0x800000, by omega⟩, off - 0x300000) else none
  else none

/-- An access that comes by the debug port. -/
def viaDebug (cls : SrcClass) : Bool := cls = .debug || cls = .vendor

/-- The debug port answers this access: every one where it is open, the vendor's alone in RETURNED (R446). How the port knows
the vendor is not stated; that an access is the vendor's is part of the command (DESIGN CHOICE, log entry 172). -/
def DebugPort.admits (d : DebugPort) (cls : SrcClass) : Bool :=
  match d with
  | .opened => true
  | .vendorOnly => cls = .vendor
  | .locked => false

/-- An access by the debug port reaches the page: the port answers it, and the page is a DBG page; the engine cores have no
page (R446). -/
def debugReaches (s : State) (cls : SrcClass) (i : Option PageId) : Bool :=
  DebugPort.admits s.eng.debug cls && match i with | some (.tile _ .dbg) => true | _ => false

/-- The debug port answers with an error, and reads as 0 (R446). -/
def respondLocked (n : Nat) : M Unit := modify fun s => { s with resp := ⟨Err.none, List.replicate n 0, true⟩ }

/-- A read of the register window (R15 to R20): the RC fields that it returns are cleared, where the page shows them. -/
def windowRead (addr size : Nat) (cls : SrcClass) : M Unit := do
  let s ← get
  if !wellSized addr size then respondDecode
  else if viaDebug cls && !debugReaches s cls (fittedPage s (addr / 0x1000)) then respondLocked size
  else
    match apertureAt addr with
    | some (p, x) => apertureOp p x (.read size)
    | none =>
      let off := addr % 0x1000
      match fittedPage s (addr / 0x1000) with
      | none => modify fun s => { s with resp := ⟨Err.none, List.replicate size 0, false⟩ }
      | some i =>
        let w := regWord s i cls off + (if size = 8 then regWord s i cls (off + 4) * 2 ^ 32 else 0)
        if pageAwake s i && !pageHidden s i then clearRc i (clearedBy i off size)
        modify fun s => { s with resp := ⟨Err.none, leBytes size w, false⟩ }

/-- RC_COUNTER_READ (R20). -/
def execRcCounterRead (addr size : Nat) (cls : SrcClass) (s : State) : Host.Outcome State Fault Refusal :=
  M.next (windowRead addr size cls) s

end Sys2Proof.Machine
end

