-- ==== Sys2Proof/Machine/Reset.lean ====
section
/-! DEFINITION. Partition reset: FENCE, DUMP, RESET, RETRAIN, RESTART, REPLAY, FAILED and OFF (R402 to R421, R463). -/
namespace Sys2Proof.Machine

/-! ### States of R410 -/
namespace PState
def run : Nat := 0
def fence : Nat := 1
def dump : Nat := 2
def reset : Nat := 3
def retrain : Nat := 4
def restart : Nat := 5
def replay : Nat := 6
def failed : Nat := 7
def off : Nat := 8
end PState

def partState (s : State) (p : PartId) : Nat := s.reg .dlw (DLW.STATE p.val)
def setState (p : PartId) (st : Nat) : M Unit := wr .dlw (DLW.STATE p.val) st

/-! ### Causes of R429 -/
namespace Cause
def cycle : Nat := 1
def stall : Nat := 2
def host : Nat := 3
def firmware : Nat := 4
def watchdog : Nat := 5
def replayTmo : Nat := 6
def power : Nat := 7
end Cause

/-- No declaration (R487 KIND 0). -/
def Graph.none_ : Graph := ⟨0, 0, [], 0⟩

/-- A trigger or declaration that is ignored is counted (R401, R416, R477). -/
def ignored (p : PartId) (cause : Nat) : M Unit := do
  logErr .dlw Err.none p.val cause (← rd .dlw (DLW.EPOCH p.val))

/-! ### The journal (R415) -/

/-- Ring registers and counts of the queues: what QMG keeps of offsets 0x100 to 0x4FF. -/
def qmgKept (f : Fld) : Bool := 0x100 ≤ f.off && f.off < 0x500 && f.acc ≠ .w1c

/-- The fields of PCTL that the firmware restores. -/
def pctlKept (f : Fld) : Bool :=
  [PCTL.HOST, PCTL.DB_IGNORE, PCTL.HB_TMO, PCTL.HOST_GRACE, PCTL.ORPH_ALERT, PCTL.FC_BASE, PCTL.FC_LOG2, PCTL.FC_HEAD,
    PCTL.FR_BASE, PCTL.FR_LOG2, PCTL.FR_HEAD, PCTL.FR_TAIL, PCTL.LG_BASE, PCTL.LG_LOG2, PCTL.LG_HEAD, PCTL.TR_BASE,
    PCTL.TR_LOG2, PCTL.TR_MODE, PCTL.TR_HEAD, PCTL.TR_TAIL].contains f

/-- The fields of a bank that meet `keep`. -/
def keptFields (fs : List Fld) (b : Bank) : Bank := fs.foldl (fun j f => j.set f (b.get f)) []

/-- The active copies of a bank's RWS fields from offset `lo` on. -/
def activeOf (i : PageId) (lo : Nat) (b : Bank) : Bank :=
  keptFields ((i.rws.filter fun f => lo ≤ f.off).map Fld.active) b

/-- Some resident model has a range on tile `g`. -/
def modelOn (s : State) (g : TileId) : Bool := s.eng.models.any fun m => m.resident && m.tiles.any fun t => t.tile = g.val

def Part.journalOr (x : Part) : Journal := x.journal.getD ⟨[], [], [], []⟩
def modJournal (p : PartId) (f : Journal → Journal) : M Unit :=
  modPart p fun x => { x with journal := some (f x.journalOr) }

/-- The journal takes ring registers, counts, host state, regions and switch lists as they stand. -/
def saveRings (p : PartId) : M Unit := do
  let s ← get
  modJournal p fun j => { j with
    qmg := keptFields (QMG.fields.filter qmgKept) (s.bank (.qmg p))
    pctl := keptFields (PCTL.fields.filter pctlKept) (s.bank (.pctl p))
    tiles := ((tilesOf p).filter (modelOn s)).map fun g =>
      (localOf g, (activeOf (.tile g .spd) 0x100 (s.bank (.tile g .spd)), activeOf (.tile g .lft) 0 (s.bank (.tile g .lft)))) }

/-- The journal takes the configuration of the partition gates, and their values or, until the dump has read them, 0. -/
def saveGates (p : PartId) (values : Bool) : M Unit := do
  let gs := (← getPart p).gates
  modJournal p fun j => { j with gates := gs.map fun e => (e.1, if values then e.2 else { e.2 with value := 0 }) }

/-! ### Tiles -/

/-- A tile at the start of FENCE: its sequencer stops, and no command of it goes on (R411); the placements that its lift
engine was carrying out have failed. -/
def fenceTile (g : TileId) : M Unit := do
  let s ← get
  if listRuns s g then wr (.tile g .tl) TL.STATE TlState.stopping
  forAll (s.tile g).units.loads fun l => modModel l.handle fun x => { x with loadErr := Err.fenced }
  modTile g fun t => { t with
    seq := { t.seq with fetchPc := none, ahead := [], sync := [] }
    units := .reset
    job := none }
  modTile g fun t => t.releaseBooks.releaseLuts

/-- The content of accumulator buffers, table store, weight window, book store and LUTs is lost, row state and tags are
cleared (R81, R153, R461). -/
def loseContents (g : TileId) : M Unit := do
  let n ← freshNum
  modify fun s => { s with fresh := n + 6 }
  modTile g fun t => { t with
    acc0 := ⟨.undef n, []⟩
    acc1 := ⟨.undef (n + 1), []⟩
    arr := ⟨.undef (n + 2), .undef (n + 3), [], [], [], none⟩
    books := ⟨.undef (n + 4), [], [], .undef (n + 5), []⟩ }

/-- A tile after a partition reset: every bank ON and zero-filled (R153, R266). -/
def resetTile (g : TileId) : M Unit := do
  modTile g fun t => { Tile.reset with dither := t.dither }
  loseContents g

/-! ### FENCE (R411) -/

/-- The fence still waits: for replies to the partition's requests at the system port or at another station, or for
accesses that its waking banks hold (R411). -/
def outstanding (s : State) (p : PartId) : Bool :=
  (s.eng.sys.reqs.any fun r => r.who.part = p.val) || ((s.part p).xfer.any fun x => x.open_ ≠ []) ||
    (tilesOf p).any fun g => (s.tile g).spd.waiting ≠ []

/-- Its requests at the system port end without a reply; a reply that comes later finds them gone (R411, R412). -/
def endRequests (p : PartId) : M Unit := do
  let e ← rd .dlw (DLW.EPOCH p.val)
  let y := (← get).eng.sys
  let mine := y.reqs.filter fun r => r.who.part = p.val
  if mine.any fun r => y.held = some r.id then wr .eng ENG.SYS_HOLD 0
  modSys fun y => { y with
    reqs := y.reqs.filter fun r => r.who.part ≠ p.val
    answers := y.answers.filter fun a => a.who.part ≠ p.val
    held := if mine.any fun r => y.held = some r.id then none else y.held
    late := y.late ++ (mine.filter fun r => r.handed).map fun r => (r.id, p.val, e) }

/-- The global gates whose PMASK holds the partition and on which a tile of another partition waits enter their error
state (R402). -/
def fenceGates (p : PartId) : M Unit := do
  let s ← get
  let gs := (List.range 256).filter fun i =>
    let x := s.gate p ⟨i, true⟩
    x.valid && !x.err && x.cfg.testBit (16 + p.val) && (s.waiters p ⟨i, true⟩).any fun g => partOf g ≠ p
  modPart p fun x => { x with gateErr := x.gateErr ++ gs }
  forAll gs fun i => gateError p ⟨i, true⟩

/-- A message that the fence of partition `p` discards: it has not received a SEQ, on this star or on a lost one (R346). -/
def discards (p : PartId) (m : TxMsg) : Bool := m.part = p && m.seq.isNone && !m.msg.moved

/-- What the fence does to the partition's traffic on the ports: messages without a SEQ are discarded (R346). -/
def fencePiste (p : PartId) : M Unit := do
  let s ← get
  let gone := (s.port 0).tx.filter (discards p) ++ (s.port 1).tx.filter (discards p)
  let rids := (gone.filter fun m => m.origin = .xfer p).map fun m => bitsAt m.msg.arg.toNat 50 14
  forAll [0, 1] fun n => modPort n fun x => { x with tx := x.tx.filter fun m => !discards p m }
  modXfer p fun x => x.without rids

/-- Models that the next boundary of the partition was to make active are no longer due (R281). -/
def forgetSwitch (p : PartId) : M Unit := do
  modPart p fun x => { x with switchWait := false }
  modEng fun e => { e with models := e.models.map fun m => { m with next := m.next.filter fun t => t / 12 ≠ p.val } }

/-- The jobs that were dispatched become suspects; jobs whose tiles have all ended complete first (R417). -/
def takeSuspects (p : PartId) : M Unit := do
  forAll (tilesOf p) collectTile
  let s ← get
  forAll ((s.part p).jobs.filter fun j => !j.ended && !jobRuns s p j && (s.part p).replaying ≠ some j.id) (jobEnds p)
  modPart p fun x => { x with
    suspects := x.suspects ++ (x.jobs.filter fun j => !j.ended && x.replaying ≠ some j.id).map fun j => ⟨j, none⟩
    jobs := x.jobs.filter fun j => j.ended
    replaying := none
    heads := [] }

/-- The partition enters FENCE. -/
def fenceNow (p : PartId) (r : ResetRun) : M Unit := do
  takeSuspects p
  setState p PState.fence
  wr .dlw (DLW.DIRTY p.val) 0
  let e := ownEpoch (← get) p
  modPart p fun x => { x with rst := some r, fenceOf := some e }
  forgetSwitch p
  forAll (tilesOf p) fenceTile
  forAll [0, 1] (mcDrain p)
  fenceGates p
  fencePiste p
  pairsLeave p
  if (← get).eng.activating = some p then activationEnds false

/-- A partition reset starts (R409, R428). -/
def startReset (p : PartId) (cause : Nat) (graph : Graph) (replay : Bool) : M Unit := do
  cnt .dlw DLW.RESET_CNT 1
  wr .dlw (DLW.CAUSE p.val) cause
  postEvent p 0x0100 3 Err.none (twoArgs p.val cause)
  fenceNow p { graph, elem := 0, unread := 0, bytes := 0, declOc := ← rd (.pctl p) PCTL.OC_NOW, slotFree := false, replay
               toOff := false }

/-- A trigger of R409: outside RUN it is counted and ignored (R416). -/
def trigger (p : PartId) (cause : Nat) (graph : Graph) : M Unit := do
  if partState (← get) p = PState.run then startReset p cause graph true else ignored p cause

/-! ### Records of jobs that a reset ends (R417, R420, R421, R463) -/

/-- The job gets a record with `code`, and its completion gate an error. -/
def concludeJob (p : PartId) (j : Job) (code : Nat) : M Unit := do
  let oc ← rd (.pctl p) PCTL.OC_NOW
  modPart p fun x => { x with
    suspects := x.suspects.filter fun y => y.job.id ≠ j.id
    jobs := (x.jobs.filter fun k => k.id ≠ j.id) ++ [{ j with status := code, errTile := 255, ended := true, endOc := oc }] }
  if JobD.csig j.desc then gateError p (JobD.gate j.desc)
  applyChainWrites p

/-- The chain entries of the instance that have not been dispatched, as far as they can be read; `patient` waits for the
system port. -/
def restOfInstance (p : PartId) (j : Job) (n : Nat) (patient : Bool) : M (List (Nat × Nat)) := do
  let s ← get
  let q := j.queue
  let k := if qr s p (QMG.STD_SEQ q) = (n + 1) % 2 ^ 32 then ((s.part p).chain q).next else 0
  let read : M (List (Option (Nat × Nat))) :=
    mapAll ((List.range (chainLen s p q)).filter fun i => k ≠ 0 && k ≤ i) fun i => do
      match ← catchErr (pccRead p (.fw p) (qr s p (QMG.Q_BASE q) * 64 + i * 64) 64) with
      | .ok bs => return some (i, leNat bs)
      | .error _ => return none
  let go : M (List (Nat × Nat)) := do return (← settle read).filterMap id
  if patient then go
  else fun s =>
    match go s with
    | .error _ _ => .ok [] s
    | r => r

/-- A standing instance ends with `code`: each of its jobs gets a record, and the chain is rebased (R417, R421). -/
def abortInstance (p : PartId) (j : Job) (n code : Nat) (patient : Bool) : M Unit := do
  let ds ← restOfInstance p j n patient
  let len := chainLen (← get) p j.queue
  concludeJob p j code
  modChain p j.queue fun c => { c with next := 0 }
  forAll ds fun d => do
    let id := (← getPart p).nextJob
    modPart p fun x => { x with nextJob := id + 1 }
    concludeJob p { j with id, desc := d.2, index := (n * len + d.1) % 2 ^ 32, start := ← rd (.pctl p) PCTL.OC_NOW
                           flags := 0, extent := 0, runFree := 0 } code
  rebase p j.queue

/-- A suspect that is not run again. -/
def abortSuspect (p : PartId) (j : Job) (code : Nat) (patient : Bool) : M Unit :=
  match j.inst with
  | none => concludeJob p j code
  | some n => abortInstance p j n code patient

/-- Every suspect without a verdict. -/
def abortSuspects (p : PartId) (code : Nat) (patient : Bool) : M Unit := do
  forAll ((← getPart p).suspects.filter fun x => x.verdict = none) fun x => abortSuspect p x.job code patient
  writeRecords p

/-! ### DUMP (R403 to R408, R487) -/

/-- The elements of a dump: CODE and INDEX (R404). -/
def dumpList (s : State) (slotFree : Bool) : List (Nat × Nat) :=
  let el (code n : Nat) : List (Nat × Nat) := (List.range n).map fun i => (code, i)
  if slotFree then
    el 0x0010 16 ++ el 0x0020 16 ++ el 0x0021 4 ++ el 0x0030 12 ++ el 0x0040 s.variant.groups ++
      el 0x0041 s.variant.groups ++ el 0x0042 1 ++ el 0x0043 1 ++ el 0x0050 1
  else el 0x0020 16

/-- `n` words of a page from offset `off`, read over the dump path. -/
def pageWords (s : State) (i : PageId) (off n : Nat) : List Byte :=
  (List.range n).flatMap fun k => leBytes 4 (rawWord s i .other (off + 4 * k))

/-- `bs` filled with zero bytes up to `n`. -/
def padTo (n : Nat) (bs : List Byte) : List Byte := bs ++ List.replicate (n - bs.length) 0

/-- 64 gates: value and configuration word. -/
def gateBytes (s : State) (p : PartId) (global : Bool) (b : Nat) : List Byte :=
  (List.range 64).flatMap fun k =>
    leBytes 8 (s.gate p ⟨64 * b + k, global⟩).value ++ leBytes 8 (s.gateCfg p ⟨64 * b + k, global⟩)

/-- A request entry: class, bypass count, kind, epoch, tile address and age (R405). -/
def entryBytes (cls count kind epoch addr age : Nat) : List Byte :=
  leBytes 1 cls ++ leBytes 1 count ++ leBytes 1 kind ++ leBytes 2 epoch ++ leBytes 5 addr ++
    leBytes 4 (min 0xFFFFFFFF age) ++ leBytes 2 0

/-- The entry of a system port request. -/
def requestEntry (s : State) (r : SysReq) : List Byte :=
  let kind := if r.data.isSome then 2 else match r.who with | .tile _ 5 => 5 | _ => 1
  entryBytes r.cls r.count kind (s.reg .dlw (DLW.EPOCH r.who.part)) (0x4000000000 + r.addr) r.waited

/-- The entry of an access that a waking bank of tile `g` holds; a peer's address is the one that its tile gave. The engine
manager core has no epoch (DESIGN CHOICE, log entry 145). -/
def heldEntry (s : State) (g : TileId) (h : HeldAccess) : List Byte :=
  let addr := if h.cls = 8 then 0x100000000 + localOf g * 0x1000000 + h.addr else h.addr
  let epoch := if h.cls = 7 then 0 else s.reg .dlw (DLW.EPOCH (partOf g).val)
  entryBytes h.cls 0 (match h.acc with | .read _ => 1 | .write _ => 2) epoch addr h.age

/-- The held accesses of tiles `gs` that meet `keep`, as one port's 32 entries. -/
def portEntries (s : State) (gs : List TileId) (keep : HeldAccess → Bool) : List Byte :=
  padTo 512 ((gs.flatMap fun g => ((s.tile g).spd.waiting.filter keep).map (heldEntry s g)).take 32).flatten

/-- The partition fabric's table of group `c`: the accesses that its waking banks hold came through group 0 (log entry
136). -/
def fabricEntries (s : State) (p : PartId) (c : Nat) : List Byte :=
  padTo 7680 (if c = 0 then (List.range 15).flatMap fun k => portEntries s (tilesOf p) fun h => h.port = k && h.cls ≠ 7 else [])

/-- The engine fabric's table: accesses of the engine manager core (R268, R309). -/
def engineEntries (s : State) : List Byte :=
  (List.range 5).flatMap fun k => portEntries s (List.finRange 48) fun h => h.port = k && h.cls = 7

/-- The history operations of tile `g` at controller `c` of partition `p` whose reply its drain has not yet received (R159):
tile address, and OC since the operation. -/
def histAt (s : State) (g : TileId) (p : PartId) (c : Fin 2) : List (Nat × Nat) :=
  match (s.tile g).units.drain with
  | none => []
  | some r => r.hist.filterMap fun h =>
      let a := (Conv.histBase r.desc + 4 * (Conv.histRow0 r.desc + h.row)) % 2 ^ 40
      match targetOf s.variant g a with
      | some (.pmem q off) => if !h.arrived && q = p && (interleave s.variant off).1 = c then some (a, h.age) else none
      | _ => none

/-- The scheduler's table of controller `c`: history operations and corrected write-backs that wait. A write-back waits for
less than one OC; its class is open (log entry 58). -/
def mcEntries (s : State) (p : PartId) (c : Fin 2) : List Byte :=
  let epoch (q : PartId) := s.reg .dlw (DLW.EPOCH q.val)
  let ops := (List.finRange 48).flatMap fun g => (histAt s g p c).map fun h => entryBytes 2 0 4 (epoch (partOf g)) h.1 h.2
  let backs := ((s.part p).ctl c).fixups.map fun f =>
    entryBytes Config.writebackClass.toNat 0 2 (epoch p) (memAddr p (uninterleave s.variant c f.1)) 0
  padTo 1024 ((ops ++ backs).take 64).flatten

/-- One gate of the GRAPH element: INDEX, GLOBAL and GPART as the declaration lists them, with VALID. -/
def graphBytes (g : Graph) : List Byte :=
  padTo 256 (leBytes 8 g.kind ++ leBytes 8 g.who ++ leBytes 8 (if g.kind = 1 then g.gates.length else 0) ++
    leBytes 8 g.progress ++ (g.gates.take 56).flatMap fun x => leBytes 4 (x + 2 ^ 31))

/-- The data of an element (R404, R487). -/
def elemData (s : State) (p : PartId) (code idx : Nat) : List Byte :=
  match code with
  | 0x0010 => pageWords s (.qmg p) (0x100 + 0x40 * idx) 16
  | 0x0020 => gateBytes s p false idx
  | 0x0021 => gateBytes s p true idx
  | 0x0030 =>
    let g := tileAt p ⟨idx % 12, by omega⟩
    [TPage.tl, .acc, .cnv, .lft].flatMap fun k => pageWords s (.tile g k) 0x040 16
  | 0x0040 => fabricEntries s p idx
  | 0x0041 => mcEntries s p ⟨idx % 2, by omega⟩
  | 0x0042 => engineEntries s
  | 0x0043 => padTo 1024 ((s.eng.sys.reqs.take 64).flatMap (requestEntry s))
  | _ => graphBytes (((s.part p).rst.map ResetRun.graph).getD .none_)

/-- An element's record (R406). -/
def elemRecord (s : State) (p : PartId) (code idx : Nat) (data : List Byte) (unread : Bool) : List Byte :=
  leBytes 2 code ++ leBytes 2 idx ++ leBytes 4 data.length ++ leBytes 4 (b2n unread) ++
    leBytes 4 (s.reg (.pctl p) PCTL.OC_NOW) ++ padTo (ceilDiv data.length 16 * 16) data

/-- Where slot `p` begins in the DLW's memory (R403). -/
def slotBase (p : PartId) : Nat := p.val * 49152

/-- The dump slot's header (R407). -/
def dumpHeader (s : State) (p : PartId) (r : ResetRun) : List Byte :=
  padTo 64 (leBytes 4 0x444C5744 ++ leBytes 1 p.val ++ leBytes 1 (s.reg .dlw (DLW.CAUSE p.val)) ++
    leBytes 2 (s.reg .dlw (DLW.EPOCH p.val)) ++ leBytes 8 r.declOc ++ leBytes 4 r.elem ++ leBytes 4 (64 + r.bytes) ++
    leBytes 4 r.unread)

def maskSet (i : PageId) (f : Fld) (b : Nat) (v : Bool) : M Unit := setMaskBit i f b v

/-- The dump begins; without a free slot it reads the partition gates only (R408). -/
def startDump (p : PartId) (r : ResetRun) : M Unit := do
  let slotFree := !((← rd .dlw DLW.VALID).testBit p.val)
  saveGates p false
  setState p PState.dump
  modPart p fun x => { x with rst := some { r with slotFree, elem := 0, unread := 0, bytes := 0 } }
  if slotFree then maskSet .dlw DLW.BUSY p.val true
  else wr .dlw (DLW.CAUSE p.val) ((← rd .dlw (DLW.CAUSE p.val)) ||| 8)

/-- The values of 64 partition gates, as the dump has recorded them. -/
def recordGates (p : PartId) (b : Nat) : M Unit := do
  let s ← get
  modJournal p fun j => { j with
    gates := j.gates.map fun e => if e.1 / 64 = b then (e.1, { e.2 with value := (s.gate p ⟨e.1, false⟩).value }) else e }

/-- The next element of the dump is read, or is UNREADABLE. -/
def dumpOp (p : PartId) (unread : Bool) : M Unit := do
  let s ← get
  match (s.part p).rst with
  | none => pure ()
  | some r =>
    match (dumpList s r.slotFree)[r.elem]? with
    | none => pure ()
    | some (code, idx) =>
      if partState s p = PState.dump then
        let data := if unread then leBytes 4 0xDEAD0BAD ++ leBytes 4 (code * 65536 + idx) else elemData s p code idx
        if unread then cnt .dlw DLW.UNREADABLE_CNT 1
        let rec_ := elemRecord s p code idx data unread
        if r.slotFree then
          modEng fun e => { e with dump := e.dump.write (slotBase p + 64 + r.bytes) rec_ }
        else if !unread then
          modEng fun e => { e with gateSave := e.gateSave.write (p.val * 16384 + idx * 1024) data }
        if code = 0x0020 && !unread then recordGates p idx
        let r := { r with
          elem := r.elem + 1
          unread := r.unread + b2n unread
          bytes := r.bytes + (if r.slotFree then rec_.length else 0) }
        modPart p fun x => { x with rst := some r }
        if r.slotFree && r.elem = (dumpList s r.slotFree).length then
          let h := dumpHeader (← get) p r
          modEng fun e => { e with dump := e.dump.write (slotBase p) h }
          maskSet .dlw DLW.BUSY p.val false
          maskSet .dlw DLW.VALID p.val true
          raise .dlw 7

/-! ### RESET, RETRAIN -/

/-- The LOAD_MODEL that the partition's firmware was carrying out is lost, and with it the model that was not yet resident. -/
def loseLoad (p : PartId) : M Unit := do
  match (← getPart p).fw with
  | some c =>
    if bitsAt c.bits 0 8 = 0x01 && c.phase ≠ 0 then
      match modelNamed (← get) c.phase with
      | some m => if !m.resident then dropModel m
      | none => pure ()
  | none => pure ()

/-- RESET is entered: the epoch rises, and logic, tiles and controllers are reset; memory content stays (R22, R410, R412). -/
def resetEntry (p : PartId) : M Unit := do
  if (← rd (.pctl p) PCTL.FW_READY) = 1 then saveRings p
  wr .dlw (DLW.EPOCH p.val) ((← rd .dlw (DLW.EPOCH p.val)) + 1)
  let own := ownEpoch (← get) p
  wr (.peer 0) PEER.OWN_PEPOCH (setBits (← rd (.peer 0) PEER.OWN_PEPOCH) (12 * p.val) 12 (own + 1))
  endRequests p
  loseLoad p
  forAll (tilesOf p) resetTile
  wr .pwr (PWR.TILE_GATE p.val) 0
  wr .pwr (PWR.TILE_GATED p.val) 0
  forAll [0, 1] fun c => modCtl p c fun m => { m with bank := [], cache := [], merge := [], fixups := [] }
  let f ← freshNum
  modPart p fun x => { x with
    pctl := []
    qmg := []
    gates := []
    heads := []
    lastQueue := []
    fw := none
    replies := []
    xfer := none
    bndAct := false
    fenceOf := none
    suspects := x.suspects.map fun y => { y with job := { y.job with runFree := f + 1 } } }
  setState p PState.reset

/-- With the partition's registers reset, `m` finds the ring registers that the journal keeps, and what it makes of the
counts is kept there; without a journal there are no rings (R415). -/
def withRings (p : PartId) (m : M Unit) : M Unit := do
  let x ← getPart p
  match x.journal with
  | none => pure ()
  | some j =>
    let oc ← rd (.pctl p) PCTL.OC_NOW
    modPart p fun y => { y with pctl := j.pctl, qmg := j.qmg }
    wr (.pctl p) PCTL.OC_NOW oc
    m
    saveRings p
    modPart p fun y => { y with pctl := x.pctl, qmg := x.qmg, journal := y.journal.map fun k => { k with tiles := j.tiles } }

/-- A partition goes to FAILED (R410, R456). Its firmware does not run again before engine reset; event 0x0102 is written
into its rings by the engine manager core (DESIGN CHOICE, log entry 53), whose writes the partition's own memory refuses
(R411). -/
def failPartition (p : PartId) (code : Nat) : M Unit := do
  setState p PState.failed
  modPart p fun x => { x with rst := none, levelBnd := false }
  raise .dlw 3
  let es := (← getPart p).events ++ [⟨0x0102, 3, code, p.val⟩]
  modPart p fun x => { x with events := [] }
  withRings p (forAll es (writeEvent p .emc))
  emgSettle

/-- The training of a channel group (R287); a channel that fails takes the partition to FAILED. -/
def trainingOp (p : PartId) (c : Fin 2) (pass : List Bool) : M Unit := do
  let s ← get
  if partState s p = PState.retrain && c.val < s.variant.groups then
    let good := (List.range 8).filter fun h => pass.getD h false
    wr (.mc p c) MC.CH_TRAINED (good.foldl (fun m h => m + 2 ^ h) 0)
    if good.length = 8 then wr (.mc p c) MC.TRAINED 1
    else
      wr (.mc p c) MC.TRAIN_ERR 1
      raise (.mc p c) 2
      failPartition p Err.memTrain

/-- What the zero-fill takes with it: the models that have memory in the partition, which are unloaded from then on, and the
firmware journal (R413). Suspects and records whose queues went with it are gone (DESIGN CHOICE, log entry 146). -/
def loseMemory (p : PartId) : M Unit := do
  forAll ((← get).eng.models.filter fun m => m.parts.any fun a => a.part = p.val) dropModel
  modPart p fun x => { x with journal := none, suspects := [], jobs := [], chains := [], chainWrites := [], grace := [] }

/-- RETRAIN ends when every channel group is trained; with DIRTY = 1 the whole capacity is zeros (R410, R413). -/
def retrainDoneOp (p : PartId) : M Unit := do
  let s ← get
  let gs := (List.finRange 2).filter fun c => c.val < s.variant.groups
  if partState s p = PState.retrain && gs.all fun c => s.reg (.mc p c) MC.TRAINED = 1 then
    if s.reg .dlw (DLW.DIRTY p.val) = 1 then
      forAll gs fun c => modCtl p c fun m => { m with mem := .empty }
      loseMemory p
    setState p PState.restart

/-! ### RESTART (R123, R415) -/

/-- A tile's RWS fields take, as pending values, the active ones that the journal holds (R21). -/
def restoreTile (i : PageId) (lo : Nat) (b : Bank) : M Unit :=
  forAll (i.rws.filter fun f => lo ≤ f.off) fun f => wr i f (b.get f.active)

/-- The scratchpad content of the partition's resident models comes back from their copies, by writes of the firmware that the
class 4 region registers check (R260, R415). -/
def restoreContent (p : PartId) : M Unit := do
  forAll ((← get).eng.models.filter Model.resident) fun m => forAll m.copies fun c =>
    if h : c.1 < 48 then
      if partOf ⟨c.1, h⟩ = p then attempt ((fwReq ⟨c.1, h⟩).write c.2.1 c.2.2) else pure ()
    else pure ()

/-- The resident models come back: regions and switch lists, which a boundary of the firmware makes active, and then, as those
regions allow it, their scratchpad content (R263, R382, R415; DEDUCED, log entry 46). -/
def restoreModels (p : PartId) : M Unit := do
  let s ← get
  forAll (tilesOf p) fun g =>
    match (s.part p).journalOr.tiles.look (localOf g) with
    | none => pure ()
    | some b => do
      restoreTile (.tile g .spd) 0x100 b.1
      restoreTile (.tile g .lft) 0 b.2
  declareBoundary p
  restoreContent p

/-- Where the firmware puts its rings at the partition's first start; the spec gives no addresses (log entry 4). -/
def firstRings (p : PartId) : M Unit := do
  let f ← freshNum
  forAll [PCTL.FC_BASE, PCTL.FR_BASE, PCTL.LG_BASE, PCTL.TR_BASE] fun x => wr (.pctl p) x (Config.freeAt f x.key)

/-- Every tile's dither source takes its seed, a fresh one at each start of the partition (R145); 0 is replaced (R123). -/
def seedTile (g : TileId) (seed : BitVec 64) : M Unit :=
  modTile g fun t => { t with dither := if seed = 0 then ditherReset else seed }

/-- The firmware boots and restores the partition. -/
def restoreOp (p : PartId) (seeds : List (BitVec 64)) : M Unit := do
  let x ← getPart p
  match x.journal with
  | none => firstRings p
  | some j =>
    modPart p fun y => { y with pctl := j.pctl, qmg := j.qmg, gates := j.gates }
    wr (.pctl p) PCTL.FC_DB (← rd (.pctl p) PCTL.FC_HEAD)
    restoreModels p
  forAll (tilesOf p) fun g => seedTile g (seeds.getD (localOf g) 0)
  wr (.pctl p) PCTL.FW_VER (← rd .sec SEC.FW_VER_RUN)
  wr (.pctl p) PCTL.FW_READY 1
  forAll x.gateErr fun i => do let _ ← gateClrErr p ⟨i, true⟩
  modPart p fun y => { y with gateErr := [] }

/-- RUN is reached (R428, R429); a boundary request of level 2 that is still due is made, and chains that a level which has
fallen meanwhile held are rebased (R462, R465). -/
def enterRun (p : PartId) : M Unit := do
  setState p PState.run
  modPart p fun x => { x with rst := none }
  if (← getPart p).levelBnd then requestBoundary p
  if (← rd .pwr PWR.EMG_LEVEL) < 2 then endRestriction p
  if bitsAt (← rd .dlw (DLW.CAUSE p.val)) 0 3 ≠ 0 then raise .dlw 2
  postEvent p 0x0101 0 Err.none (← rd .dlw (DLW.EPOCH p.val))

/-- RESTART_DONE: then REPLAY where suspects are to be replayed, otherwise RUN (R410, R417). OC_NOW goes on from the
calibration. -/
def restartDoneOp (p : PartId) (seeds : List (BitVec 64)) : M Unit := do
  let s ← get
  if partState s p = PState.restart then
    if s.reg (.pctl p) PCTL.FW_READY = 0 then
      let oc := s.reg (.pctl p) PCTL.OC_NOW
      restoreOp p seeds
      wr (.pctl p) PCTL.OC_NOW oc
    let x ← getPart p
    let again := (x.rst.any ResetRun.replay) && (← rd .dlw DLW.REPLAY_EN) = 1
    if again && x.suspects.any fun y => y.verdict = none then setState p PState.replay
    else
      abortSuspects p Err.resetAbort true
      enterRun p

/-! ### REPLAY (R418 to R421) -/

/-- The replay of suspect `j` has ended: its job leaves the tiles. -/
def replayEnds (p : PartId) (j : Job) : M Unit := do
  forAll (tilesOf p) fun g => modTile g fun t => if t.job.any fun k => k.id = j.id then { t with job := none } else t
  modPart p fun x => { x with replaying := none, jobs := x.jobs.filter fun k => k.id ≠ j.id }

/-- A guilty suspect is quarantined (R420). -/
def guilty (p : PartId) (j : Job) : M Unit := do
  replayEnds p j
  let m := modelOfJob (← get) p j.desc fun _ => true
  concludeJob p j Err.quarantined
  queueError p j.queue Err.quarantined
  match m with
  | some m => modEng fun e => { e with models := e.models.map fun x => if x.handle = m.handle then { x with status := 2 } else x }
  | none => pure ()
  cnt .dlw DLW.QUARANTINE_CNT 1
  raise .dlw 4
  postEvent p 0x0104 2 Err.quarantined (twoArgs ((m.map Model.handle).getD 0) j.queue)
  writeRecords p

/-- The verdict on a suspect is clear: the host's is dispatched again, and a standing instance gets its records (R419,
R421). -/
def clearVerdict (p : PartId) (j : Job) (patient : Bool) : M Unit := do
  match j.inst with
  | none =>
    modPart p fun x => { x with
      suspects := x.suspects.map fun y => if y.job.id = j.id then { y with verdict := some true } else y }
  | some n => abortInstance p j n Err.resetAbort patient
  cnt .dlw DLW.REPLAY_CLEAR 1
  postEvent p 0x0103 0 Err.none (← freeArg)

/-- The gate of a job that has run in the replay is signalled as its completion would; a global one is suppressed
(R374, R418). -/
def replayGate (p : PartId) (j : Job) : M Unit := do
  if JobD.csig j.desc then
    if (JobD.gate j.desc).global then cnt .dlw DLW.REPLAY_SUPPRESS 1
    else do let _ ← signalGate p p (JobD.gate j.desc) (.queue p j.queue) 1

/-- A clear suspect (R419, R421). -/
def clearSuspect (p : PartId) (j : Job) : M Unit := do
  settle (do
    replayEnds p j
    replayGate p j
    clearVerdict p j true)
  writeRecords p

/-- The next suspect without a verdict starts, alone; without one the partition enters RUN. -/
def nextSuspect (p : PartId) : M Unit := do
  let s ← get
  match (s.part p).suspects.find? fun x => x.verdict = none with
  | none => enterRun p
  | some x =>
    if allBetween s p then
      let j := { x.job with status := Err.none, errTile := 255, flags := 0, extent := 0, ended := false }
      modPart p fun y => { y with replaying := some j.id, jobs := y.jobs ++ [j] }
      startTiles p j

/-- REPLAY_SUSPECT: the verdict on the suspect that has ended, and the next suspect. -/
def replayOp (p : PartId) : M Unit := do
  if partState (← get) p = PState.replay then
    forAll (tilesOf p) collectTile
    let s ← get
    match (s.part p).replaying with
    | none => nextSuspect p
    | some id =>
      match (s.part p).jobs.find? fun j => j.id = id with
      | none => modPart p fun x => { x with replaying := none }
      | some j =>
        if !jobRuns s p j then
          if j.status ≠ Err.none then guilty p j else clearSuspect p j
          nextSuspect p

/-- The replayed job. -/
def replayJob (s : State) (p : PartId) : Option Job :=
  (s.part p).replaying.bind fun id => (s.part p).jobs.find? fun j => j.id = id

/-- A cycle ends the replay by stopping its tiles (R419). -/
def replayCycle (p : PartId) : M Unit := do
  match replayJob (← get) p with
  | none => pure ()
  | some j =>
    forAll (jobOn (← get) p j) abortTile
    guilty p j

/-- A stall or a timeout ends the replay with a further reset that has no replay; all other suspects are clear (R419). -/
def replayReset (p : PartId) (cause : Nat) (graph : Graph) : M Unit := do
  match replayJob (← get) p with
  | none => pure ()
  | some j =>
    guilty p j
    forAll ((← getPart p).suspects.filter fun x => x.verdict = none) fun x => clearVerdict p x.job false
    writeRecords p
    startReset p cause graph false

/-! ### OFF (R416, R463, R465) -/

/-- An OFF partition restarts from RESET (R409, R416, R465). -/
def powerOn (p : PartId) : M Unit := do
  cnt .dlw DLW.RESET_CNT 1
  wr .dlw (DLW.CAUSE p.val) Cause.power
  postEvent p 0x0100 3 Err.none (twoArgs p.val Cause.power)
  modPart p fun x => { x with rst := some ⟨.none_, 0, 0, 0, 0, false, false, false⟩ }
  resetEntry p

/-- The partition goes OFF: its dispatched jobs get records with ERR_PWR_OFF, its stacks go into self-refresh with every
buffered burst back in them (R306), event 0x0201 goes to the others; where the level has fallen meanwhile, it restarts at
once. -/
def goOff (p : PartId) (patient : Bool) : M Unit := do
  if (← rd (.pctl p) PCTL.FW_READY) = 1 then
    abortSuspects p Err.pwrOff patient
    saveRings p
    saveGates p true
  else withRings p (abortSuspects p Err.pwrOff patient)
  forAll [0, 1] (mcDrain p)
  maskSet .dlw DLW.BUSY p.val false
  wr (.pctl p) PCTL.FW_READY 0
  modPart p fun x => { x with rst := none, only2 := true, levelBnd := false }
  setState p PState.off
  forAll (List.finRange 4) fun q => if q = p then pure () else postRunning q 0x0201 2 Err.pwrOff p.val
  emgSettle
  if (← rd .pwr PWR.EMG_LEVEL) < 3 then powerOn p

/-- Emergency level 3 turns the partition off (R416, R463 event 5). -/
def turnOff (p : PartId) : M Unit := do
  let st := partState (← get) p
  if st = PState.run || st = PState.replay then
    let dirty ← rd .dlw (DLW.DIRTY p.val)
    fenceNow p { graph := .none_, elem := 0, unread := 0, bytes := 0, declOc := 0, slotFree := false, replay := false, toOff := true }
    if st = PState.replay then wr .dlw (DLW.DIRTY p.val) dirty
  else if st = PState.fence then
    modPart p fun x => { x with rst := x.rst.map fun r => { r with toOff := true } }
  else if st = PState.dump || st = PState.reset || st = PState.retrain || st = PState.restart then
    if st = PState.retrain then wr .dlw (DLW.DIRTY p.val) 1
    goOff p false

/-- FENCE ends (R410): every buffered burst goes back before that (R306), what requests of the fence have buffered too; then
the dump, or OFF. -/
def fenceEnds (p : PartId) : M Unit := do
  xferFinish p Err.fenced
  forAll [0, 1] (mcDrain p)
  match (← getPart p).rst with
  | some r => if r.toOff then goOff p true else startDump p r
  | none => pure ()

/-- Writes of 1 to bits of DUMP_REL (R408). -/
def dumpRelOp (bits : Nat) : M Unit := do
  let v ← rd .dlw DLW.VALID
  wr .dlw DLW.VALID (v &&& (15 - bits % 16))

/-- The engine leaves reset: every partition starts from RESET (R410, R438). -/
def engineStarts : M Unit := do
  modEng fun e => { e with inReset := false, bootWait := false }
  forAll (List.finRange 4) fun p => do
    setState p PState.reset
    modPart p fun x => { x with rst := some ⟨.none_, 0, 0, 0, 0, false, false, false⟩ }

/-! ### The rows -/

/-- FENCE_DONE (R411): every outstanding request is answered. -/
def execFenceDone (p : PartId) (s : State) : Host.Outcome State Fault Refusal :=
  fwNext (do
    if partState s p = PState.fence && !outstanding s p then fenceEnds p) s

/-- FENCE_TIMEOUT (R411). -/
def execFenceTimeout (p : PartId) (s : State) : Host.Outcome State Fault Refusal :=
  fwNext (do
    if partState s p = PState.fence && outstanding s p then
      endRequests p
      wr .dlw (DLW.DIRTY p.val) 1
      cnt .dlw DLW.FENCE_DIRTY_CNT 1
      fenceEnds p) s

/-- DUMP_ELEMENT (R404, R406). -/
def execDumpElement (p : PartId) (s : State) : Host.Outcome State Fault Refusal := M.next (dumpOp p false) s
/-- ELEM_TIMEOUT (R406). -/
def execElemTimeout (p : PartId) (s : State) : Host.Outcome State Fault Refusal := M.next (dumpOp p true) s

/-- DUMP_RELEASE (R408). -/
def execDumpRelease (bits : BitVec 4) (s : State) : Host.Outcome State Fault Refusal :=
  M.next (pageWrite .dlw (dumpRelOp bits.toNat)) s

/-- PARTITION_RESET (R410, R412): after the last element of the dump. -/
def execPartitionReset (p : PartId) (s : State) : Host.Outcome State Fault Refusal :=
  M.next (do
    match (s.part p).rst with
    | some r => if partState s p = PState.dump && (dumpList s r.slotFree).length ≤ r.elem then resetEntry p
    | none => pure ()) s

/-- MEM_TRAINING (R287). -/
def execMemTraining (p : PartId) (c : Fin 2) (pass : List Bool) (s : State) : Host.Outcome State Fault Refusal :=
  fwNext (trainingOp p c pass) s
/-- RETRAIN_DONE (R410). -/
def execRetrainDone (p : PartId) (s : State) : Host.Outcome State Fault Refusal := M.next (retrainDoneOp p) s
/-- RESTART_DONE (R415). -/
def execRestartDone (p : PartId) (seeds : List (BitVec 64)) (s : State) : Host.Outcome State Fault Refusal :=
  fwNext (restartDoneOp p seeds) s

/-- RESET_BUDGET_EXPIRE (R410): a stage from RESET to RESTART has exceeded its budget. -/
def execResetBudgetExpire (p : PartId) (s : State) : Host.Outcome State Fault Refusal :=
  fwNext (do
    let st := partState s p
    if st = PState.retrain then failPartition p Err.memTrain
    else if st = PState.reset || st = PState.restart then failPartition p Err.resetAbort) s

/-- REPLAY_SUSPECT (R418). -/
def execReplaySuspect (p : PartId) (s : State) : Host.Outcome State Fault Refusal := fwNext (replayOp p) s

/-- REPLAY_TIMEOUT (R419). -/
def execReplayTimeout (p : PartId) (s : State) : Host.Outcome State Fault Refusal :=
  fwNext (do
    if partState s p = PState.replay then replayReset p Cause.replayTmo .none_) s

/-- PARTITION_FENCE (R409, R411): the firmware asks for a reset; where the fence has already begun, nothing more happens. -/
def execPartitionFence (p : PartId) (s : State) : Host.Outcome State Fault Refusal :=
  fwNext (do
    if partState s p ≠ PState.fence then trigger p Cause.firmware .none_) s

/-- PCC_WDOG_EXPIRE (R409). -/
def execPccWdogExpire (p : PartId) (s : State) : Host.Outcome State Fault Refusal :=
  fwNext (trigger p Cause.watchdog .none_) s

/-- Writes of 1 to bits of PRESET (R409). -/
def presetOp (bits cause : Nat) : M Unit :=
  forAll (List.finRange 4) fun p => if bits.testBit p.val then trigger p cause .none_ else pure ()

/-- PRESET. -/
def execPreset (bits : BitVec 4) (s : State) : Host.Outcome State Fault Refusal :=
  fwNext (pageWrite .dlw (presetOp bits.toNat Cause.host)) s

end Sys2Proof.Machine
end

