-- ==== Sys2Proof/Machine/Boot.lean ====
section
/-! DEFINITION. Engine reset, the boot ROM, the recovery loader and the life cycle (R22, R430 to R449). -/
namespace Sys2Proof.Machine

/-! ### Engine reset (R22, R425, R426, R449) -/

/-- The fields of SEC that the security block keeps across engine reset (R449). -/
def secKept : List Fld :=
  [SEC.LC_STATE, SEC.DBG_OPEN, SEC.BOOT_COPY, SEC.BOOT_TIE, SEC.BOOT_ALT, SEC.BOOT_RCV, SEC.A_ERR, SEC.B_ERR,
    SEC.FW_VER_RUN, SEC.SVN_CTR, SEC.KEY_PROV, SEC.KEY_REVOKED, SEC.DEV_ID, SEC.NONCE]

/-- The engine-wide part at engine reset: OTP, boot flash and what the security block keeps stay, and so do the dump slots'
bytes, whose VALID falls. -/
def Engine.afterReset (e : Engine) : Engine :=
  { Engine.reset with
    sec := keptFields secKept e.sec
    dump := e.dump
    gateSave := e.gateSave
    nextHandle := e.nextHandle
    otp := e.otp
    flash := e.flash
    loader := { e.loader with running := false, rx := [] }
    inReset := true
    runSvn := e.runSvn
    runCopy := e.runCopy
    debug := e.debug }

/-- A partition at engine reset: only the content of its stacks stays. -/
def Part.afterReset (x : Part) : Part := { Part.reset with mc := x.mc.map fun m => { MemCtl.reset with mem := m.mem } }

/-- Engine reset: every block of the engine is reset and held, until the ROM hands over. -/
def engineResetOp : M Unit := do
  modify fun s => { s with
    tiles := Vector.replicate 48 .reset
    parts := s.parts.map Part.afterReset
    ports := Vector.replicate 2 .reset
    eng := s.eng.afterReset }
  forAll (List.finRange 48) loseContents

/-- NONCE changes (R448): another value, otherwise free. -/
def newNonce : M Unit := do
  let n ← freshNum
  wr .sec SEC.NONCE ((← rd .sec SEC.NONCE) + 1 + Config.freeBelow n (2 ^ 64 - 1))

/-! ### The boot ROM (R436 to R438, R446) -/

/-- The copy that R437 boots; `none` is the recovery loader. -/
def bootChoice (errA errB verA verB : Nat) : Option Nat :=
  if errA = Err.none && errB = Err.none then some (if verA < verB then 1 else 0)
  else if errA = Err.none then some 0
  else if errB = Err.none then some 1
  else none

/-- The results of the copies after the second read of the chosen one, which is marked where that read differs (R438):
both results and the copy that boots. -/
def bootSettle (verA verB : Nat) (againA againB : Bool) : Nat → Nat → Nat → Nat × Nat × Option Nat
  | 0, ea, eb => (ea, eb, none)
  | n + 1, ea, eb =>
    match bootChoice ea eb verA verB with
    | none => (ea, eb, none)
    | some 0 => if againA then bootSettle verA verB againA againB n Err.bundleAuth eb else (ea, eb, some 0)
    | some k => if againB then bootSettle verA verB againA againB n ea Err.bundleAuth else (ea, eb, some k)

/-- The debug port in a life cycle state: locked in SECURED and VOID, and in RETURNED for all but the vendor (R446). -/
def debugIn (lc : Nat) : DebugPort :=
  if lc = Lc.blank ∨ lc = Lc.develop then .opened else if lc = Lc.returned then .vendorOnly else .locked

/-- The debug port is fixed from this boot on (R446). -/
def fixDebug : M Unit := do
  let d := debugIn (lcState (← get))
  wr .sec SEC.DBG_OPEN (b2n (d = .opened))
  modEng fun e => { e with debug := d }

/-- The recovery loader starts, its buffer cleared (R445); the engine stays in reset. -/
def startLoader : M Unit := do
  wr .sec SEC.BOOT_RCV 1
  modEng fun e => { e with loader := ⟨true, .empty, none, e.loader.response, []⟩ }

/-- The ROM hands over to copy `k`; the engine leaves reset once its oscillator is calibrated (R438, R455). -/
def releaseEngine (k : Nat) (tie : Bool) : M Unit := do
  placeImages k
  let h := copyHeader (← get) k
  wr .sec SEC.BOOT_COPY k
  wr .sec SEC.BOOT_TIE (b2n tie)
  wr .sec SEC.BOOT_ALT k
  wr .sec SEC.FW_VER_RUN (BundleH.fwVer h)
  if oscGood (← rd .pwr PWR.OSC_CAL_E) then engineStarts else modEng fun e => { e with bootWait := true }

/-- The ROM's boot: BLANK goes to the loader unread, VOID holds the engine in reset (R436, R437, R446). -/
def romBoot (strap errA errB againA againB : Bool) : M Unit := do
  newNonce
  fixDebug
  modEng fun e => { e with loader := { e.loader with running := false } }
  wr .sec SEC.BOOT_TIE 0
  wr .sec SEC.BOOT_ALT 0
  wr .sec SEC.BOOT_RCV 0
  let s ← get
  if lcState s = Lc.blank then startLoader
  else
    let verA := BundleH.fwVer (copyHeader s 0)
    let verB := BundleH.fwVer (copyHeader s 1)
    let ea := classifyCopy s 0 errA
    let eb := classifyCopy s 1 errB
    if strap || Lc.void ≤ lcState s then
      wr .sec SEC.A_ERR ea
      wr .sec SEC.B_ERR eb
      if lcState s < Lc.void then startLoader
    else
      let r := bootSettle verA verB againA againB 3 ea eb
      wr .sec SEC.A_ERR r.1
      wr .sec SEC.B_ERR r.2.1
      match r.2.2 with
      | some k => releaseEngine k (r.1 = Err.none && r.2.1 = Err.none && verA = verB)
      | none => startLoader

/-- The device is reset and boots. A disturbed read of a copy, or the recovery strap, is COLD_BOOT's to show (DESIGN CHOICE,
log entry 151). -/
def rebootOp : M Unit := do
  engineResetOp
  romBoot false false false false false

/-- INSTALL whose writing a power loss or reset cuts off after `n` bytes (R440); one that writes nothing is not cut off. -/
def cutInstall (bytes : List Byte) (n : Nat) : M Unit := do
  let s ← get
  let starts := mbReached s && s.reg .sec SEC.BUSY = 0 && s.eng.activating = none && installCheck s bytes = Err.none
  match package bytes with
  | some (bundle, _) =>
    if starts && n < bundle.length + 64 then
      writePart (installTarget s) bundle n
      rebootOp
    else mbInstall bytes
  | none => mbInstall bytes

/-! ### Life cycle (R447, R448) -/

/-- The record that LC_SECURE and LC_VOID sign. -/
def lcRecord (s : State) (word : Nat) : List Byte :=
  leBytes 4 word ++ leBytes 8 (s.reg .sec SEC.DEV_ID) ++ leBytes 8 (s.reg .sec SEC.NONCE)

/-- A vendor return token for this device and the current NONCE. -/
def tokenGood (s : State) (token : List Byte) : Bool :=
  Config.tokenVerifies token (s.reg .sec SEC.DEV_ID) (s.reg .sec SEC.NONCE)

/-- A life-cycle request by the mailbox: NONCE changes after it. -/
def mbLifecycle (m : M Nat) : M Unit := do
  let s ← get
  if mbReached s && s.reg .sec SEC.BUSY = 0 then
    mbStart false m
    newNonce
  else mbStart false m

/-- The device moves to RETURNED (R448): customer keys are erased, the whole device is reset, stacks and dump slots are
zeroed. -/
def becomeReturned : M Unit := do
  modEng fun e => { e with otp := { e.otp with hashes := [], returned := true } }
  wr .sec SEC.KEY_PROV 0
  wr .sec SEC.LC_STATE Lc.returned
  engineResetOp
  modify fun s => { s with
    parts := s.parts.map fun x => { x with mc := x.mc.map fun m => { m with mem := .empty } }
    eng := { s.eng with dump := .empty } }

/-- A signed transition. -/
def lcSigned (request : List Byte) (word : Nat) (from_ : Nat → Bool) (target : Nat) : M Nat := do
  let s ← get
  if !from_ (lcState s) then return Err.lifecycle
  else if !requestSigned s request (lcRecord s word) 16 then return Err.sigInvalid
  else
    wr .sec SEC.LC_STATE target
    return Err.none

/-- LC_SECURE by the mailbox. -/
def lcSecureOp (request : List Byte) : M Unit :=
  mbLifecycle (lcSigned request 0x4345534C (fun l => l = Lc.develop) Lc.secured)

/-- LC_VOID by the mailbox; the ROM holds the engine from the next boot on. -/
def lcVoidOp (request : List Byte) : M Unit :=
  mbLifecycle (lcSigned request 0x44494F56 (fun l => l = Lc.develop || l = Lc.secured) Lc.void)

/-- LC_RETURN by the mailbox. -/
def lcReturnOp (token : List Byte) : M Unit := do
  let s ← get
  mbLifecycle (return if tokenGood s token then Err.none else Err.lifecycle)
  if mbReached s && s.reg .sec SEC.BUSY = 0 && lcOpen s && tokenGood s token then becomeReturned

/-! ### The recovery loader (R444, R445) -/

/-- The bytes that a frame's CRC covers. -/
def frameBody (type seq : Byte) (payload : List Byte) : List Byte := [type, seq] ++ leBytes 2 payload.length ++ payload

/-- A frame as it goes over the UART. -/
def frameBytes (type seq : Byte) (payload : List Byte) : List Byte :=
  let b := frameBody type seq payload
  [0xA5, 0x5A] ++ b ++ leBytes 2 (crc16 b)

/-- The frame's CRC holds. -/
def frameGood (f : UartFrame) : Bool := crc16 (frameBody f.type f.seq f.payload) = f.crc.toNat

/-- A command code of the table. -/
def frameKnown (f : UartFrame) : Bool := 1 ≤ f.type.toNat && f.type.toNat ≤ 5

/-- What follows the first SYNC. -/
def afterSync : List Byte → Option (List Byte)
  | a :: b :: t => if a = 0xA5 ∧ b = 0x5A then some t else afterSync (b :: t)
  | _ => none

/-- The first whole frame of what has been received, and what follows it (R444). -/
def uartTake (rx : List Byte) : Option (UartFrame × List Byte) :=
  match afterSync rx with
  | none => none
  | some b =>
    let n := leNat ((b.drop 2).take 2)
    if b.length < 6 + n then none
    else some (⟨b.getD 0 0, b.getD 1 0, (b.drop 4).take n, BitVec.ofNat 16 (leNat ((b.drop (4 + n)).take 2))⟩, b.drop (6 + n))

/-- A response is sent. -/
def respondUart (bs : List Byte) : M Unit := modEng fun e => { e with loader := { e.loader with response := bs } }

/-- What HELLO answers. -/
def helloBytes (s : State) : List Byte :=
  let r := fun f => s.reg .sec f
  leBytes 8 (r SEC.DEV_ID) ++ leBytes 1 (r SEC.LC_STATE) ++
    leBytes 4 (r SEC.BOOT_COPY + 2 * r SEC.BOOT_TIE + 4 * r SEC.BOOT_ALT + 8 * r SEC.BOOT_RCV) ++
    leBytes 2 (r SEC.A_ERR) ++ leBytes 2 (r SEC.B_ERR) ++ leBytes 1 (r SEC.SVN_CTR) ++ leBytes 8 (r SEC.NONCE)

/-- The size of the staging buffer: 12 MiB. -/
def stagingSize : Nat := 12582912

/-- STAGE. -/
def stageOp (b : List Byte) : M (Nat × List Byte) := do
  let off := leNat (b.take 4)
  if lcState (← get) = Lc.blank then return (Err.lifecycle, [])
  else if b.length < 5 || 1020 < b.length || stagingSize < off + (b.length - 4) then return (Err.cmdField, [])
  else
    modEng fun e => { e with loader := { e.loader with staging := e.loader.staging.write off (b.drop 4) } }
    return (Err.none, [])

/-- The recovery INSTALL: both copies are written, A first. -/
def rcvInstallOp (b : List Byte) : M (Nat × List Byte) := do
  let s ← get
  if lcState s = Lc.blank then return (Err.lifecycle, [])
  else if b.length ≠ 4 || stagingSize < leNat b then return (Err.cmdField, [])
  else
    let pkg := s.eng.loader.staging.read 0 (leNat b)
    let code := installCheck s pkg
    match package pkg with
    | some (bundle, _) =>
      if code ≠ Err.none then return (code, [])
      else
        writeCopy 0 bundle
        writeCopy 1 bundle
        let h := leNat (bundle.take 256)
        return (Err.none, leBytes 4 (BundleH.fwVer h) ++ leBytes 1 (BundleH.svn h))
    | none => return (code, [])

/-- The slots that a provisioning record names. -/
def provSlots (b : List Byte) : Assoc Nat :=
  (List.range 16).filterMap fun i => (Config.provHash b i).map fun h => (i, h)

/-- LC_REQUEST: the state that it leads to (R447). -/
def lcTarget (s : State) (b : List Byte) : Option Nat :=
  if lcState s = Lc.blank then (if provSlots b ≠ [] then some Lc.develop else none)
  else if !tokenGood s b then none
  else if lcOpen s then some Lc.returned
  else if lcState s = Lc.returned then some Lc.void
  else none

/-- LC_REQUEST by the UART. -/
def lcRequestOp (b : List Byte) : M (Nat × List Byte) := do
  let s ← get
  if b.length = 0 || 1024 < b.length then return (Err.cmdField, [])
  else
    match lcTarget s b with
    | none => pure ()
    | some lc =>
      if lc = Lc.develop then
        modEng fun e => { e with otp := { e.otp with hashes := provSlots b } }
        wr .sec SEC.KEY_PROV ((provSlots b).foldl (fun m e => m + 2 ^ e.1) 0)
      if lc = Lc.returned then becomeReturned else wr .sec SEC.LC_STATE lc
    newNonce
    match lcTarget s b with
    | none => return (Err.lifecycle, [])
    | some lc => return (Err.none, leBytes 1 lc)

/-- STATUS and what follows it, for a valid frame that is carried out (R445). -/
def uartCommand (f : UartFrame) : M (Nat × List Byte) := do
  let none_ (more : List Byte) : Nat × List Byte := if f.payload = [] then (Err.none, more) else (Err.cmdField, [])
  match f.type.toNat with
  | 1 => return none_ (helloBytes (← get))
  | 2 => stageOp f.payload
  | 3 => rcvInstallOp f.payload
  | 4 => lcRequestOp f.payload
  | 5 => return none_ []
  | _ => return (Err.fwCmd, [])

/-- The response that STATUS and more make. -/
def uartResponse (f : UartFrame) (r : Nat × List Byte) : List Byte :=
  frameBytes (f.type ||| 0x80) f.seq (leBytes 2 r.1 ++ if r.1 = Err.none then r.2 else [])

/-- A frame is answered: NAK after a CRC failure; the previous valid frame again gets the previous response; any other is
carried out, and REBOOT reboots the device once it is answered (R445). -/
def uartAct (f : UartFrame) : M Unit := do
  if !frameGood f then respondUart (frameBytes 0xFF f.seq (leBytes 2 Err.rcvCrc))
  else
    match (← get).eng.loader.prev.filter fun p => p.1 = f with
    | some p => respondUart p.2
    | none =>
      let r := uartResponse f (← uartCommand f)
      modEng fun e => { e with loader := { e.loader with prev := some (f, r), response := r } }
      if f.type = 5 ∧ f.payload = [] then rebootOp

/-- Bytes reach the running loader, which acts on the frame that they complete; part of a frame waits for the rest. -/
def uartReceive (bs : List Byte) : M Unit := do
  let l := (← get).eng.loader
  if l.running then
    let rx := l.rx ++ bs
    match uartTake rx with
    | none => modEng fun e => { e with loader := { e.loader with rx } }
    | some (f, rest) =>
      modEng fun e => { e with loader := { e.loader with rx := rest } }
      uartAct f

/-! ### The rows -/

/-- ENGINE_RESET: the ROM boots after it (R436). -/
def execEngineReset (s : State) : Host.Outcome State Fault Refusal := M.next rebootOp s

/-- COLD_BOOT: the engine is reset, one that is held in reset too (R449), and waits for no calibration until the ROM has
handed over. -/
def execColdBoot (strap errA errB againA againB : Bool) (s : State) : Host.Outcome State Fault Refusal :=
  M.next (do
    engineResetOp
    romBoot strap errA errB againA againB) s

/-- INSTALL (R439, R440, R441). -/
def execInstall (package : Package) (s : State) : Host.Outcome State Fault Refusal :=
  M.next (match package.cut with | none => mbInstall package.bytes | some n => cutInstall package.bytes n) s

/-- LC_SECURE. -/
def execLcSecure (request : List Byte) (s : State) : Host.Outcome State Fault Refusal := M.next (lcSecureOp request) s
/-- LC_VOID. -/
def execLcVoid (request : List Byte) (s : State) : Host.Outcome State Fault Refusal := M.next (lcVoidOp request) s
/-- LC_RETURN. -/
def execLcReturn (token : List Byte) (s : State) : Host.Outcome State Fault Refusal := M.next (lcReturnOp token) s

/-- HELLO: a row of the loader hands it bytes; what it does follows from the frame that they complete. -/
def execHello (frame : List Byte) (s : State) : Host.Outcome State Fault Refusal := M.next (uartReceive frame) s
/-- STAGE. -/
def execStage (frame : List Byte) (s : State) : Host.Outcome State Fault Refusal := M.next (uartReceive frame) s
/-- RCV_INSTALL. -/
def execRcvInstall (frame : List Byte) (s : State) : Host.Outcome State Fault Refusal := M.next (uartReceive frame) s
/-- LC_REQUEST. -/
def execLcRequest (frame : List Byte) (s : State) : Host.Outcome State Fault Refusal := M.next (uartReceive frame) s
/-- REBOOT. -/
def execReboot (frame : List Byte) (s : State) : Host.Outcome State Fault Refusal := M.next (uartReceive frame) s

/-- UART_FRAME_TIMEOUT: a partial frame is discarded, and a new SYNC awaited (R444). -/
def execUartFrameTimeout (s : State) : Host.Outcome State Fault Refusal :=
  M.next (modEng fun e => { e with loader := { e.loader with rx := [] } }) s

/-- NAK: a frame with a CRC failure, or of an unknown TYPE. -/
def execNak (frame : List Byte) (s : State) : Host.Outcome State Fault Refusal := M.next (uartReceive frame) s

end Sys2Proof.Machine
end

