-- ==== Sys2Proof/Machine/Cnv.lean ====
section
/-! DEFINITION. The conversion unit: DRAIN row by row, history replies, statistics contexts and STAT (R155 to R183, R207
to R209). -/
namespace Sys2Proof.Machine

/-! ### What a DRAIN writes where -/

/-- Bytes of one row record (R59, R62). -/
def drPitch (d : Nat) : Nat := if Conv.ofmt d = 2 then 512 else codeBytes (Conv.ofmt d) (Conv.chans d)
/-- Tile address of the block of drained row `i` (R208). -/
def drBlock (c : CmdWord) (i : Nat) : Nat := (drDst c + i / 16 * drStride c) % 2 ^ 40
/-- Tile address of the record of drained row `i` (R155). -/
def drRecord (c : CmdWord) (d i : Nat) : Nat := (drBlock c i + 64 + i % 16 * drPitch d) % 2 ^ 40

/-! ### Requantisation, LUT and rotation (R164 to R167) -/

/-- The limit of a requantised value. -/
def reqMax : Int := 8388607

/-- y before its clamp, for entry `e` with record `r` and row shift `s` (R164). -/
def requant (e : Int) (r s : Nat) : Int :=
  let p := e * Param.m r
  let y0 := if s < Param.sh r then roundEven p (2 ^ (Param.sh r - s)) else p * 2 ^ (s - Param.sh r)
  y0 + Param.b r

/-- The Walsh–Hadamard transform of a block of n values (R166). -/
def walsh (n : Nat) (z : List Int) : List Int :=
  let parity (k : Nat) : Bool := ((List.range 7).filter k.testBit).length % 2 = 1
  (List.range n).map fun i =>
    ((z.zipIdx).map fun e => if parity (i &&& e.2) then -e.1 else e.1).foldl (· + ·) 0

/-- Blocks of `n` elements of a list, in order. -/
def blocksOf (n : Nat) : Nat → List α → List (List α)
  | 0, _ => []
  | k + 1, l => l.take n :: blocksOf n k (l.drop n)

/-- The rotated segment. -/
def rotate (n c : Nat) (z : List Int) : List Int := (blocksOf n (c / n) z).flatMap (walsh n)

/-- κ_n × UNIT: the real value of one unit of a value that enters quantisation (R167). -/
def valueUnit (d rot : Nat) : Frac :=
  let k : Frac := if rot = 0 then ⟨1, 1⟩ else if rot = 1 then ⟨1, 4⟩ else if rot = 2 then ⟨46341, 65536 * 4⟩
    else if rot = 3 then ⟨1, 8⟩ else ⟨46341, 65536 * 8⟩
  (unitVal (Conv.unitW d)).mul k

/-- The rotation in force: none while ROT_DIAG.BYPASS is active (R184). -/
def rotOf (s : State) (g : TileId) (d : Nat) : Nat :=
  if s.reg (.tile g .rot) ROT.BYPASS.active = 1 then 0 else Conv.rot d

def qMax (d : Nat) : Nat := if Conv.ofmt d = 1 then 7 else 127

/-- The LUT output for a requantised value (R165, R85). -/
def lutOut (t : Tile) (k : Nat) (y : Int) : Int := sext 8 (t.books.luts.get (256 * k + uns 8 (clampI (-128) 127 y))).toNat

/-- Stages 1 to 3 of a row: the values that enter quantisation, with their counts and flags (R164 to R167). -/
def convertRow (g : TileId) (buf row d : Nat) (params : List Byte) : M (List Int) := do
  let t ← getTile g
  let x := t.acc buf
  let pg : PageId := .tile g .cnv
  let c := Conv.chans d
  let raw := (List.range c).map fun k => requant (x.entry row k) (leNat ((params.drop (8 * k)).take 8)) (x.row row).s
  let ys := raw.map (clampI (-reqMax) reqMax)
  let n := (raw.filter fun y => reqMax < y ∨ y < -reqMax).length
  if 0 < n then
    wr pg CNV.REQ_CLAMP 1
    cnt pg CNV.REQ_CLAMP_CNT n
  let zs ← if Conv.lutEn d then do
      let m := (ys.filter fun y => y < -128 ∨ 127 < y).length
      if 0 < m then
        wr pg CNV.LUT_CLAMP 1
        cnt pg CNV.LUT_CLAMP_CNT m
      pure (ys.map (lutOut t (Conv.lutSel d)))
    else pure ys
  if rotOf (← get) g d = 0 then return zs
  else
    cnt (.tile g .rot) ROT.ROT_SEGS 1
    return rotate (Conv.rotSize d) c zs

/-! ### Scales and codes (R168 to R178) -/

/-- X of R168 for the values of a segment. -/
def segMax (zs : List Int) (u : Frac) : Frac :=
  (Frac.ofInt (zs.foldl (fun m z => max m (z.natAbs : Int)) 0)).mul u

/-- Lmax of the returned history word (R171). -/
def histMax (d reply : Nat) : Nat :=
  let first := if Conv.follow d then 1 else 0
  ((List.range (Conv.hw d)).map fun j => bitsAt reply (8 * (first + j)) 8).foldl max 0

/-- The scale word of a segment with X > 0, with its flags (R168, R171); `reply` is the history word in HIST mode. -/
def scaleWord (g : TileId) (d : Nat) (x : Frac) (reply : Option Nat) : M Nat := do
  let pg : PageId := .tile g .cnv
  let lmax := match reply with | some w => histMax d w | none => 0
  if 0 < lmax then return histWord lmax
  else
    if reply.isSome then
      wr pg CNV.HIST_FALLBACK 1
      cnt pg CNV.HIST_FALLBACK_CNT 1
    let (w, hi) := curScale x (qMax d)
    if hi then wr pg CNV.SCALE_HI 1
    return w

/-- One code: r = x / s exactly, its code and whether it clipped (R174). -/
def codeOf (sr : Bool) (q field : Nat) (r : Frac) : Int × Bool :=
  let k := if sr then (r.add ⟨field, 65536⟩).floor else r.nearest
  if (q : Int) < k.natAbs then (if 0 < r.num then (q : Int) else -(q : Int), true) else (k, false)

/-- The squared error of an element in units of 2⁻¹⁶ code², capped at 256 code² (R179). -/
def sqErr (r : Frac) (q : Int) : Nat :=
  let e := r.sub (.ofInt q)
  min (256 * 65536) ((e.mul e).mul (.ofInt 65536)).floor.toNat

/-- Codes as the bytes of a row record (R51, R52). -/
def packCodes (ofmt : Nat) : List Int → List Byte
  | [] => []
  | a :: t =>
    if ofmt = 1 then
      match t with
      | b :: t' => BitVec.ofNat 8 (uns 4 a + 16 * uns 4 b) :: packCodes ofmt t'
      | [] => [BitVec.ofNat 8 (uns 4 a)]
    else BitVec.ofNat 8 (uns 8 a) :: packCodes ofmt t

/-- What a drained row comes to: record, scale or row word, flag word, clipped elements. -/
structure DrainedRow where
  bytes : List Byte
  word : Nat
  flag : Nat
  clips : Nat
  deriving DecidableEq, Repr

/-- A statistics context takes a row (R179). -/
def statRow (g : TileId) (k sse samples clips degen : Nat) : M Unit := do
  let pg : PageId := .tile g .cnv
  cnt pg (CNV.CTX_SSE k) sse
  cnt pg (CNV.CTX_SAMPLES k) samples
  cnt pg (CNV.CTX_CLIPS k) clips
  cnt pg (CNV.CTX_DEGEN k) degen

/-- Stages 4 and 5 of a row (R168 to R179). R175 gives the draws by RND; a drain with RND = SR that rounds under NEAREST
because FORCE_NEAREST is active draws no words (DESIGN CHOICE, log entry 132). -/
def quantise (g : TileId) (d : Nat) (zs : List Int) (sat : Bool) (reply : Option Nat) : M DrainedRow := do
  let pg : PageId := .tile g .cnv
  let c := Conv.chans d
  let src := b2n sat * 2 ^ 14
  let u := valueUnit d (rotOf (← get) g d)
  let x := segMax zs u
  if x.num = 0 then
    cnt pg CNV.DEGEN_ROWS 1
    if Conv.statEn d then statRow g (Conv.ctx d) 0 c 0 1
    return ⟨packCodes (Conv.ofmt d) (List.replicate c 0), 0, 2 ^ 15 + src, 0⟩
  else
    let w ← scaleWord g d x reply
    let sr := Conv.sr d && (← rd pg CNV.FORCE_NEAREST.active) = 0
    let ws := drawWords (if sr then ceilDiv c 4 else 0) (← getTile g).dither
    modTile g fun t => { t with dither := ws.2 }
    let rs := zs.map fun z => ((Frac.ofInt z).mul u).div (rscVal w)
    let qs := rs.zipIdx.map fun e => codeOf sr (qMax d) (ditherField ws.1 e.2) e.1
    let clips := (qs.filter fun q => q.2).length
    if Conv.statEn d then
      statRow g (Conv.ctx d) (((rs.zip qs).map fun e => sqErr e.1 e.2.1).foldl (· + ·) 0) c clips 0
    cnt pg CNV.CLIP_ELEMS clips
    return ⟨packCodes (Conv.ofmt d) (qs.map Prod.fst), w, clips + src, clips⟩

/-! ### Writing rows -/

def cnvHead (g : TileId) : M (Option (Active × DrainRun)) := do
  let t ← getTile g
  return match t.head .cnv, t.units.drain with
    | some c, some r => some (c, r)
    | _, _ => none

def modDrain (g : TileId) (f : DrainRun → DrainRun) : M Unit := modUnits g fun u => { u with drain := u.drain.map f }

/-- Bytes that the job's drains have written (R374). -/
def addExtent (g : TileId) (n : Nat) : M Unit :=
  modTile g fun t => { t with job := t.job.map fun j => { j with extent := j.extent + n } }

/-- A write of a DRAIN. A refusal is logged in the CNV page with the destination address (R160, R183). -/
def drWrite (g : TileId) (a : Nat) (bs : List Byte) : M Unit := do
  match ← catchErr ((ownReq g 2 1).write a bs) with
  | .ok _ => addExtent g bs.length
  | .error code =>
    logErr (.tile g .cnv) code 2 0 a
    fail code

/-- Header bytes with the words of row `k` of the block in place (R57, R62). -/
def headerRow (h : List Byte) (k word flag : Nat) : List Byte :=
  h.take (2 * k) ++ leBytes 2 word ++ (h.drop (2 * k + 2)).take (32 - 2 * k - 2) ++
    (h.drop 32).take (2 * k) ++ leBytes 2 flag ++ h.drop (32 + 2 * k + 2)

/-- A header of rows that are all ABSENT (R60, R62). -/
def absentHeader (d : Nat) : List Byte :=
  if Conv.ofmt d = 2 then (List.replicate 16 (leBytes 2 0x2000)).flatten ++ List.replicate 32 0
  else List.replicate 32 0 ++ (List.replicate 16 (leBytes 2 0x2000)).flatten

/-- Drained row `i` is written and counted; after the last row of a block, unused records and the header (R157, R178). -/
def writeRow (g : TileId) (c : CmdWord) (run : DrainRun) (i : Nat) (x : DrainedRow) : M Unit := do
  let d := run.desc
  drWrite g (drRecord c d i) x.bytes
  if 0 < x.clips then orJobFlags g CFlag.clip
  let h := headerRow (if i % 16 = 0 then absentHeader d else run.header) (i % 16) x.word x.flag
  let last := i + 1 = nrowsOf c
  if last then
    forAll ((List.range 16).drop (i % 16 + 1)) fun k =>
      drWrite g (drRecord c d (i / 16 * 16 + k)) (List.replicate (drPitch d) 0)
  if last || i % 16 = 15 then drWrite g (drBlock c i) h
  modDrain g fun r => { r with header := h, done := i + 1 }
  cnt (.tile g .cnv) CNV.ROWS_DRAINED 1
  wr (.tile g .cnv) CNV.ROW (i + 1)

/-- The CNV has read row `i`; the buffer returns to IDLE with the last one (R131). -/
def rowRead (g : TileId) (c : CmdWord) (i : Nat) : M Unit := do
  modDrain g fun r => { r with next := i + 1 }
  if i + 1 = nrowsOf c then
    modHead g .cnv fun a => { a with bufs := [] }
    settleUnits g

/-- The DRAIN completes when its last row and header are written (R157). -/
def drFinish (g : TileId) : M Unit := do
  match ← cnvHead g with
  | some (c, r) =>
    if r.done = nrowsOf c.bits then
      wr (.tile g .cnv) CNV.BUSY 0
      finishHead g .cnv
  | none => pure ()

/-! ### History (R169 to R171) -/

/-- A history operation of the CNV: master class 2, read and write permission (R260). -/
def histAccess (g : TileId) (h : HistOp) (a l : Nat) : M Nat := do
  let r := ownReq g 2 1
  match targetOf (← get).variant g a with
  | some (.pmem q off) =>
    r.checkRegion (.pmem q off) .a a 4
    checkOpen (partOf g) q
    mcHistOp q 2 h off l [] []
  | _ => spdRefuse g Err.addrRange 2 3 a

/-- The operation of drained row `i`; a refusal is logged with the row's destination (R160). -/
def sendHist (g : TileId) (c : CmdWord) (d i l : Nat) : M Nat := do
  let a := (Conv.histBase d + 4 * (Conv.histRow0 d + i)) % 2 ^ 40
  match ← catchErr (histAccess g (if Conv.follow d then .merge else .push) a l) with
  | .ok w => return w
  | .error code =>
    logErr (.tile g .cnv) code 2 0 (drRecord c d i)
    fail code

/-! ### DRAIN -/

/-- A refusal of the conversion descriptor (R162). -/
def cnvRefuse (g : TileId) (code a : Nat) : M α := do
  wr (.tile g .cnv) CNV.DESC_ERR 1
  logErr (.tile g .cnv) code 2 0 a
  fail code

/-- A DRAIN starts with what it read at its release, once that is sound (R162, R163, R208). -/
def drBegin (g : TileId) : M Unit := do
  let t ← getTile g
  match t.head .cnv with
  | none => pure ()
  | some c =>
    if c.op ≠ Op.drain || !c.released || t.units.drain.isSome then pure ()
    else
      latchDrain g c
      match (← getTile g).units.latched.look c.num with
      | none => pure ()
      | some l =>
        let a := drDesc c.bits
        if !l.full then return ()
        if l.err ≠ Err.none then fail l.err
        match convErr l.desc with
        | some code => cnvRefuse g code a
        | none =>
          if (List.range (l.params.length / 8)).any fun k =>
              let w := leNat ((l.params.drop (8 * k)).take 8)
              48 ≤ Param.sh w || bitsAt w 22 10 ≠ 0 then cnvRefuse g Err.cnvDesc a
          if nrowsOf c.bits > 16 && drStride c.bits < Conv.block l.desc then
            logErr (.tile g .cnv) Err.cmdField 2 0 (drDst c.bits)
            fail Err.cmdField
          modUnits g fun u => { u with drain := some ⟨l.desc, l.params, 0, [], 0, []⟩ }
          modHead g .cnv fun c => { c with begun := true }
          wr (.tile g .cnv) CNV.BUSY 1
          wr (.tile g .cnv) CNV.ROW 0

/-- Rows that the CNV may hold read and not written: 16 in HIST mode, else one (R158). -/
def rowsAhead (d : Nat) : Nat := if Conv.ofmt d ≠ 2 && Conv.hist d then 16 else 1

/-- The next row of a DRAIN is read and converted; in HIST mode it sends its history operation (R158 events 1 to 5). -/
def drRow (g : TileId) : M Unit := do
  match ← cnvHead g with
  | none => pure ()
  | some (c, run) =>
    let d := run.desc
    let i := run.next
    if i ≥ nrowsOf c.bits || run.hist.length ≥ rowsAhead d then pure ()
    else
      let row := row0Of c.bits + i
      let x := (← getTile g).acc (drBuf c.bits)
      let st := x.row row
      let zs ← if Conv.ofmt d = 2 then pure ((List.range 128).map (x.entry row))
        else convertRow g (drBuf c.bits) row d run.params
      let w ← if rowsAhead d = 16 then
          sendHist g c.bits d i (histL (segMax zs (valueUnit d (rotOf (← get) g d))) (qMax d))
        else pure 0
      rowRead g c.bits i
      modDrain g fun r => { r with hist := r.hist ++ [⟨i, zs, st.sat, w, rowsAhead d = 1, st.s, 0⟩] }

/-- The oldest row that the CNV holds is written, once it has its history reply (R158 events 6 to 8, R156). -/
def drOut (g : TileId) : M Unit := do
  match ← cnvHead g with
  | none => pure ()
  | some (c, run) =>
    match run.hist with
    | [] => pure ()
    | h :: rest =>
      if h.arrived then
        let x ← if Conv.ofmt run.desc = 2 then
            pure ⟨h.vals.flatMap fun v => leBytes 4 (uns 32 v), h.shift + b2n h.sat * 2 ^ 14, 0, 0⟩
          else quantise g run.desc h.vals h.sat (if Conv.hist run.desc then some h.reply else none)
        writeRow g c.bits run h.row x
        modDrain g fun r => { r with hist := rest }

/-- The reply of the first row that waits for one is marked. -/
def markArrived : List HistRow → List HistRow
  | [] => []
  | h :: t => if h.arrived then h :: markArrived t else { h with arrived := true } :: t

/-- The oldest history reply reaches the CNV (R158 event 5). -/
def drReply (g : TileId) : M Unit := modDrain g fun r => { r with hist := markArrived r.hist }

/-- The CNV waits for a history reply (R183). -/
def histWaits (t : Tile) : Bool := t.units.drain.any fun r => r.hist.any fun h => !h.arrived

/-- A micro-operation of the CNV, with what CNV_STATE shows after it: a wait for a destination in WWAIT, one for a history
reply in HWAIT. Its error ends the DRAIN, which clears the unit's state. -/
def cnvStep (g : TileId) (m : M Unit) : M Unit := fun s =>
  let pg : PageId := .tile g .cnv
  let show_ (wait : Bool) (s' : State) : State :=
    let t := s'.tile g
    let s1 := (s'.setReg pg CNV.WWAIT (b2n (wait && t.units.drain.isSome))).setReg pg CNV.HWAIT (b2n (histWaits t))
    if t.units.drain.isNone then s1.setReg pg CNV.BUSY 0 else s1
  match unitStep g .cnv (do m; drFinish g) s with
  | .ok _ s' => .ok () (show_ false s')
  | .error _ s' => .ok () (show_ true s')

/-! ### STAT (R180, R209) -/

/-- The record of a context (R180). -/
def statRecord (b : Bank) (k : Nat) : List Byte :=
  leBytes 8 (b.get (CNV.CTX_SSE k)) ++ leBytes 4 (b.get (CNV.CTX_SAMPLES k)) ++ leBytes 4 (b.get (CNV.CTX_CLIPS k)) ++
    leBytes 4 (b.get (CNV.CTX_DEGEN k)) ++ leBytes 4 k ++ List.replicate 8 0

/-- A context is cleared. -/
def clearCtx (g : TileId) (k : Nat) : M Unit := do
  let pg : PageId := .tile g .cnv
  wr pg (CNV.CTX_SSE k) 0
  wr pg (CNV.CTX_SAMPLES k) 0
  wr pg (CNV.CTX_CLIPS k) 0
  wr pg (CNV.CTX_DEGEN k) 0

/-- STAT copies its context and writes the record. -/
def statOp (g : TileId) : M Unit := do
  match (← getTile g).head .cnv with
  | none => pure ()
  | some c =>
    if c.op ≠ Op.stat || !c.released then pure ()
    else
      let k := stCtx c.bits
      let b := (← get).bank (.tile g .cnv)
      if stClear c.bits then clearCtx g k
      (ownReq g 2 1).write (stDst c.bits) (statRecord b k)
      finishHead g .cnv

/-- CNV_STAT_SNAP (R180, R183). -/
def snapOp (g : TileId) (v : Nat) : M Unit := do
  let pg : PageId := .tile g .cnv
  let k := bitsAt v 0 3
  let b := (← get).bank pg
  wr pg CNV.SNAP_SSE (b.get (CNV.CTX_SSE k))
  wr pg CNV.SNAP_SAMPLES (b.get (CNV.CTX_SAMPLES k))
  wr pg CNV.SNAP_CLIPS (b.get (CNV.CTX_CLIPS k))
  wr pg CNV.SNAP_DEGEN (b.get (CNV.CTX_DEGEN k))
  if v.testBit 8 then clearCtx g k

/-! ### The commands -/

/-- One row of the running DRAIN: one that could not be written before, or the next (R158). -/
def drainRowOp (g : TileId) : M Unit := do
  cnvStep g (drBegin g)
  if ((← getTile g).units.drain.map fun r => (r.hist.head?.map HistRow.arrived).getD false) ≠ some true then
    cnvStep g (drRow g)
  cnvStep g (drOut g)

/-- DRAIN (R208): accepted, started and carried through as far as it can be. -/
def execDrain (g : TileId) (s : State) : Host.Outcome State Fault Refusal :=
  M.next (do
    acceptFor g Op.drain .cnv
    match (← getTile g).head .cnv with
    | some c =>
      if c.op = Op.drain then
        repeatM 512 (do
          drainRowOp g
          cnvStep g (drReply g)
          cnvStep g (drOut g)
          return ((← getTile g).head .cnv).any fun x => x.num = c.num)
    | none => pure ()) s

/-- DRAIN_ROW (R158). -/
def execDrainRow (g : TileId) (s : State) : Host.Outcome State Fault Refusal := M.next (drainRowOp g) s

/-- HISTORY_REPLY (R171). -/
def execHistoryReply (g : TileId) (s : State) : Host.Outcome State Fault Refusal :=
  M.next (do
    cnvStep g (drReply g)
    cnvStep g (drOut g)) s

/-- STAT (R209). -/
def execStat (g : TileId) (s : State) : Host.Outcome State Fault Refusal :=
  M.next (do
    acceptFor g Op.stat .cnv
    unitStep g .cnv (statOp g)) s

/-- CNV_STAT_SNAP (R180). -/
def execCnvStatSnap (g : TileId) (value : BitVec 32) (s : State) : Host.Outcome State Fault Refusal :=
  M.next (pageWrite (.tile g .cnv) (snapOp g value.toNat)) s

end Sys2Proof.Machine
end

