-- ==== Sys2Proof/Machine/McRows.lean ====
section
/-! DEFINITION. The commands of the memory controllers: MC_READ, MC_WRITE, MC_ATOMIC_ADD, HISTORY_PUSH, HISTORY_MERGE,
MERGE_EVICT, MC_SCRUB, MR4_POLL, WCK2DQ_RETUNE (R170, R288, R295 to R306). -/
namespace Sys2Proof.Machine

/-- A request comes from outside partition `p`: by Piste, from the engine manager core, or from another partition (R411). -/
def fromOutside (p : PartId) (cls : Nat) (path : Path) : Bool := cls = 6 || cls = 7 || path.part ≠ p

/-- The tile whose SPD page logs a request's refusal (R43): a tile's own, and for Piste inbound the partition's tile 0, at
which R259 checks it; the cores have none. -/
def issuingTile (p : PartId) (cls : Nat) (path : Path) : Option TileId :=
  if cls < 4 then some (tileAt path.part path.tile) else if cls = 6 then some (tileAt p 0) else none

/-- A request at or above the usable capacity is refused, and logged at its issuing tile (R42, R43). -/
def mcRefuse (p : PartId) (cls off : Nat) (path : Path) : M Unit := do
  match issuingTile p cls path with
  | some g => spdLog g Err.addrRange cls 3 (memAddr p off)
  | none => pure ()
  fail Err.addrRange

/-- A request of class `cls` reaches partition `p`'s controllers: none does that comes from outside a partition that is not
in RUN (R411), and no offset lies at or above the usable capacity (R42). A tile's address is looked at before its request
leaves the tile. It passes the arbiters on its way to channel group `c` (R268). -/
def mcRequest (p : PartId) (cls off n : Nat) (path : Path) (m : M α) : M α := do
  if (cls = 6 ∨ cls = 7) && !open_ (← get) p then fail Err.fenced
  if off + n > (← get).variant.capacity then mcRefuse p cls off path
  if fromOutside p cls path && !open_ (← get) p then fail Err.fenced
  let _ ← passArbiters path.others (memWay cls path p (interleave (← get).variant off).1) 0
  m

/-- MC_READ (R296, R297). -/
def execMcRead (p : PartId) (src : Origin) (off len : Nat) (flips : List Flip) (again : Reread) (s : State) :
    Host.Outcome State Fault Refusal :=
  M.next (respond (mcRequest p src.cls off len src.path
    (mcReadOp p src.cls off len flips again.flips again.late))) s

/-- MC_WRITE (R295). -/
def execMcWrite (p : PartId) (src : Origin) (off : Nat) (bytes : List Byte) (flips again : List Flip) (s : State) :
    Host.Outcome State Fault Refusal :=
  M.next (respond (mcRequest p src.cls off bytes.length src.path (do
    mcWriteOp p src.cls off bytes flips again
    return []))) s

/-- MC_ATOMIC_ADD (R303, R304): addend i goes to word i of the burst; the reply's byte is SAT. -/
def execMcAtomicAdd (p : PartId) (src : Origin) (off : Nat) (adds : Addends) (s : State) :
    Host.Outcome State Fault Refusal :=
  M.next (respond (mcRequest p src.cls off 1 src.path (do
    let sat ← mcAtomicOp p src.cls off (adds.words.map fun a => a.map fun v => v.toInt) adds.flips adds.again
    return [BitVec.ofNat 8 (b2n sat)]))) s

/-- HISTORY_PUSH (R170): the reply is the word as it was. -/
def execHistoryPush (p : PartId) (off : Nat) (push : HistoryPush) (s : State) : Host.Outcome State Fault Refusal :=
  M.next (respond (mcRequest p 2 off 4 push.path (do
    return leBytes 4 (← mcHistOp p 2 .push off push.byte.toNat push.flips push.again)))) s

/-- HISTORY_MERGE (R170). -/
def execHistoryMerge (p : PartId) (off : Nat) (push : HistoryPush) (s : State) : Host.Outcome State Fault Refusal :=
  M.next (respond (mcRequest p 2 off 4 push.path (do
    return leBytes 4 (← mcHistOp p 2 .merge off push.byte.toNat push.flips push.again)))) s

/-- MERGE_EVICT (R306): the oldest buffered burst goes back to the stack. -/
def execMergeEvict (p : PartId) (c : Fin 2) (s : State) : Host.Outcome State Fault Refusal :=
  M.next (mcEvict p c) s

/-- The channel group exists in this variant (R26, R38). -/
def hasGroup (s : State) (c : Fin 2) : Bool := c.val < s.variant.groups

/-- The flips that meet burst `k` of a scrubbed group; those of the check block (number 20) meet the check bytes. -/
def scrubFlips (burst : Fin 21) (k : Nat) (fs : List Flip) : List Flip :=
  if burst.val = 20 then
    (fs.filter fun f => f.sym / 3 = k).map fun f => { f with sym := 64 + f.sym % 3 }
  else if burst.val = k then fs.filter fun f => f.sym < 67 else []

/-- The number of data groups of a stack (R289). -/
def dataGroups : Nat := 12782640

/-- MC_SCRUB (R300): the next data group is read; no requester receives an error. -/
def execMcScrub (p : PartId) (c : Fin 2) (burst : Fin 21) (flips : List Flip) (again : Reread) (s : State) :
    Host.Outcome State Fault Refusal :=
  M.next (do
    let pg : PageId := .mc p c
    if hasGroup (← get) c && (← rd pg MC.SCRUB_EN) = 1 then
      mcFlush p c none
      let j ← rd pg MC.SCRUB_POS
      forAll (List.range 20) fun k => do
        let _ ← mcReadBurst p c (1280 * j + 64 * k) (scrubFlips burst k flips) (scrubFlips burst k again.flips) again.late
      if j + 1 < dataGroups then wr pg MC.SCRUB_POS (j + 1)
      else
        wr pg MC.SCRUB_POS 0
        cnt pg MC.SCRUB_PASSES 1) s

/-- MR4_POLL (R288): the highest refresh-rate code among the channels, and whether it asks for more than 1×. -/
def execMr4Poll (p : PartId) (c : Fin 2) (codes : List (BitVec 3)) (s : State) :
    Host.Outcome State Fault Refusal :=
  M.next (do
    if hasGroup (← get) c then
      let top := codes.foldl (fun m x => max m x.toNat) 0
      wr (.mc p c) MC.MR4_RATE top
      wr (.mc p c) MC.THROT (b2n (Config.mr4Above top))) s

/-- WCK2DQ_RETUNE (R288): requests are held for at most 200 OC and none is refused, so that nothing that software or a
requester can see changes but time. -/
def execWck2dqRetune (_p : PartId) (_c : Fin 2) (s : State) : Host.Outcome State Fault Refusal := .next s

end Sys2Proof.Machine
end

