-- ==== Sys2Proof/Machine/PisteRx.lean ====
section
/-! DEFINITION. Receiving on Piste: classification of frames, streams and what each message does (R326, R337 to R345, R348
to R352, R354, R355, R357). -/
namespace Sys2Proof.Machine

def msgArg (m : Msg) (hi lo : Nat) : Nat := bitsAt m.arg.toNat lo (hi - lo + 1)

/-! ### Inbound accesses (R344) -/

/-- The port that answers a station for partition `p` (R357). -/
def replyPort (s : State) (n : PortId) (p : PartId) (d : Nat) : PortId := (portFor s p d).getD n

/-- The queue to the sender takes one more message (R340). -/
def replyRoom (s : State) (n : PortId) (p : PartId) (d : Nat) : Bool :=
  ((s.port (replyPort s n p d)).tx.filter fun t => t.dst = d).length < 1024

/-- WRITE_ACK or READ_DATA for a request (R339): STATUS, its RID, and the epoch that it carried. -/
def answer (n : PortId) (src : Sender) (m : Msg) (type status : Nat) (data : List Byte) : M Unit := do
  let arg := status + msgArg m 63 50 * 2 ^ 16 + src.epoch % 4096 * 2 ^ 40
  enqueue (replyPort (← get) n m.dpart src.stn.val) m.dpart src.stn.val (mkMsg type src.stn.val src.part arg data) .port

/-- The ERR_ code of an outcome. -/
def codeOfRes : Except Nat α → Nat
  | .ok _ => Err.none
  | .error c => c

/-- WRITE: false where its answer has no room yet, so that it is not taken. -/
def deliverWrite (n : PortId) (src : Sender) (m : Msg) : M Bool := do
  let p := m.dpart
  if !replyRoom (← get) n p src.stn.val then return false
  else
    let a := msgArg m 39 0
    let r ← catchErr (portAccess p .w a m.data.length (mcWriteOp p 6 a m.data [] []))
    answer n src m MsgType.writeAck (codeOfRes r) []
    return true

/-- READ. -/
def deliverRead (n : PortId) (src : Sender) (m : Msg) : M Bool := do
  let p := m.dpart
  if !replyRoom (← get) n p src.stn.val then return false
  else
    let a := msgArg m 39 0
    let k := 4 * msgArg m 49 40
    match ← catchErr (portAccess p .r a k (mcReadOp p 6 a k [] [] false)) with
    | .ok bs => answer n src m MsgType.readData Err.none bs
    | .error c => answer n src m MsgType.readData c []
    return true

/-- The adds of one ATOM_ADD, in address order; none is made where a burst is uncorrectable (R344, R350). -/
def atomAll (p : PartId) (a : Nat) (us : List Int) : M Bool := do
  let ps := addPieces a us
  let s ← get
  let bad (q : Nat × List (Option Int)) : Bool :=
    let (c, o) := interleave s.variant (q.1 / 64 * 64)
    classify (((s.part p).ctl c).burst o) = .bad
  match ps.find? bad with
  | some q => mcAtomicOp p 6 q.1 q.2 [] []
  | none => return (← mapAll ps fun q => mcAtomicOp p 6 q.1 q.2 [] []).any id

/-- ATOM_ADD (R350 to R352): contributor 4 × STN + PART. A clamp sets SAT in the window that the TAG matches, whether or not
the window expects the contributor. -/
def deliverAtom (n : PortId) (src : Sender) (m : Msg) : M Unit := do
  let p := m.dpart
  let a := msgArg m 39 0
  let us := (leWords m.data).map (sext 32)
  let c := 4 * src.stn.val + src.part.val
  let w := winFor (← get) (msgArg m 55 40)
  let r ← catchErr (portAccess p .a a m.data.length (atomAll p a us))
  match r with
  | .error _ =>
    cnt (.link n) LINK.ATOM_REFUSED 1
    match w with
    | some w => winTaint w (if (winLatch (← get) w).expect.testBit c then 4 else 3) c
    | none => pure ()
  | .ok sat =>
    match w with
    | none => cnt (.link n) LINK.NOWIN 1
    | some w =>
      if sat then wr (.peer 0) (PEER.WSAT w) 1
      if (winLatch (← get) w).expect.testBit c then winCount n w c m.last else winTaint w 3 c

/-- GATE_SIG: a signal of class PISTE to a global gate; a refusal sends no reply (R343, R363). -/
def deliverGateSig (m : Msg) : M Unit := do
  let _ ← signalGate m.dpart m.dpart ⟨msgArg m 7 0, true⟩ .piste (msgArg m 39 8)

/-! ### Replies (R345, R348) -/

/-- The partition takes no replies: its fence has started and it is not in RUN or REPLAY again. -/
def partFenced (s : State) (p : PartId) : Bool :=
  s.reg .dlw (DLW.STATE p.val) ≠ 0 && s.reg .dlw (DLW.STATE p.val) ≠ 6

/-- A transfer's reply has arrived: its first error is kept, and read data are written to LOCAL. -/
def xferReply (p : PartId) (x : Xfer) (e : Nat × Nat × Nat) (status : Nat) (data : List Byte) : M Unit := do
  let code ←
    if status ≠ Err.none then pure status
    else if XferD.op x.desc = 1 then do
      let la := XferD.local_ x.desc + e.2.1
      pure (codeOfRes (← catchErr (portAccess p .w la e.2.2 (mcWriteOp p 6 la (data.take e.2.2) [] []))))
    else pure Err.none
  modXfer p fun y => { y with
    open_ := y.open_.filter fun o => o.1 ≠ e.1
    err := if y.err = Err.none then code else y.err }

/-- WRITE_ACK and READ_DATA. A reply to no open request is dropped; one that reaches a fenced partition is dropped too, and
the fence waits for it no longer (R345, R411; DEDUCED, log entry 65). -/
def deliverReply (n : PortId) (src : Sender) (m : Msg) : M Unit := do
  let p := m.dpart
  let s ← get
  if msgArg m 51 40 ≠ ownEpoch s p || partFenced s p then
    cnt (.link n) LINK.OLD_EPOCH 1
    if msgArg m 51 40 = ownEpoch s p then modXfer p fun x => x.without [msgArg m 29 16]
  else
    match (s.part p).xfer with
    | none => pure ()
    | some x =>
      match x.open_.find? fun o => o.1 = msgArg m 29 16 with
      | some e => if XferD.stn x.desc = src.stn.val then xferReply p x e (msgArg m 15 0) m.data
      | none => pure ()

/-! ### Streams (R341, R345) -/

/-- A sequenced message in its turn: false where it cannot be taken yet. One of an ended epoch is dropped; one of an
unknown type has no effect. -/
def deliver (n : PortId) (src : Sender) (m : Msg) : M Bool := do
  if epochEnded (← getPort n) src.stn.val src.part.val src.epoch then
    cnt (.link n) LINK.OLD_EPOCH 1
    return true
  else if m.type = MsgType.write then deliverWrite n src m
  else if m.type = MsgType.read then deliverRead n src m
  else
    if m.type = MsgType.writeAck || m.type = MsgType.readData then deliverReply n src m
    else if m.type = MsgType.atomAdd then deliverAtom n src m
    else if m.type = MsgType.gateSig then deliverGateSig m
    else cnt (.link n) LINK.STRANGER 1
    return true

/-- RX_NEXT of a stream advances, past what was held of it. -/
def rxAdvance (n : PortId) (t : Nat) : M Unit := do
  wr (.peer n) (PEER.RX_NEXT t) ((← rd (.peer n) (PEER.RX_NEXT t)) + 1)
  modPort n fun x => { x with held := x.held.filter fun k => k.src.stn.val ≠ t || !k.inStream }

/-- A message in its turn is held while it cannot be taken; of a stream only the one whose turn it is (R341). -/
def hold (n : PortId) (h : HeldMsg) : M Unit :=
  modPort n fun x => { x with
    held := (x.held.filter fun k => k.src.stn ≠ h.src.stn || !k.inStream || !h.inStream) ++ [h] }

/-- A message moved from the lost star is checked against that star's record of the stream too (R357). -/
def takeMoved (n : PortId) (src : Sender) (m : Msg) : M Unit := do
  let k : PortId := 1 - n
  let t := src.stn.val
  let d := seqBehind m.oseq (← rd (.peer k) (PEER.RX_NEXT t))
  if d = 0 then
    if ← deliver n src m then
      rxAdvance k t
      rxAdvance n t
    else hold n ⟨src, m, true⟩
  else if d < 32768 then
    cnt (.link n) LINK.DUP_DROP 1
    rxAdvance n t
  else cnt (.link n) LINK.OOO_DROP 1

/-- A sequenced message for this station (R341). -/
def takeSequenced (n : PortId) (src : Sender) (m : Msg) : M Unit := do
  let t := src.stn.val
  let d := seqBehind m.seq (← rd (.peer n) (PEER.RX_NEXT t))
  if d = 0 then
    if m.moved then takeMoved n src m
    else if ← deliver n src m then rxAdvance n t
    else hold n ⟨src, m, true⟩
  else if d ≤ 1024 then cnt (.link n) LINK.DUP_DROP 1
  else cnt (.link n) LINK.OOO_DROP 1

/-- The held messages of a port are tried again (R341, R482). -/
def retryHeld (n : PortId) : M Unit := do
  let hs := (← getPort n).held
  modPort n fun x => { x with held := [] }
  forAll hs fun h =>
    if h.inStream then takeSequenced n h.src h.msg
    else do if !(← deliver n h.src h.msg) then hold n h

/-! ### Unsequenced messages -/

/-- HEARTBEAT (R345). -/
def takeHeartbeat (n : PortId) (src : Sender) (m : Msg) : M Unit :=
  forAll ((leWords m.data).take 4).zipIdx fun (w, p) => do
    let t := src.stn.val
    learnEpoch n t p (bitsAt w 0 12)
    modPort n fun x => { x with
      peerState := x.peerState.put (4 * t + p) (if bitsAt w 12 2 = 0 then none else some (bitsAt w 12 2)) }

/-- FENCE ends an epoch of a remote partition: epoch and state are recorded, windows are tainted, transfers to it end (R345,
R348, R352). -/
def takeFence (n : PortId) (src : Sender) (m : Msg) : M Unit := do
  let t := src.stn.val
  let p := msgArg m 1 0
  let e := msgArg m 23 12
  let old := (← getPort n).epochsEnded.look (4 * t + p)
  if (match old with | none => true | some o => newerEpoch e o) then
    modPort n fun x => { x with epochsEnded := x.epochsEnded.put (4 * t + p) (some e) }
    learnEpoch n t p e
    if !newerEpoch (peerEpoch (← get) n t p) e then
      setMaskBit (.peer n) (PEER.P_FENCED t) p true
      modPort n fun x => { x with peerState := x.peerState.put (4 * t + p) (some 1) }
  taintFor 2 [4 * t + p]
  xferEndAll Err.fenced fun _ x => XferD.stn x.desc = t && XferD.rpart x.desc = p

/-- JOIN at the job master: a JOIN_ACK is due (R354). -/
def takeJoin (n : PortId) (src : Sender) (m : Msg) : M Unit := do
  let s ← get
  if s.reg (.link n) LINK.MASTER = 1 && portState s n = PortState.member then
    let t := src.stn.val
    let rec_ := s.reg (.peer n) (PEER.P_DEPOCH t)
    let told := msgArg m 11 0
    let newest := if told ≠ 0xFFF && newerEpoch told rec_ then told else rec_
    modPort n fun x => { x with joinAcks := (x.joinAcks.filter fun a => a.1 ≠ t) ++ [(t, (newest + 1) % 4096)] }

/-- JOIN_ACK: the joiner becomes a member once its map gives it a slot, and every member restarts its streams to it
(R353, R354). -/
def takeJoinAck (n : PortId) (m : Msg) : M Unit := do
  let s ← get
  let d := msgArg m 11 0
  let e := msgArg m 59 12
  if m.dst = ownStn s n then
    if portState s n = PortState.joining then
      wr (.link n) LINK.DEPOCH d
      wr (.peer 0) PEER.OWN_PEPOCH e
      forAll (List.range 12) (resetStreams n)
      modPort n fun x => { x with tx := [], held := [], joinAcked := true, depochUsed := true }
      memberJoins n m.dst d e
      memberIfGiven n
  else if m.dst < 12 then memberJoins n m.dst d e

/-- LAPMAP (R328): a newer map is held until its lap. -/
def takeLapmap (n : PortId) (src : Sender) (m : Msg) : M Unit := do
  let s ← get
  if src.stn.val ≠ ownStn s n && newerMap (msgArg m 55 48) (s.reg (.link n) LINK.MAPVER) then
    let x : NewMap := ⟨leWords (m.data.take 16), msgArg m 47 0, msgArg m 55 48, false, []⟩
    modPort n fun y => { y with newMap := some x }

/-- LEAVE: its sender goes DOWN at once (R355). -/
def takeLeave (n : PortId) (src : Sender) : M Unit := do
  if stationUp (← get) n src.stn.val then stationDown n src.stn.val

/-- One message of an accepted frame. Sequenced messages are for their DST, and only while the port has streams. -/
def takeMsg (n : PortId) (src : Sender) (m : Msg) : M Unit := do
  let s ← get
  let t := m.type
  if sequenced t then
    if m.dst = ownStn s n && (portState s n = PortState.member || portState s n = PortState.leaving) then
      takeSequenced n src m
  else if t = MsgType.heartbeat then takeHeartbeat n src m
  else if t = MsgType.fence then takeFence n src m
  else if t = MsgType.join then takeJoin n src m
  else if t = MsgType.joinAck then takeJoinAck n m
  else if t = MsgType.leave then takeLeave n src
  else if t = MsgType.lapmap then takeLapmap n src m

/-! ### Frames (R326, R337) -/

/-- The frame is sealed under the port's current key, else under its next one. -/
def underCurrent (s : State) (n : PortId) (f : Frame) : Bool :=
  f.kgen = s.reg (.link n) LINK.KGEN_CUR && f.key = (s.port n).keyCur

/-- The station takes a later lap and slot, and with its first frame any, unless it would go back under one key generation
(R326). The key of the frame has sealed one from now on. -/
def takeLap (n : PortId) (f : Frame) : M Unit := do
  let s ← get
  let lk : PageId := .link n
  let x := s.port n
  let own := s.reg lk LINK.LAP * 16 + x.slot
  let cur := underCurrent s n f
  let unused := if cur then !x.sealed else !x.sealedNext
  modPort n fun x => if cur then { x with sealed := true } else { x with sealedNext := true }
  let first := s.reg lk LINK.LAPSYNC = 0
  wr lk LINK.LAPSYNC 1
  if (first && unused) || own < f.lap * 16 + f.slot.val then
    wr lk LINK.LAP f.lap
    modPort n fun x => { x with slot := f.slot.val }
    adoptMap n

/-- A frame body as the port opens it: sealed for its job under a key of its KGEN that the port holds, with a tag that
verifies (R336, R337). -/
def openBody (s : State) (n : PortId) (body : List Byte) : Option Frame :=
  let h := readHeader (body.take 32)
  let x := s.port n
  let r := fun k => s.reg (.link n) k
  let cur := if h.kgen = r LINK.KGEN_CUR then [x.keyCur] else []
  let next := if r LINK.NEXT_VALID = 1 && h.kgen = r LINK.KGEN_NEXT then [x.keyNext] else []
  if h.job.toNat ≠ r LINK.JOB then none else (cur ++ next).findSome? (openFrame body)

/-- What a burst holds for the port: the symbols corrected, and the frame where it is no stranger's; the outer none says that
a codeword is uncorrectable (R322, R337). -/
def received (s : State) (n : PortId) (burst : List Byte) : Nat × Option (Option Frame) :=
  let d := FrameCode.decode burst 18
  (d.1, d.2.map (openBody s n))

/-- The payload is a single JOIN. -/
def singleJoin (f : Frame) : Bool := match f.msgs with | [m] => m.type = MsgType.join | _ => false

/-- Messages to station `t` with a SEQ before `rx` are acknowledged (R340). -/
def ackUpTo (n : PortId) (t rx : Nat) : M Unit := do
  wr (.peer n) (PEER.TX_ACK t) rx
  modPort n fun x => { x with
    tx := x.tx.filter fun m => !(m.dst = t && match m.seq with
      | some q => 1 ≤ seqBehind q rx && seqBehind q rx < 32768
      | none => false) }

/-- The acknowledgement field of a frame from station `t` (R335, R340). A station's own frame acknowledges what it has
delivered to itself. -/
def takeAcks (n : PortId) (f : Frame) : M Unit := do
  let s ← get
  let own := ownStn s n
  if f.stn = own then ackUpTo n own (s.reg (.peer n) (PEER.RX_NEXT own))
  else
    match f.acks[own]? with
    | some e => if e.valid && e.depoch = s.reg (.link n) LINK.DEPOCH then ackUpTo n f.stn e.rxNext
    | none => pure ()

/-- What a header tells of its sender (R326, R328, R345, R355). -/
def takeHeader (n : PortId) (t : Nat) (f : Frame) (gives : Bool) : M Unit := do
  let s ← get
  let lk : PageId := .link n
  let x := s.port n
  takeLap n f
  if newerEpoch f.depoch (s.reg (.peer n) (PEER.P_DEPOCH t)) then wr (.peer n) (PEER.P_DEPOCH t) f.depoch
  learnEpoch n t f.part.val f.epoch
  if gives then
    modPort n fun x => { x with heard := if x.heard.contains t then x.heard else t :: x.heard, downLaps := x.downLaps.put t none }
  if newerMap f.mapver (s.reg lk LINK.MAPVER) && x.muted.all (newerMap f.mapver) then
    modPort n fun x => { x with muted := some f.mapver }
  modPort n fun x => { x with newMap := x.newMap.map fun m =>
    if m.mine && f.mapver = m.ver && !m.reported.contains t then { m with reported := t :: m.reported } else m }

/-- A frame is accepted: header, acknowledgements, messages up to the first of TYPE 0 (R337, R338). -/
def acceptFrame (n : PortId) (t : StnId) (f : Frame) (gives : Bool) : M Unit := do
  cnt (.link n) LINK.FR_RX 1
  takeHeader n t.val f gives
  if f.stn ≠ ownStn (← get) n then takeAcks n f
  forAll (f.msgs.takeWhile fun m => m.type ≠ 0) (takeMsg n ⟨t, f.part, f.epoch⟩)
  if f.stn = ownStn (← get) n then takeAcks n f
  retryHeld n
  forAll (List.finRange 4) xferPump

/-- A member in the eyes of the port. One that listens or joins learns its members from the frames that it hears in their
own slots (log entry 21). -/
def learnMember (n : PortId) (t : Nat) (f : Frame) : M Unit := do
  if !((← get).reg (.link n) LINK.MEMBER).testBit t then
    setMember n t true
    setUp n t true
    wr (.peer n) (PEER.P_DEPOCH t) f.depoch

/-- An authentic frame: rows 3 to 6 of R337. -/
def frameOp (n : PortId) (f : Frame) : M Unit := do
  let s ← get
  let lk : PageId := .link n
  if h : f.stn < 12 then
    let st := portState s n
    let listening := st = PortState.listen || st = PortState.joining
    let gives := ownsSlot s n f.stn f.slot.val
    let join := singleJoin f && contentionSlot s n f.slot.val
    let member := (s.reg lk LINK.MEMBER).testBit f.stn || (listening && gives && !singleJoin f)
    if listening then takeLap n f
    if !join && (!member || !gives) then cnt lk LINK.STRANGER 1
    else if !join && newerEpoch (s.reg (.peer n) (PEER.P_DEPOCH f.stn)) f.depoch then cnt lk LINK.OLD_EPOCH 1
    else
      if !join then learnMember n f.stn f
      acceptFrame n ⟨f.stn, h⟩ f gives
  else cnt lk LINK.STRANGER 1

/-- FRAME_RX: classification in the order of R337. Any burst is a signal (R356). -/
def frameRxOp (n : PortId) (burst : List Byte) : M Unit := do
  let s ← get
  let st := portState s n
  if st = PortState.off || st = PortState.starDown then pure ()
  else
    let r := received s n burst
    modPort n fun x => { x with dark := 0 }
    cnt (.link n) LINK.FEC_SYM r.1
    match r.2 with
    | none => cnt (.link n) LINK.FEC_UNCORR 1
    | some none => cnt (.link n) LINK.STRANGER 1
    | some (some f) => frameOp n f

/-- A sequenced message that has reached its turn, as a command of its own; where it cannot be taken it is held. -/
def deliverRow (n : PortId) (src : Sender) (t : Nat) (m : Msg) (s : State) : Host.Outcome State Fault Refusal :=
  M.next (do if !(← deliver n src { m with type := t }) then hold n ⟨src, { m with type := t }, false⟩) s

/-- FRAME_RX (R337). -/
def execFrameRx (n : PortId) (burst : List Byte) (s : State) : Host.Outcome State Fault Refusal :=
  M.next (frameRxOp n burst) s
/-- WRITE (R344). -/
def execWrite (n : PortId) (src : Sender) (msg : Msg) (s : State) : Host.Outcome State Fault Refusal :=
  deliverRow n src MsgType.write msg s
/-- WRITE_ACK (R348). -/
def execWriteAck (n : PortId) (src : Sender) (msg : Msg) (s : State) : Host.Outcome State Fault Refusal :=
  deliverRow n src MsgType.writeAck msg s
/-- READ (R344). -/
def execRead (n : PortId) (src : Sender) (msg : Msg) (s : State) : Host.Outcome State Fault Refusal :=
  deliverRow n src MsgType.read msg s
/-- READ_DATA (R348). -/
def execReadData (n : PortId) (src : Sender) (msg : Msg) (s : State) : Host.Outcome State Fault Refusal :=
  deliverRow n src MsgType.readData msg s
/-- ATOM_ADD (R350). -/
def execAtomAdd (n : PortId) (src : Sender) (msg : Msg) (s : State) : Host.Outcome State Fault Refusal :=
  deliverRow n src MsgType.atomAdd msg s
/-- GATE_SIG (R343). -/
def execGateSig (n : PortId) (src : Sender) (msg : Msg) (s : State) : Host.Outcome State Fault Refusal :=
  deliverRow n src MsgType.gateSig msg s
/-- HEARTBEAT (R345). -/
def execHeartbeat (n : PortId) (src : Sender) (msg : Msg) (s : State) : Host.Outcome State Fault Refusal :=
  M.next (takeHeartbeat n src msg) s
/-- FENCE_MESSAGE (R345). -/
def execFenceMessage (n : PortId) (src : Sender) (msg : Msg) (s : State) : Host.Outcome State Fault Refusal :=
  M.next (takeFence n src msg) s
/-- JOIN (R354). -/
def execJoin (n : PortId) (src : Sender) (msg : Msg) (s : State) : Host.Outcome State Fault Refusal :=
  M.next (takeJoin n src msg) s
/-- JOIN_ACK (R354). -/
def execJoinAck (n : PortId) (_src : Sender) (msg : Msg) (s : State) : Host.Outcome State Fault Refusal :=
  M.next (takeJoinAck n msg) s
/-- LEAVE (R355). -/
def execLeave (n : PortId) (src : Sender) (_msg : Msg) (s : State) : Host.Outcome State Fault Refusal :=
  M.next (takeLeave n src) s
/-- LAPMAP (R328). -/
def execLapmap (n : PortId) (src : Sender) (msg : Msg) (s : State) : Host.Outcome State Fault Refusal :=
  M.next (takeLapmap n src msg) s

end Sys2Proof.Machine
end

