-- ==== Sys2Proof/Machine/Power.lean ====
section
/-! DEFINITION. Supplies, emergency levels, tile gating, oscillators and PST_WAKE (R453, R456, R458, R461 to R467). -/
namespace Sys2Proof.Machine

/-- A row of the engine-wide blocks: in engine reset nothing happens (R22, R468). -/
def whileAwake (m : M Unit) : M Unit := do
  if (← get).eng.inReset then pure () else m

/-! ### Supplies (R458) -/

/-- The code that the power manager drives: PVREQ, codes above 50 taken as 50, at level 1 or above capped at EMG1_V. -/
def supplyCode (s : State) (p : PartId) : Nat :=
  let v := min 50 (s.reg .pwr (PWR.PVREQ p.val))
  if 1 ≤ s.reg .pwr PWR.EMG_LEVEL then min v (s.reg .pwr PWR.EMG1_V) else v

/-- The supply goes to its code; until it has settled SETTLED is 0. -/
def driveSupply (p : PartId) : M Unit := do
  let v := supplyCode (← get) p
  if v ≠ (← rd .pwr (PWR.PVACT p.val)) then
    wr .pwr (PWR.PVACT p.val) v
    wr .pwr (PWR.SETTLED p.val) 0

/-- Every partition's supply. -/
def driveSupplies : M Unit := forAll (List.finRange 4) driveSupply

/-- PVREQ takes a code; one above 50 is counted (R471). -/
def pvreqOp (p : PartId) (code : Nat) : M Unit := do
  wr .pwr (PWR.PVREQ p.val) code
  if 50 < code then logErr .pwr Err.none p.val 0 code
  driveSupply p

/-- The supply has reached its code. -/
def settledOp (p : PartId) : M Unit := do
  wr .pwr (PWR.SETTLED p.val) 1
  emgSettle

/-! ### Emergency levels (R462 to R466) -/

/-- The members of pair entry `k`, critical member first. -/
def pairMembers (s : State) (k : Nat) : List Nat :=
  let a := s.reg .dlw (DLW.A_PART k)
  let b := s.reg .dlw (DLW.B_PART k)
  if s.reg .dlw (DLW.CRIT k) = 1 then [b, a] else [a, b]

/-- The kept partition (R464). -/
def keptPart (s : State) : Option Nat :=
  (((List.range 8).filter fun k => s.reg .dlw (DLW.PEN k) = 1).flatMap (pairMembers s)).find? fun p =>
    s.reg .dlw (DLW.STATE p) = PState.run

/-- The level is written, counted and reported (R463 events 1 and 2). -/
def noteLevel (level : Nat) : M Unit := do
  wr .pwr PWR.EMG_LEVEL level
  cnt .pwr PWR.EMG_CHANGES 1
  raise .pwr 0
  postAll 0x0200 1 Err.none level

/-- The boundary request of level 2; a partition that is being reset makes it when it is back (R462, R466). -/
def levelBoundary (p : PartId) : M Unit := do
  let st := partState (← get) p
  if st ≠ PState.failed && st ≠ PState.off then
    modPart p fun x => { x with levelBnd := true }
    if st = PState.run || st = PState.replay then requestBoundary p

/-- A rise of the level: the steps of each level reached, in the order of R463. -/
def riseOp (level : Nat) : M Unit := do
  let old ← rd .pwr PWR.EMG_LEVEL
  if old < level then
    noteLevel level
    abandonActivation level
    driveSupplies
    if old < 2 && 2 ≤ level then forAll (List.finRange 4) levelBoundary
    if level = 3 then
      let kept := keptPart (← get)
      forAll (List.finRange 4) fun p => if kept = some p.val then pure () else turnOff p
    emgSettle

/-- A fall of the level (R465). Partitions outside RUN see the end of the restriction when they reach RUN. -/
def fallOp (level : Nat) : M Unit := do
  let old ← rd .pwr PWR.EMG_LEVEL
  if level < old then
    noteLevel level
    wr .pwr PWR.EMG_DONE (min level (← rd .pwr PWR.EMG_DONE))
    driveSupplies
    if level < 2 then
      forAll (List.finRange 4) fun p => do
        if partState (← get) p = PState.run then endRestriction p
    if old = 3 then
      forAll (List.finRange 4) fun p => do
        if partState (← get) p = PState.off then powerOn p
    emgSettle

/-! ### Tile gating (R461) -/

/-- The TILE_GATE bit of a tile is set. -/
def gateBit (s : State) (g : TileId) : Bool := (s.reg .pwr (PWR.TILE_GATE (partOf g).val)).testBit (localOf g)

/-- The dispatch that is due names the tile. -/
def offered (s : State) (g : TileId) : Bool :=
  (nextOffer s (partOf g)).any fun o => jobRefusal s (partOf g) o.desc = Err.none && (jobTiles (partOf g) o.desc).contains g

/-- The tile gates: buffers, tables, books, LUTs and statistics are lost, banks that are ON are held in retention. -/
def gateTile (g : TileId) : M Unit := do
  collectTile g
  loseContents g
  forAll (List.range 8) fun k => do
    wr (.tile g .cnv) (CNV.CTX_SSE k) 0
    wr (.tile g .cnv) (CNV.CTX_SAMPLES k) 0
    wr (.tile g .cnv) (CNV.CTX_CLIPS k) 0
    wr (.tile g .cnv) (CNV.CTX_DEGEN k) 0
  forAll (List.range 16) fun k => do
    if (← rd (.tile g .spd) (SPD.BANK_STAT k)) ≠ 2 then wr (.tile g .spd) (SPD.BANK_STAT k) 1
  maskSet .pwr (PWR.TILE_GATED (partOf g).val) (localOf g) true

/-- The tile wakes (R461 steps 1 to 4): its banks go to their active states, the dither source is seeded, the switch list
runs. -/
def wakeTile (g : TileId) (seed : BitVec 64) : M Unit := do
  maskSet .pwr (PWR.TILE_GATED (partOf g).val) (localOf g) false
  forAll (List.range 16) fun k => do
    if (← rd (.tile g .spd) (SPD.BANK_STAT k)) = 1 && (← rd (.tile g .spd) (SPD.BANK_PWR k).active) = 0 then
      wr (.tile g .spd) (SPD.BANK_STAT k) 3
  seedTile g seed
  startSwitch g

/-! ### Oscillators (R456) -/

/-- The higher of two 8-bit signed temperatures. -/
def hotter (a b : Nat) : Nat := if sext 8 a < sext 8 b then b else a

/-- Partition `p`'s sensor shows `tj`: TJ, and TJ_PEAK, the highest since the last read (R471). -/
def tempSample (p : PartId) (tj : Nat) : M Unit := do
  let anew := (← get).eng.tjUnread.testBit p.val
  wr .pwr (PWR.TJ p.val) tj
  let peak ← rd .pwr (PWR.TJ_PEAK p.val)
  wr .pwr (PWR.TJ_PEAK p.val) (if anew then tj else hotter peak tj)
  if anew then modEng fun e => { e with tjUnread := e.tjUnread - 2 ^ p.val }

/-- A partition's oscillator, at its start, within RESET. -/
def calPart (p : PartId) (count trim tj : Nat) : M Unit := do
  if partState (← get) p = PState.reset then
    wr .pwr (PWR.OSC_CAL p.val) count
    wr .pwr (PWR.OSC_TRIM p.val) trim
    wr .pwr (PWR.CAL_TJ p.val) tj
    tempSample p tj
    maskSet .pwr PWR.OSC_ERR_P p.val (!oscGood count)
    if oscGood count then
      wr (.pctl p) PCTL.OC_NOW 0
      setState p PState.retrain
    else
      raise .pwr 3
      failPartition p Err.resetAbort

/-- The engine's oscillator; a failure holds the engine in reset, and a success lets it start where the ROM has handed over
(R455, R456). -/
def calEngine (count : Nat) : M Unit := do
  wr .pwr PWR.OSC_CAL_E count
  wr .pwr PWR.OSC_ERR_E (b2n (!oscGood count))
  if oscGood count then
    if (← get).eng.bootWait then engineStarts
  else
    raise .pwr 3
    modEng fun e => { e with inReset := true }

/-- A port's oscillator; a port whose calibration has failed stays OFF. -/
def calPort (n : PortId) (count : Nat) : M Unit := do
  if n.val < (← get).variant.ports then
    wr .pwr (PWR.OSC_CAL_T n.val) count
    maskSet .pwr PWR.OSC_ERR_T n.val (!oscGood count)
    if !oscGood count then raise .pwr 3

/-- Oscillators 0 to 3 are the partitions', 4 the engine's, 5 and 6 the ports'. -/
def calibrateOp (osc : Fin 7) (count trim tj : Nat) : M Unit :=
  if h : osc.val < 4 then calPart ⟨osc.val, h⟩ count trim tj
  else if osc.val = 4 then calEngine count
  else calPort ⟨osc.val - 5, by omega⟩ count

/-! ### The rows -/

/-- EMG_LEVEL_RISE. -/
def execEmgLevelRise (level : Fin 4) (s : State) : Host.Outcome State Fault Refusal := fwNext (whileAwake (riseOp level.val)) s
/-- EMG_LEVEL_FALL. -/
def execEmgLevelFall (level : Fin 4) (s : State) : Host.Outcome State Fault Refusal := fwNext (whileAwake (fallOp level.val)) s
/-- PVREQ_WRITE. -/
def execPvreqWrite (p : PartId) (code : BitVec 6) (s : State) : Host.Outcome State Fault Refusal :=
  M.next (pageWrite .pwr (pvreqOp p code.toNat)) s
/-- SUPPLY_SETTLED. -/
def execSupplySettled (p : PartId) (s : State) : Host.Outcome State Fault Refusal := M.next (whileAwake (settledOp p)) s

/-- TILE_GATE_WRITE. -/
def execTileGateWrite (p : PartId) (bits : BitVec 12) (s : State) : Host.Outcome State Fault Refusal :=
  M.next (pageWrite .pwr (wr .pwr (PWR.TILE_GATE p.val) bits.toNat)) s

/-- TILE_GATE_APPLY: a dispatch that is due to the tile goes first. -/
def execTileGateApply (g : TileId) (s : State) : Host.Outcome State Fault Refusal :=
  M.next (whileAwake (do
    if gateBit s g && !pageGated s (.tile g .tl) && betweenJobs s g && !offered s g then gateTile g)) s

/-- TILE_WAKE: the tile's bit is clear, or a dispatch names it. -/
def execTileWake (g : TileId) (seed : BitVec 64) (s : State) : Host.Outcome State Fault Refusal :=
  M.next (whileAwake (do
    if pageGated s (.tile g .tl) && (!gateBit s g || offered s g) then wakeTile g seed)) s

/-- RATE_UPDATE (R453). -/
def execRateUpdate (p : PartId) (rate : BitVec 11) (s : State) : Host.Outcome State Fault Refusal :=
  M.next (whileAwake (wr .pwr (PWR.RATE p.val) rate.toNat)) s

/-- OSC_CALIBRATE. -/
def execOscCalibrate (osc : Fin 7) (count : BitVec 17) (trim tj : Byte) (s : State) : Host.Outcome State Fault Refusal :=
  fwNext (calibrateOp osc count.toNat trim.toNat tj.toNat) s

/-- PST_WAKE (R467): ignored in engine reset (R468). -/
def execPstWake (s : State) : Host.Outcome State Fault Refusal :=
  M.next (whileAwake (do
    wr .pwr PWR.WAKE_SEEN 1
    wr .pwr PWR.WAKE_PIN 1
    raise .pwr 2)) s

end Sys2Proof.Machine
end

