-- ==== Sys2Proof/Machine/Watch.lean ====
section
/-! DEFINITION. The deadlock watch: cycles, stalls and their declarations (R397 to R401), and the pair entries (R422,
R423). -/
namespace Sys2Proof.Machine

/-- A queue of the engine. -/
structure QueueAt where
  p : PartId
  q : Nat
  deriving DecidableEq, Repr

/-- Every queue in ascending (partition, queue) order. -/
def allQueues : List QueueAt := (List.finRange 4).flatMap fun p => (List.range 16).map fun q => ⟨p, q⟩

def QueueAt.num (k : QueueAt) : Nat := 16 * k.p.val + k.q

/-! ### Silent signalers (R398, R418) -/

/-- The queues that may signal a gate (R362, R366). -/
def signalQueues (p : PartId) (r : GateRef) (cfg : Nat) : List QueueAt :=
  allQueues.filter fun k => cfg.testBit k.q && (if r.global then cfg.testBit (16 + k.p.val) else k.p = p)

/-- The gate's allowance has run out; with ALLOW = 0 it never does. -/
def allowanceOut (x : Gate) : Bool := bitsAt x.cfg 32 32 ≠ 0 && bitsAt x.cfg 32 32 ≤ x.quiet

/-- A queue in ERROR while its partition replays is QUIET with its allowance run out (R418). -/
def errorInReplay (s : State) (k : QueueAt) : Bool :=
  partState s k.p = PState.replay && qr s k.p (QMG.Q_STATE k.q) = QState.error

/-- Every signaler of the gate is silent, with `qs` as the candidate set. A gate in its error state takes part in no cycle
(R399). -/
def onlySilent (s : State) (qs : List QueueAt) (p : PartId) (r : GateRef) : Bool :=
  let x := s.gate p r
  let out := allowanceOut x
  x.valid && !x.err && (out || !([20, 21, 22, 23].any x.cfg.testBit)) &&
    (signalQueues p r x.cfg).all fun k =>
      match waitState s k.p k.q with
      | .waiting => qs.contains k
      | .held => qs.contains k
      | .quiet => out || errorInReplay s k
      | .running => false

/-! ### Cycles (R399) -/

/-- The gates on which tiles of the queue's jobs wait. -/
def waitedGates (s : State) (k : QueueAt) : List GateRef :=
  ((liveJobs s k.p k.q).flatMap (jobOn s k.p)).filterMap fun g => (s.tile g).waitsOn

/-- The queues that must be in every set that holds `k`. -/
def mustHold (s : State) (k : QueueAt) : List QueueAt :=
  match waitState s k.p k.q with
  | .waiting => (waitedGates s k).flatMap fun r =>
      (signalQueues k.p r (s.gate k.p r).cfg).filter fun j => waitState s j.p j.q = .waiting || waitState s j.p j.q = .held
  | .held => (heldOn s k.p k.q).map fun q => ⟨k.p, q⟩
  | _ => []

/-- One round of the closure. -/
def widen (s : State) (qs : List QueueAt) : List QueueAt :=
  allQueues.filter fun k => qs.contains k || qs.any fun j => (mustHold s j).contains k

/-- The least set that holds `k` and what its members need. -/
def closure (s : State) (k : QueueAt) : List QueueAt := (List.range 64).foldl (fun qs _ => widen s qs) [k]

/-- The conditions of R399 hold for the set. A job all of whose tiles have ended completes at once (R373), so that a queue
is WAITING for CONFIRM_OC OC only where some tile of its waits on a gate (log entry 37). -/
def isCycle (s : State) (qs : List QueueAt) : Bool :=
  (qs.any fun k => waitState s k.p k.q = .waiting && waitedGates s k ≠ []) &&
    qs.all fun k =>
      match waitState s k.p k.q with
      | .waiting => (waitedGates s k).all (onlySilent s qs k.p)
      | .held => (heldOn s k.p k.q).all fun q => qs.contains ⟨k.p, q⟩
      | _ => false

/-- Every cycle: the sets that contain no smaller one, in ascending order of their lowest queue. -/
def cycles (s : State) : List (List QueueAt) :=
  let all := ((allQueues.map (closure s)).filter (isCycle s)).eraseDups
  all.filter fun c => !all.any fun d => d ≠ c && d.all c.contains

/-- The gates of a cycle as the GRAPH element lists them (R487). -/
def cycleGates (s : State) (qs : List QueueAt) : List Nat :=
  let gs := qs.flatMap fun k => (waitedGates s k).map fun r => (k.p, r)
  let parts := (List.finRange 4).flatMap fun p => (List.range 1024).filterMap fun i =>
    if gs.contains (p, ⟨i, false⟩) then some (i + p.val * 2 ^ 12) else none
  let globals := (List.range 256).filterMap fun i => if gs.any fun x => x.2 = ⟨i, true⟩ then some (i + 2 ^ 10) else none
  parts ++ globals

/-- What a declaration does to a partition that it names (R401, R419). -/
def declareAt (p : PartId) (cause : Nat) (graph : Graph) : M Unit := do
  let s ← get
  if partState s p = PState.replay then
    if cause = Cause.cycle then replayCycle p else replayReset p cause graph
  else if s.reg .dlw DLW.AUTO_RESET = 1 then trigger p cause graph

/-- The partition is where a declaration has effect: RUN or REPLAY. -/
def declarable (s : State) (p : PartId) : Bool := partState s p = PState.run || partState s p = PState.replay

/-- A cycle is declared. -/
def declareCycle (graph : Graph) (ps : List PartId) : M Unit := do
  cnt .dlw DLW.HANG_CNT 1
  wr .dlw DLW.CYC_QMASK graph.who
  let s ← get
  if ps.all (declarable s) then
    raise .dlw 0
    forAll ps fun p => declareAt p Cause.cycle graph
  else
    match ps.find? fun p => !declarable s p with
    | some p => ignored p Cause.cycle
    | none => pure ()

/-- CYCLE_DECLARE (R399, R401): the cycles that the watch finds have held for CONFIRM_OC OC. -/
def execCycleDeclare (s : State) : Host.Outcome State Fault Refusal :=
  fwNext (do
    if s.reg .dlw DLW.EN = 1 then
      forAll (cycles s) fun qs =>
        let ps := (List.finRange 4).filter fun p => qs.any fun k => k.p = p && waitState s k.p k.q = .waiting
        declareCycle ⟨1, qs.foldl (fun m k => m + 2 ^ k.num) 0, cycleGates s qs, 0⟩ ps) s

/-- STALL_DECLARE (R400, R401): the tile has made no progress for STALL_TMO OC. -/
def execStallDeclare (g : TileId) (s : State) : Host.Outcome State Fault Refusal :=
  fwNext (do
    let t := tlState s g
    let p := partOf g
    if s.reg .dlw DLW.EN = 1 && (t = TlState.run || t = TlState.stopping || t = TlState.fenceWait) then
      cnt .dlw DLW.STALL_CNT 1
      if declarable s p then
        raise .dlw 1
        declareAt p Cause.stall ⟨2, localOf g + p.val * 16, [], (s.tile g).progress⟩
      else ignored p Cause.stall) s

/-! ### Pair entries (R422, R423, R429) -/

/-- The fields of entry `k` take the bits of a written value. -/
def pairFields (k v : Nat) : M Unit :=
  forAll [DLW.A_PART k, DLW.A_QUEUE k, DLW.B_PART k, DLW.B_QUEUE k, DLW.PEN k, DLW.CRIT k] fun f =>
    wr .dlw f (bitsAt v f.lo f.width)

/-- A write to pair entry `k`. -/
def pairWriteOp (k v : Nat) : M Unit := do
  let s ← get
  let pen := bitAt v 12
  if s.reg .dlw (DLW.STATUS k) ≠ Pair.none_ then
    if !pen then
      pairFields k v
      setPair k Pair.none_ false
  else if pen && bitsAt v 0 2 = bitsAt v 6 2 then pure ()
  else
    pairFields k v
    if pen then
      let up (n : Nat) : Bool := s.reg .dlw (DLW.STATE n) = PState.run
      let a := up (bitsAt v 0 2)
      let b := up (bitsAt v 6 2)
      if a && b then setPair k Pair.dual false
      else if a then setPair k Pair.singleA true
      else if b then setPair k Pair.singleB true
      else setPair k Pair.down false

/-- PAIR_ENTRY_WRITE. -/
def execPairEntryWrite (k : Fin 8) (value : BitVec 64) (s : State) : Host.Outcome State Fault Refusal :=
  fwNext (pageWrite .dlw (pairWriteOp k.val value.toNat)) s

end Sys2Proof.Machine
end

