-- ==== Sys2Proof/Machine/RegRows.lean ====
section
/-! DEFINITION. Writes to the register window: the access types of R20, and the registers whose write has an effect of
its own (R15 to R20, R154, R223, R377, R472, R475, R480). -/
namespace Sys2Proof.Machine

/-! ### Fields (R20) -/

/-- `old` with the bits that `keep` does not name taken from `new`, in `n` bits. -/
def mixBits (n old new mask : Nat) : Nat := (old &&& (2 ^ n - 1 - mask)) ||| (new &&& mask)

/-- A software write of value `v` under mask `m`, both as the register has its bits, to one field. -/
def writeField (i : PageId) (f : Fld) (v m : Nat) : M Unit := do
  let k := bitsAt m f.lo f.width
  let w := bitsAt v f.lo f.width
  match f.acc with
  | .rw => wr i f (mixBits f.width (← rd i f) w k)
  | .rws => wr i f (mixBits f.width (← rd i f) w k)
  | .w1c => wr i f ((← rd i f) &&& (2 ^ f.width - 1 - (w &&& k)))
  | .ro => pure ()
  | .wo => pure ()
  | .rc => pure ()

/-- A write to the register at offset `off` of a page, by the access types of its fields; a reserved offset has none (R19). -/
def writeFields (i : PageId) (off v m : Nat) : M Unit :=
  forAll (i.fields.filter fun f => f.off = off) fun f => writeField i f v m

/-- The bits that IRQ_STAT of a page defines (R222, R284, R285, R315, R359, R395, R396, R429, R449, R471, R478). -/
def PageId.irqBits : PageId → Nat
  | .eng => 0x3
  | .dlw => 0xFF
  | .link n => if n = 0 then 0x7F else 0xF
  | .sec => 0x1
  | .pwr => 0xF
  | .pctl _ => 0x70F
  | .qmg _ => 0x7FFFF
  | .mc _ _ => 0x7
  | .tile _ .tl => 0x3
  | .tile _ .spd => 0x7
  | .tile _ .lft => 0x3
  | .peer _ => 0
  | .tile _ _ => 0

/-- IRQ_FORCE: reserved bits stay 0 (R18, R472). -/
def forceIrq (i : PageId) (bits : Nat) : M Unit := do
  wr i HDR.IRQ_STAT ((← rd i HDR.IRQ_STAT) ||| (bits &&& i.irqBits))

/-! ### Registers with an effect of their own -/

/-- ACC_ROW_RESET (R154). -/
def rowResetOp (g : TileId) (v : Nat) : M Unit := do
  let b := bitsAt v 17 1
  let first := bitsAt v 0 8
  if (← getTile g).bufState b ≠ 0 then wr (.tile g .acc) ACC.ACC_ACCESS_ERR 1
  else
    let rows := (List.range (min (bitsAt v 8 9) (256 - first))).map fun k => first + k
    modTile g fun t => t.setAcc b (rows.foldl (fun x r => x.setRow r { RowState.clear with s := bitsAt v 18 4 }) (t.acc b))

/-- A W1C write to word `w` of SAT_MAP or LONGK_MAP of buffer `b` (R154). -/
def rowMapWrite (g : TileId) (b w : Nat) (sat : Bool) (v : Nat) : M Unit :=
  modTile g fun t =>
    t.setAcc b (((List.range 32).filter v.testBit).foldl (fun x i =>
      let r := 32 * w + i
      x.setRow r (if sat then { x.row r with sat := false } else { x.row r with longK := false })) (t.acc b))

/-- INJ_ARM (R223). -/
def injOp (g : TileId) (v : Nat) : M Unit := do
  if v.testBit 7 then modTile g fun t => { t with arr := { t.arr with inject := some (bitsAt v 0 7) } }

/-- Word `w` of a key; a key of which a word has been written has sealed no frame (R326, R336). -/
def keyWord (n : PortId) (next : Bool) (w v : Nat) : M Unit :=
  modPort n fun x =>
    if next then { x with keyNext := BitVec.ofNat 128 (setBits x.keyNext.toNat (32 * w) 32 v), sealedNext := false }
    else { x with keyCur := BitVec.ofNat 128 (setBits x.keyCur.toNat (32 * w) 32 v), sealed := false }

/-- Bytes that the security block reads in system memory, which the model does not hold (log entry 4). -/
def mailboxBytes : M (List Byte) := do
  let n ← freshNum
  let len ← rd .sec SEC.MB_LEN
  return (List.range len).map (Config.freeByte n)

/-- A write to MB_OP starts the command (R449). -/
def mailboxOp (op : Nat) : M Unit := do
  if op = 1 then mbInstall (← mailboxBytes)
  else if op = 2 then commitOp
  else if op = 3 then revokeOp (← mailboxBytes)
  else if op = 4 then lcSecureOp (← mailboxBytes)
  else if op = 5 then lcReturnOp (← mailboxBytes)
  else if op = 6 then lcVoidOp (← mailboxBytes)
  else mbStart true (return if op = 7 then Err.none else Err.fwCmd)

def writeDlw (cls : SrcClass) (off v m : Nat) : M Unit :=
  if off = 0x070 then presetOp (v % 16) (if cls = SrcClass.fw then Cause.firmware else Cause.host)
  else if off = 0x07C then dumpRelOp (v % 16)
  else if 0x100 ≤ off && off < 0x140 then (if m % 2 = 1 then pairWriteOp ((off - 0x100) / 8) v else pure ())
  else writeFields .dlw off v m

def writeLink (n : PortId) (off v m : Nat) : M Unit := do
  if off = 0x040 then linkCtrlWrite n v
  else if 0x060 ≤ off && off < 0x070 then keyWord n false ((off - 0x060) / 4) v
  else if 0x070 ≤ off && off < 0x080 then keyWord n true ((off - 0x070) / 4) v
  else
    writeFields (.link n) off v m
    if off = 0x05C && v.testBit 17 then keySwapOp n
    if off = 0x0B0 && v.testBit 63 then lapmapGoOp n

def writePeer (n : PortId) (off v m : Nat) : M Unit := do
  writeFields (.peer n) off v m
  if h : n = 0 ∧ 0x140 ≤ off ∧ off < 0x180 then
    if off % 16 = 8 then xferPump ⟨(off - 0x140) / 16, by omega⟩
  if n = 0 ∧ 0x400 ≤ off ∧ off < 0x800 ∧ off % 32 = 0 then
    if v.testBit 24 then winArmOp ((off - 0x400) / 32)
    if v.testBit 25 then winLeave ((off - 0x400) / 32) 0

/-- Only the HOST and FW classes write the mailbox (R449). -/
def writeSec (cls : SrcClass) (off v m : Nat) : M Unit := do
  let mailbox := 0x070 ≤ off && off < 0x088
  if !mailbox then writeFields .sec off v m
  else if cls = SrcClass.host || cls = SrcClass.fw then
    if off = 0x070 then mailboxOp (v % 256) else writeFields .sec off v m

def writePwr (off v m : Nat) : M Unit := do
  if h : 0x050 ≤ off ∧ off < 0x060 then pvreqOp ⟨(off - 0x050) / 4, by omega⟩ (v % 64)
  else if off = 0x0C0 then alertChange (writeFields .pwr off v m)
  else
    writeFields .pwr off v m
    if off = 0x044 then driveSupplies

def writePctl (p : PartId) (off v m : Nat) : M Unit := do
  if off = 0x060 then hbWriteOp p v
  else if off = 0x07C then fcDoorbellOp p v
  else if off = 0x098 then frTailOp p v
  else if off = 0x0C0 then trTailOp p v
  else
    writeFields (.pctl p) off v m
    if off = 0x064 then
      if (← rd (.pctl p) PCTL.HB_TMO) ≤ (← rd (.pctl p) PCTL.HB_AGE) then hbExpireOp p

/-- The gate operation that a GT_OP word names (R367). -/
def gateOpOf (p : PartId) (r : GateRef) (op : Nat) : M Nat := do
  let s ← get
  match op with
  | 1 => gateCreate p r (fwArg s p) (fwArg2 s p)
  | 2 => gateDestroy p r
  | 3 => gateSet p r (fwArg s p)
  | 4 => gateClrErr p r
  | _ => gateSetErr p r

/-- GT_SIGNAL is a 64-bit register: a write of its upper half alone names no gate, and which it signals is open; its lower
half alone holds no increment. -/
def gtSignalWrite (p : PartId) (cls : SrcClass) (v m : Nat) : M Unit := do
  if m % 2 = 1 then gtSignalOp p cls ⟨bitsAt v 0 10, v.testBit 10⟩ (bitsAt v 32 32)
  else
    let n ← freshNum
    gtSignalOp p cls ⟨Config.freeAt n 0 % 1024, Config.freeAt n 1 % 2 = 1⟩ (bitsAt v 32 32)

/-- The chain fields of the registers of a queue at +0x2C, +0x30 and +0x3C. -/
def chainFields (r : Nat) : List Nat := if r = 0x2C then [1, 2, 3] else if r = 0x30 then [4] else [5]

/-- The value that a chain field will have once the writes that are held for it have taken effect. -/
def chainWord (s : State) (p : PartId) (q k : Nat) : Nat :=
  match ((s.part p).chainWrites.filter fun w => w.queue = q && w.field = k).getLast? with
  | some w => w.value
  | none => qr s p (chainFld q k)

/-- A write to a queue's register at `+r` (R369, R376, R377): while the queue is enabled its ring registers are kept, but for
what the FW class writes to its standing chain. Of the word at +0x08 only Q_EN and Q_PRIO are no ring register. -/
def queueWrite (p : PartId) (cls : SrcClass) (q r v m : Nat) : M Unit := do
  let pg : PageId := .qmg p
  let en := (← rd pg (QMG.Q_EN q)) = 1
  let merged (k : Nat) : M Nat := do
    let f := chainFld q k
    return mixBits f.width (chainWord (← get) p q k) (bitsAt v f.lo f.width) (bitsAt m f.lo f.width)
  if r = 0x0C then doorbellOp p q v
  else if r = 0x24 then crTailOp p q v
  else if r = 0x08 then
    if en && cls = SrcClass.fw then chainWrite p ⟨q, 0, bitsAt v 8 1⟩
    else
      if en then wr pg (QMG.CFG_ERR q) 1
      else
        wr pg (QMG.Q_LOG2 q) (bitsAt v 0 5)
        chainSet p ⟨q, 0, bitsAt v 8 1⟩
      wr pg (QMG.Q_PRIO q) (bitsAt v 6 2)
      enableOp p q (v.testBit 5)
  else if r = 0x2C || r = 0x30 || r = 0x3C then
    if en && cls ≠ SrcClass.fw then wr pg (QMG.CFG_ERR q) 1
    else forAll (chainFields r) fun k => do
      let w : ChainWrite := ⟨q, k, ← merged k⟩
      if en then chainWrite p w else chainSet p w
  else if en && (r = 0x00 || r = 0x18 || r = 0x20) then wr pg (QMG.CFG_ERR q) 1
  else writeFields pg (0x100 + 0x40 * q + r) v m

def writeQmg (p : PartId) (cls : SrcClass) (off v m : Nat) : M Unit := do
  if off = 0x040 then gtSignalWrite p cls v m
  else if off = 0x060 then
    let op := bitsAt v 12 3
    if cls ≠ SrcClass.fw || (1 ≤ op && op ≤ 5) then gateOp p cls (gateOpOf p ⟨bitsAt v 0 10, v.testBit 10⟩ op)
  else if off = 0x048 || off = 0x068 || off = 0x070 then
    match classBank cls with
    | some b => writeFields (.qmg p) (off + 0x1000 * b) v m
    | none => pure ()
  else if 0x100 ≤ off && off < 0x500 then queueWrite p cls ((off - 0x100) / 0x40) ((off - 0x100) % 0x40) v m
  else writeFields (.qmg p) off v m

def writeTile (g : TileId) (k : TPage) (off v m : Nat) : M Unit := do
  let pg : PageId := .tile g k
  match k with
  | .acc =>
    if off = 0x050 then rowResetOp g v
    else if 0x100 ≤ off && off < 0x180 then
      rowMapWrite g ((off - 0x100) / 32 % 2) ((off - 0x100) % 32 / 4) (off < 0x140) v
    else writeFields pg off v m
  | .cnv => if off = 0x06C then snapOp g v else writeFields pg off v m
  | .lut => if off = 0x064 then injOp g v else writeFields pg off v m
  | .lft =>
    if off = 0x054 then
      if v.testBit 0 then startListOp g
      if v.testBit 1 then abortListOp g
    else writeFields pg off v m
  | _ => writeFields pg off v m

/-- A write to the register at offset `off` of a page; the header's registers first (R472). -/
def writeReg (i : PageId) (cls : SrcClass) (off v m : Nat) : M Unit := do
  if off = 0x01C then forceIrq i v
  else if off = 0x028 then
    if v.testBit 0 then modify fun s => s.setBank i (revertBank i (s.bank i))
  else if off < 0x040 then
    writeFields i off v m
    if off = 0x00C && v.testBit 8 then clearRc i i.counters
  else
    match i with
    | .dlw => writeDlw cls off v m
    | .link n => writeLink n off v m
    | .peer n => writePeer n off v m
    | .sec => writeSec cls off v m
    | .pwr => writePwr off v m
    | .pctl p => writePctl p off v m
    | .qmg p => writeQmg p cls off v m
    | .tile g k => writeTile g k off v m
    | .eng => writeFields .eng off v m
    | .mc _ _ => writeFields i off v m

/-! ### The window (R15 to R19) -/

/-- A 64-bit register begins at offset `off`. -/
def wideAt (i : PageId) (off : Nat) : Bool := i.fields.any fun f => f.wide && f.off = off

/-- A 32-bit write. -/
def write32 (i : PageId) (cls : SrcClass) (off v : Nat) : M Unit :=
  if off % 8 = 4 && wideAt i (off - 4) then writeReg i cls (off - 4) (v % 2 ^ 32 * 2 ^ 32) ((2 ^ 32 - 1) * 2 ^ 32)
  else writeReg i cls off (v % 2 ^ 32) (2 ^ 32 - 1)

/-- A 32-bit or 64-bit write to a page: one action on a 64-bit register, else word by word (R16, R17). -/
def pageStore (i : PageId) (cls : SrcClass) (off size v : Nat) : M Unit := do
  if size = 8 then
    if wideAt i off then pageWrite i (writeReg i cls off v (2 ^ 64 - 1))
    else
      pageWrite i (write32 i cls off v)
      pageWrite i (write32 i cls (off + 4) (v / 2 ^ 32))
  else pageWrite i (write32 i cls off v)

/-- A write to the register window. -/
def windowWrite (addr size v : Nat) (cls : SrcClass) : M Unit := do
  if !wellSized addr size then respondDecode
  else if viaDebug cls && !debugReaches (← get) cls (fittedPage (← get) (addr / 0x1000)) then respondLocked 0
  else
    match apertureAt addr with
    | some (p, x) => apertureOp p x (.write (leBytes size v))
    | none =>
      match fittedPage (← get) (addr / 0x1000) with
      | none => pure ()
      | some i => pageStore i cls (addr % 0x1000) size v
      modify fun s => { s with resp := ⟨Err.none, [], false⟩ }

/-! ### The rows -/

/-- ACC_ROW_RESET (R154). -/
def execAccRowReset (g : TileId) (value : BitVec 32) (s : State) : Host.Outcome State Fault Refusal :=
  M.next (pageWrite (.tile g .acc) (rowResetOp g value.toNat)) s
/-- INJ_ARM (R223). -/
def execInjArm (g : TileId) (value : BitVec 32) (s : State) : Host.Outcome State Fault Refusal :=
  M.next (pageWrite (.tile g .lut) (injOp g value.toNat)) s
/-- IRQ_FORCE (R475). -/
def execIrqForce (page : Nat) (bits : BitVec 32) (s : State) : Host.Outcome State Fault Refusal :=
  M.next (onPage page fun i => forceIrq i bits.toNat) s
/-- REGISTER_WRITE (R15 to R21). -/
def execRegisterWrite (addr size : Nat) (value : BitVec 64) (cls : SrcClass) (s : State) :
    Host.Outcome State Fault Refusal :=
  fwNext (windowWrite addr size value.toNat cls) s

end Sys2Proof.Machine
end

