-- ==== Sys2Proof/Machine/Update.lean ====
section
/-! DEFINITION. UPDATE: the update descriptor's latch, codebook mapping and the step of one element (R181, R182, R205,
R206, R238 to R247). -/
namespace Sys2Proof.Machine

/-! ### Codebook mapping (R181, R182) -/

/-- Of two (index, entry) pairs the one that nearest mapping of `v` prefers; the first has the lower index. -/
def nearerOf (v : Frac) (a b : Nat × Int) : Nat × Int :=
  let da := (v.sub (.ofInt a.2)).abs
  let db := (v.sub (.ofInt b.2)).abs
  if db.lt da then b
  else if da.lt db then a
  else if b.2.natAbs < a.2.natAbs then b else a

/-- Nearest mapping of `v`: the index, and whether `v` lies beyond the end entries (R181). -/
def nearestMap (es : List Int) (v : Frac) : Nat × Bool :=
  match es.zipIdx.map fun e => (e.2, e.1) with
  | [] => (0, false)
  | x :: t =>
    (((t.foldl (nearerOf v) x)).1, es.all (fun e => (Frac.ofInt e).lt v) || es.all (fun e => v.lt (.ofInt e)))

/-- Stochastic mapping of `v` with dither field `d` (R182). -/
def stochMap (es : List Int) (v : Frac) (d : Nat) : Nat × Bool :=
  let lo := es.filter fun e => (Frac.ofInt e).lt v
  let hi := es.filter fun e => v.lt (.ofInt e)
  if lo.length + hi.length < es.length then nearestMap es v
  else
    match lo, hi with
    | a :: la, b :: lb =>
      let a := la.foldl max a
      let b := lb.foldl min b
      let up := (Frac.ofInt (d * (b - a))).lt ((v.sub (.ofInt a)).mul (.ofInt 65536))
      let x := if up then b else a
      (es.findIdx (· = x), false)
    | _, _ => nearestMap es v

/-- The mapping that TL_DITHER.MODE selects (R245). -/
def mapEntry (stoch : Bool) (es : List Int) (v : Frac) (d : Nat) : Nat × Bool :=
  if stoch then stochMap es v d else nearestMap es v

/-! ### Elements (R243) -/

/-- One past the last element number. -/
def updTotal (c : CmdWord) (d : Nat) : Nat := if updTgt c = 0 then 128 * bkCount c else 128 + Upd.pch d

/-- Element number `e` names an element. A book without a tag has no component bytes (log entry 12). -/
def updHas (t : Tile) (c : CmdWord) (d e : Nat) : Bool :=
  if updTgt c = 0 then
    match t.books.tags.look (bkBook c + e / 128) with
    | some f => e % 128 < bookBytes f
    | none => false
  else e % 128 < Upd.pch d

/-- The first element at or after `e`. -/
def updNext (t : Tile) (c : CmdWord) (d e : Nat) : Option Nat :=
  ((List.range (updTotal c d)).drop e).find? (updHas t c d)

/-- An element's place: gradient row and lane, whether the units of the B row apply, and its range (R243). -/
structure UpdPlace where
  row : Nat
  lane : Nat
  bias : Bool
  lo : Int
  hi : Int
  deriving DecidableEq, Repr

def updPlace (t : Tile) (c : CmdWord) (d e : Nat) : UpdPlace :=
  if updTgt c = 0 then
    if t.books.tags.look (bkBook c + e / 128) = some 0xA then ⟨Upd.grow d + e / 128, e % 128, false, -64, 63⟩
    else ⟨Upd.grow d + e / 128, e % 128, false, -128, 127⟩
  else if e < 128 then ⟨Upd.grow d, e, false, -32768, 32767⟩
  else ⟨Upd.grow d + 1, e - 128, true, -2147483648, 2147483647⟩

/-- The byte address of a trained field of a channel parameter record, and its bytes (R163). -/
def updParamAt (d e : Nat) : Nat × Nat :=
  if e < 128 then (Upd.param d + 8 * e, 2) else (Upd.param d + 8 * (e - 128) + 4, 4)

/-- The parameter of element `e`. -/
def updRead (g : TileId) (c : CmdWord) (d e : Nat) : M Int := do
  if updTgt c = 0 then return sext 8 ((← getTile g).books.mem.get (128 * bkBook c + e)).toNat
  else
    let x := updParamAt d e
    return sext (8 * x.2) (← (ownReq g 1 0).readNat x.1 x.2)

/-- The parameter of element `e` becomes `p`; a book keeps its tag (R79). -/
def updWrite (g : TileId) (c : CmdWord) (d e : Nat) (p : Int) : M Unit := do
  if updTgt c = 0 then
    modTile g fun t => { t with books := { t.books with
      mem := t.books.mem.set (128 * bkBook c + e) (BitVec.ofNat 8 (uns 8 p)) } }
  else
    let x := updParamAt d e
    (ownReq g 1 0).write x.1 (leBytes x.2 (uns (8 * x.2) p))

/-! ### The step (R244, R245) -/

/-- The moments of one element, in units of their books' entries: stage 2 of R244. -/
def updMoments (d : Nat) (bias : Bool) (m v : Int) (entry : Int) (s : Nat) : Frac × Frac :=
  let g := (Frac.ofInt (entry * 2 ^ s)).mul (unitVal (if bias then Upd.gunitB d else Upd.gunit d))
  let mix (beta : Nat) (old x : Frac) : Frac :=
    ((⟨beta, 65536⟩ : Frac).mul old).add ((⟨65536 - beta, 65536⟩ : Frac).mul x)
  (mix (Upd.beta1 d) (.ofInt m) (g.div (unitVal (Upd.m1unit d))),
   mix (Upd.beta2 d) (.ofInt v) ((g.mul g).div (unitVal (Upd.m2unit d))))

/-- Δ of stage 4. -/
def updDelta (d : Nat) (bias : Bool) (m r : Int) : Frac :=
  (unitVal (if bias then Upd.lrB d else Upd.lr d)).mul
    (((Frac.ofInt m).mul (unitVal (Upd.m1unit d))).mul ((Frac.ofInt r).mul (unitVal (Upd.runit d))))

/-- p′ of stage 5 before its clamp. -/
def updStepped (stoch : Bool) (p : Int) (delta : Frac) (field : Nat) : Int :=
  let x := (Frac.ofInt p).sub delta
  if stoch then (x.add ⟨field, 65536⟩).floor else x.nearest

/-- UPDATE carries out element `e` (R244 to R246). -/
def updElem (g : TileId) (c : CmdWord) (run : ArrayRun) (e : Nat) : M Unit := do
  let d := run.desc
  let t ← getTile g
  let k := updPlace t c d e
  let buf := t.acc (Upd.buf d)
  let row := buf.row k.row
  let stoch := (← rd (.tile g .tl) TL.MODE.active) = 0
  let ws := drawWords (if stoch then 1 else 0) t.dither
  let field (i : Nat) : Nat := bitsAt (ws.1.getD 0 0).toNat (16 * i) 16
  if row.sat || row.sMix then
    modTile g fun t => { t with dither := ws.2 }
    cnt (.tile g .dbg) DBG.UPD_SKIP 1
    flagHead g .array ((if row.sat then CFlag.accSat else 0) + (if row.sMix then CFlag.sMix else 0))
  else
    let r := ownReq g 1 0
    let c1 ← r.readNat (Upd.m1code d + e) 1
    let c2 ← r.readNat (Upd.m2code d + e) 1
    let es1 := (leWords run.m1).map (sext 32)
    let es2 := (leWords (run.m2.take 1024)).map Int.ofNat
    let rec_ := (leWords (run.m2.drop 1024)).map Int.ofNat
    let (m, v) := updMoments d k.bias (es1.getD c1 0) (es2.getD c2 0) (buf.entry k.row k.lane) row.s
    let (n1, clip1) := mapEntry stoch es1 m (field 0)
    let (n2, clip2) := mapEntry stoch es2 v (field 1)
    let p ← updRead g c d e
    let raw := updStepped stoch p (updDelta d k.bias (es1.getD n1 0) (rec_.getD n2 0)) (field 2)
    modTile g fun t => { t with dither := ws.2 }
    cnt (.tile g .dbg) DBG.MOM_CLIPS (b2n clip1 + b2n clip2)
    if raw < k.lo || k.hi < raw then cnt (.tile g .dbg) DBG.PAR_CLAMP 1
    r.write (Upd.m1code d + e) [BitVec.ofNat 8 n1]
    r.write (Upd.m2code d + e) [BitVec.ofNat 8 n2]
    updWrite g c d e (clampI k.lo k.hi raw)
    cnt (.tile g .dbg) DBG.UPD_ELEMS 1

/-! ### The command -/

/-- UPDATE starts once its hold has released it: descriptor and moment books are latched (R241, R242). It reads no book
before every earlier BOOK has completed (R191). A descriptor that was changed since the release may name the other buffer;
UPDATE then waits for that one. -/
def updBegin (g : TileId) : M Unit := do
  let t ← getTile g
  match t.head .array with
  | none => pure ()
  | some c =>
    if c.op ≠ Op.update || !c.released || t.units.arrayRun.isSome || booksPending t c then pure ()
    else
      let r := ownReq g 1 0
      let d ← r.readNat (udescOf c.bits) 64
      if updBad c.bits d then fail Err.cmdField
      let m1 ← r.read (Upd.m1book d) 1024
      let m2 ← r.read (Upd.m2book d) 2048
      let z : Pos := ⟨0, 0, 0, 0⟩
      modUnits g fun u => { u with arrayRun := some ⟨d, 0, m1, m2, z, z, none, [], [], [], none, [], 0, 0, []⟩ }
      modHead g .array fun c => { c with begun := true, bufs := [Upd.buf d], released := c.bufs = [Upd.buf d] }
      settleUnits g

/-- The next element of an UPDATE that its buffer's hold has released; after the last one UPDATE completes. -/
def updAdvance (g : TileId) : M Unit := do
  match ← arrayHead g with
  | none => pure ()
  | some (c, run) =>
    if c.op ≠ Op.update || !c.released then pure ()
    else
      let t ← getTile g
      match updNext t c.bits run.desc run.elem with
      | none => finishHead g .array
      | some e =>
        updElem g c.bits run e
        modRun g fun r => { r with elem := e + 1 }
        if (updNext (← getTile g) c.bits run.desc (e + 1)).isNone then finishHead g .array

/-- One micro-operation of UPDATE. -/
def updOp (g : TileId) : M Unit := do
  unitStep g .array (updBegin g)
  unitStep g .array (updAdvance g)

/-- UPDATE (R241): it is accepted, started and carried through as far as it can be. -/
def execUpdate (g : TileId) (s : State) : Host.Outcome State Fault Refusal :=
  M.next (do
    acceptFor g Op.update .array
    match (← getTile g).head .array with
    | some c =>
      if c.op = Op.update then
        repeatM 8200 (do
          updOp g
          return ((← getTile g).head .array).any fun x => x.num = c.num)
    | none => pure ()) s

/-- UPDATE_ELEMENT (R244). -/
def execUpdateElement (g : TileId) (s : State) : Host.Outcome State Fault Refusal := M.next (updOp g) s

end Sys2Proof.Machine
end

