-- ==== Sys2Proof/Machine/Dispatch.lean ====
section
/-! DEFINITION. Which meaning belongs to which command: one arm per constructor. -/
namespace Sys2Proof.Machine

def exec (i : Instr) (s : State) : Host.Outcome State Fault Refusal :=
  match i with
  | .commandFetch g => Sys2Proof.Machine.execCommandFetch g s
  | .commandAccept g => Sys2Proof.Machine.execCommandAccept g s
  | .nop g => Sys2Proof.Machine.execNop g s
  | .sweep g => Sys2Proof.Machine.execSweep g s
  | .direct g => Sys2Proof.Machine.execDirect g s
  | .drain g => Sys2Proof.Machine.execDrain g s
  | .book g => Sys2Proof.Machine.execBook g s
  | .move g => Sys2Proof.Machine.execMove g s
  | .atomic g => Sys2Proof.Machine.execAtomic g s
  | .bin g => Sys2Proof.Machine.execBin g s
  | .update g => Sys2Proof.Machine.execUpdate g s
  | .gateWait g => Sys2Proof.Machine.execGateWait g s
  | .gateSignal g => Sys2Proof.Machine.execGateSignal g s
  | .fence g => Sys2Proof.Machine.execFence g s
  | .mark g => Sys2Proof.Machine.execMark g s
  | .stat g => Sys2Proof.Machine.execStat g s
  | .listEnd g => Sys2Proof.Machine.execListEnd g s
  | .windowLoad g => Sys2Proof.Machine.execWindowLoad g s
  | .buildTables g => Sys2Proof.Machine.execBuildTables g s
  | .runStep g ups => Sys2Proof.Machine.execRunStep g ups s
  | .directStep g ups => Sys2Proof.Machine.execDirectStep g ups s
  | .residueRetry g ups => Sys2Proof.Machine.execResidueRetry g ups s
  | .promotion g => Sys2Proof.Machine.execPromotion g s
  | .accHoldRelease g => Sys2Proof.Machine.execAccHoldRelease g s
  | .drainRow g => Sys2Proof.Machine.execDrainRow g s
  | .historyReply g => Sys2Proof.Machine.execHistoryReply g s
  | .binStep g ups => Sys2Proof.Machine.execBinStep g ups s
  | .updateElement g => Sys2Proof.Machine.execUpdateElement g s
  | .bookWriteRelease g => Sys2Proof.Machine.execBookWriteRelease g s
  | .lutWriteRelease g => Sys2Proof.Machine.execLutWriteRelease g s
  | .spdRead g src addr len rivals flips => Sys2Proof.Machine.execSpdRead g src addr len rivals flips s
  | .spdWrite g src addr bytes rivals flips => Sys2Proof.Machine.execSpdWrite g src addr bytes rivals flips s
  | .spdEccWriteback g flips => Sys2Proof.Machine.execSpdEccWriteback g flips s
  | .spdScrub g flips => Sys2Proof.Machine.execSpdScrub g flips s
  | .bankWakeDone g bank => Sys2Proof.Machine.execBankWakeDone g bank s
  | .peerAccess g cls src addr acc => Sys2Proof.Machine.execPeerAccess g cls src addr acc s
  | .apertureAccess p off size acc => Sys2Proof.Machine.execApertureAccess p off size acc s
  | .lftStart g => Sys2Proof.Machine.execLftStart g s
  | .lftAbort g => Sys2Proof.Machine.execLftAbort g s
  | .liftDescriptor g => Sys2Proof.Machine.execLiftDescriptor g s
  | .liftPiece g => Sys2Proof.Machine.execLiftPiece g s
  | .switchListRun g => Sys2Proof.Machine.execSwitchListRun g s
  | .mcRead p src off len flips again => Sys2Proof.Machine.execMcRead p src off len flips again s
  | .mcWrite p src off bytes flips again => Sys2Proof.Machine.execMcWrite p src off bytes flips again s
  | .mcAtomicAdd p src off adds => Sys2Proof.Machine.execMcAtomicAdd p src off adds s
  | .historyPush p off push => Sys2Proof.Machine.execHistoryPush p off push s
  | .historyMerge p off push => Sys2Proof.Machine.execHistoryMerge p off push s
  | .mergeEvict p c => Sys2Proof.Machine.execMergeEvict p c s
  | .mcScrub p c burst flips again => Sys2Proof.Machine.execMcScrub p c burst flips again s
  | .mr4Poll p c codes => Sys2Proof.Machine.execMr4Poll p c codes s
  | .wck2dqRetune p c => Sys2Proof.Machine.execWck2dqRetune p c s
  | .memTraining p c pass => Sys2Proof.Machine.execMemTraining p c pass s
  | .sysRequest accepted => Sys2Proof.Machine.execSysRequest accepted s
  | .sysReply id answer => Sys2Proof.Machine.execSysReply id answer s
  | .sysTimeout id => Sys2Proof.Machine.execSysTimeout id s
  | .sysGrantChange share => Sys2Proof.Machine.execSysGrantChange share s
  | .slotStart n inTime randSlot randWl => Sys2Proof.Machine.execSlotStart n inTime randSlot randWl s
  | .slotSilent n => Sys2Proof.Machine.execSlotSilent n s
  | .frameRx n burst => Sys2Proof.Machine.execFrameRx n burst s
  | .echoCheck n wl echo draw => Sys2Proof.Machine.execEchoCheck n wl echo draw s
  | .backoffExpiry n => Sys2Proof.Machine.execBackoffExpiry n s
  | .retransmit n stn => Sys2Proof.Machine.execRetransmit n stn s
  | .write n src msg => Sys2Proof.Machine.execWrite n src msg s
  | .writeAck n src msg => Sys2Proof.Machine.execWriteAck n src msg s
  | .read n src msg => Sys2Proof.Machine.execRead n src msg s
  | .readData n src msg => Sys2Proof.Machine.execReadData n src msg s
  | .atomAdd n src msg => Sys2Proof.Machine.execAtomAdd n src msg s
  | .gateSig n src msg => Sys2Proof.Machine.execGateSig n src msg s
  | .heartbeat n src msg => Sys2Proof.Machine.execHeartbeat n src msg s
  | .fenceMessage n src msg => Sys2Proof.Machine.execFenceMessage n src msg s
  | .join n src msg => Sys2Proof.Machine.execJoin n src msg s
  | .joinAck n src msg => Sys2Proof.Machine.execJoinAck n src msg s
  | .leave n src msg => Sys2Proof.Machine.execLeave n src msg s
  | .lapmap n src msg => Sys2Proof.Machine.execLapmap n src msg s
  | .lapmapAdopt n => Sys2Proof.Machine.execLapmapAdopt n s
  | .peerDown n stn => Sys2Proof.Machine.execPeerDown n stn s
  | .starDown n => Sys2Proof.Machine.execStarDown n s
  | .portEnable n value => Sys2Proof.Machine.execPortEnable n value s
  | .joinRequest n on => Sys2Proof.Machine.execJoinRequest n on s
  | .leaveRequest n => Sys2Proof.Machine.execLeaveRequest n s
  | .keySwap n => Sys2Proof.Machine.execKeySwap n s
  | .lapmapGo n => Sys2Proof.Machine.execLapmapGo n s
  | .xrHeadWrite p head => Sys2Proof.Machine.execXrHeadWrite p head s
  | .xferComplete p => Sys2Proof.Machine.execXferComplete p s
  | .xferTimeout p => Sys2Proof.Machine.execXferTimeout p s
  | .winArm w => Sys2Proof.Machine.execWinArm w s
  | .winDisarm w => Sys2Proof.Machine.execWinDisarm w s
  | .winComplete w => Sys2Proof.Machine.execWinComplete w s
  | .gtSignal p cls gate inc => Sys2Proof.Machine.execGtSignal p cls gate inc s
  | .create p cls gate => Sys2Proof.Machine.execCreate p cls gate s
  | .destroy p cls gate => Sys2Proof.Machine.execDestroy p cls gate s
  | .set p cls gate => Sys2Proof.Machine.execSet p cls gate s
  | .clrErr p cls gate => Sys2Proof.Machine.execClrErr p cls gate s
  | .setErr p cls gate => Sys2Proof.Machine.execSetErr p cls gate s
  | .doorbell p q value => Sys2Proof.Machine.execDoorbell p q value s
  | .queueEnable p q on => Sys2Proof.Machine.execQueueEnable p q on s
  | .jobDispatch p => Sys2Proof.Machine.execJobDispatch p s
  | .standingInstance p q => Sys2Proof.Machine.execStandingInstance p q s
  | .jobComplete p => Sys2Proof.Machine.execJobComplete p s
  | .crTailWrite p q value => Sys2Proof.Machine.execCrTailWrite p q value s
  | .trTailWrite p value => Sys2Proof.Machine.execTrTailWrite p value s
  | .boundaryDeclare p => Sys2Proof.Machine.execBoundaryDeclare p s
  | .swapRevert page => Sys2Proof.Machine.execSwapRevert page s
  | .fcDoorbell p value => Sys2Proof.Machine.execFcDoorbell p value s
  | .fwCommandFetch p => Sys2Proof.Machine.execFwCommandFetch p s
  | .loadModel p => Sys2Proof.Machine.execLoadModel p s
  | .unloadModel p => Sys2Proof.Machine.execUnloadModel p s
  | .switchModel p => Sys2Proof.Machine.execSwitchModel p s
  | .gateCreate p => Sys2Proof.Machine.execGateCreate p s
  | .gateDestroy p => Sys2Proof.Machine.execGateDestroy p s
  | .bindStanding p => Sys2Proof.Machine.execBindStanding p s
  | .unbindStanding p => Sys2Proof.Machine.execUnbindStanding p s
  | .attach p => Sys2Proof.Machine.execAttach p s
  | .fwActivate p => Sys2Proof.Machine.execFwActivate p s
  | .query p => Sys2Proof.Machine.execQuery p s
  | .hbWrite p value => Sys2Proof.Machine.execHbWrite p value s
  | .hbExpire p => Sys2Proof.Machine.execHbExpire p s
  | .orphan p => Sys2Proof.Machine.execOrphan p s
  | .cycleDeclare => Sys2Proof.Machine.execCycleDeclare s
  | .stallDeclare g => Sys2Proof.Machine.execStallDeclare g s
  | .preset bits => Sys2Proof.Machine.execPreset bits s
  | .pccWdogExpire p => Sys2Proof.Machine.execPccWdogExpire p s
  | .partitionFence p => Sys2Proof.Machine.execPartitionFence p s
  | .fenceDone p => Sys2Proof.Machine.execFenceDone p s
  | .fenceTimeout p => Sys2Proof.Machine.execFenceTimeout p s
  | .dumpElement p => Sys2Proof.Machine.execDumpElement p s
  | .elemTimeout p => Sys2Proof.Machine.execElemTimeout p s
  | .dumpRelease bits => Sys2Proof.Machine.execDumpRelease bits s
  | .partitionReset p => Sys2Proof.Machine.execPartitionReset p s
  | .retrainDone p => Sys2Proof.Machine.execRetrainDone p s
  | .restartDone p seeds => Sys2Proof.Machine.execRestartDone p seeds s
  | .resetBudgetExpire p => Sys2Proof.Machine.execResetBudgetExpire p s
  | .replaySuspect p => Sys2Proof.Machine.execReplaySuspect p s
  | .replayTimeout p => Sys2Proof.Machine.execReplayTimeout p s
  | .pairEntryWrite k value => Sys2Proof.Machine.execPairEntryWrite k value s
  | .engineReset => Sys2Proof.Machine.execEngineReset s
  | .coldBoot strap errA errB againA againB => Sys2Proof.Machine.execColdBoot strap errA errB againA againB s
  | .install package => Sys2Proof.Machine.execInstall package s
  | .commitSvn => Sys2Proof.Machine.execCommitSvn s
  | .revoke request => Sys2Proof.Machine.execRevoke request s
  | .lcSecure request => Sys2Proof.Machine.execLcSecure request s
  | .lcReturn token => Sys2Proof.Machine.execLcReturn token s
  | .lcVoid request => Sys2Proof.Machine.execLcVoid request s
  | .mbStatus => Sys2Proof.Machine.execMbStatus s
  | .hello frame => Sys2Proof.Machine.execHello frame s
  | .stage frame => Sys2Proof.Machine.execStage frame s
  | .rcvInstall frame => Sys2Proof.Machine.execRcvInstall frame s
  | .lcRequest frame => Sys2Proof.Machine.execLcRequest frame s
  | .reboot frame => Sys2Proof.Machine.execReboot frame s
  | .uartFrameTimeout => Sys2Proof.Machine.execUartFrameTimeout s
  | .emgLevelRise level => Sys2Proof.Machine.execEmgLevelRise level s
  | .emgLevelFall level => Sys2Proof.Machine.execEmgLevelFall level s
  | .pvreqWrite p code => Sys2Proof.Machine.execPvreqWrite p code s
  | .supplySettled p => Sys2Proof.Machine.execSupplySettled p s
  | .tileGateWrite p bits => Sys2Proof.Machine.execTileGateWrite p bits s
  | .tileGateApply g => Sys2Proof.Machine.execTileGateApply g s
  | .tileWake g seed => Sys2Proof.Machine.execTileWake g seed s
  | .rateUpdate p rate => Sys2Proof.Machine.execRateUpdate p rate s
  | .oscCalibrate osc count trim tj => Sys2Proof.Machine.execOscCalibrate osc count trim tj s
  | .pstWake => Sys2Proof.Machine.execPstWake s
  | .accRowReset g value => Sys2Proof.Machine.execAccRowReset g value s
  | .cnvStatSnap g value => Sys2Proof.Machine.execCnvStatSnap g value s
  | .injArm g value => Sys2Proof.Machine.execInjArm g value s
  | .cntClr page => Sys2Proof.Machine.execCntClr page s
  | .irqForce page bits => Sys2Proof.Machine.execIrqForce page bits s
  | .rcCounterRead addr size cls => Sys2Proof.Machine.execRcCounterRead addr size cls s
  | .registerWrite addr size value cls => Sys2Proof.Machine.execRegisterWrite addr size value cls s
  | .frTailWrite p value => Sys2Proof.Machine.execFrTailWrite p value s
  | .socFabricAccept => Sys2Proof.Machine.execSocFabricAccept s
  | .nak frame => Sys2Proof.Machine.execNak frame s

end Sys2Proof.Machine
end

