-- ==== Sys2Proof/Machine/Tick.lean ====
section
/-! DEFINITION. One oscillator period in which no command is waiting: the counters of time (R118, R154, R221, R275, R310,
R315, R343, R376, R388, R396, R398, R405, R454, R471). Which oscillator's period comes next is free, since no two are
synchronised (R454; DESIGN CHOICE, log entry 5); what time brings about, such as a timeout, is a command of its own. -/
namespace Sys2Proof.Machine

/-- The oscillator of a partition runs: it is calibrated within RESET, one whose calibration has failed does not count, and an
OFF partition has none (R455, R456). -/
def oscRuns (s : State) (p : PartId) : Bool :=
  partState s p ≠ PState.reset && partState s p ≠ PState.off && !(s.reg .pwr PWR.OSC_ERR_P).testBit p.val

/-- An unfinished descriptor of the tile's lift list signals gate `r` (R275). -/
def liftNames (s : State) (g : TileId) (r : GateRef) : Bool :=
  match (s.tile g).units.list with
  | none => false
  | some run => !(s.tile g).units.loading &&
    (List.range (s.reg (.tile g .lft) LFT.LIST_CNT)).any fun i =>
      run.idx ≤ i &&
        match listDesc g (listReq g 4) (s.reg (.tile g .lft) LFT.LIST_BASE) i s with
        | .ok d _ => LiftD.sig d && LiftD.gate d = r
        | .error _ _ => false

/-- The array stands ready but waits for its tables, those of a retry among them, or runs a direct-mode step (R113, R118). -/
def tableWait (t : Tile) : Bool :=
  match t.head .array, t.units.arrayRun with
  | some c, some r =>
    let ready := stepReady c.bits r
    (c.op = Op.sweep && (r.retry.isSome || ready && t.arr.ready = [])) || (c.op = Op.direct && (r.retry.isSome || ready))
  | _, _ => false

/-- A read of `n` bytes at tile address `a` by the array unit of tile `g` waits: at a waking bank of its own scratchpad or of
a peer's (R264), or at the system port, where its request has no answer yet (R308). -/
def readWaits (s : State) (g : TileId) (a n : Nat) : Bool :=
  (wordPieces a n).any fun p =>
    match targetOf s.variant g (a + p.1) with
    | some (.here .spd off) => bankStat s g (off / 2 ^ 18) = 3
    | some (.peer h .spd off) => bankStat s h (off / 2 ^ 18) = 3
    | some (.sys x) => s.eng.sys.reqs.any fun r => r.who = .tile g 0 && r.data.isNone && (r.addr, r.len) = sysSpan x p.2
    | _ => false

/-- The array waits for the window load of a SWEEP, a DIRECT or a BIN (R108, R118, R236). -/
def windowWait (s : State) (g : TileId) : Bool :=
  let t := s.tile g
  match t.head .array, t.units.arrayRun with
  | some c, some r =>
    fillsOp c.op && !r.pos.done (rowCount c.bits r) && r.retry.isNone && r.window ≠ some (r.pos.rb, r.pos.sc) &&
      readWaits s g (wstreamOf c.bits + 1024 * (r.pos.sc * pOf c.bits)) (1024 * stepsIn c.bits r.pos.sc)
  | _, _ => false

/-- The scheduler holds a request that it has not issued: a history operation, or a corrected write-back (R315). -/
def memBusy (s : State) (p : PartId) (c : Fin 2) : Bool :=
  ((s.part p).ctl c).fixups ≠ [] || (List.finRange 48).any fun g => histAt s g p c ≠ []

/-- A controller counts one OC, in which its scheduler issues the write-backs that waited. -/
def tickMem (p : PartId) (c : Fin 2) : M Unit := do
  if memBusy (← get) p c then cnt (.mc p c) MC.MC_BUSY_OC 1
  mcFlush p c none

/-- The history operations that a drain waits for grow older. -/
def DrainRun.older (r : DrainRun) : DrainRun := { r with hist := r.hist.map fun h => { h with age := h.age + 1 } }

/-- A tile counts one OC. -/
def tickTile (g : TileId) : M Unit := do
  let s ← get
  let t := s.tile g
  if tlState s g = TlState.gateWait then
    cnt (.tile g .tl) TL.TL_GWAIT_OC 1
    if (t.waitsOn.any (liftNames s g)) then cnt (.tile g .lft) LFT.LFT_WAIT 1
  if tlState s g = TlState.fenceWait then cnt (.tile g .tl) TL.TL_FENCE_OC 1
  if t.hold 0 || t.hold 1 then cnt (.tile g .acc) ACC.ACC_HOLD_OC 1
  if tableWait t then cnt (.tile g .lut) LUT.TBL_BUSY 1
  if windowWait s g then cnt (.tile g .lut) LUT.WIN_WAIT 1
  if histWaits t then modUnits g fun u => { u with drain := u.drain.map DrainRun.older }
  if t.spd.waiting ≠ [] then modSpd g fun x => { x with waiting := x.waiting.map fun h => { h with age := h.age + 1 } }

/-- Queues that hold records back for want of ring space (R376). -/
def fullQueues (s : State) (p : PartId) : Nat :=
  ((List.range 16).filter fun q => (s.part p).holdsRecord q && crFull s p q && s.reg (.pctl p) PCTL.HOST = 0).length

/-- A gate's time without an external signal (R398). -/
def quieter (gs : Assoc Gate) : Assoc Gate := gs.map fun e => (e.1, { e.2 with quiet := e.2.quiet + 1 })

/-- A partition counts one OC. -/
def tickPart (p : PartId) : M Unit := do
  if oscRuns (← get) p then
    cnt (.pctl p) PCTL.OC_NOW 1
    if (← rd (.pctl p) PCTL.FW_READY) = 1 then cnt (.pctl p) PCTL.HB_AGE 1
    cnt (.qmg p) QMG.CR_FULL_OC (fullQueues (← get) p)
    modPart p fun x => { x with gates := quieter x.gates }
    forAll (tilesOf p) tickTile
    forAll [0, 1] (tickMem p)

/-- What the engine sees of the world outside: each partition's temperature sensor, with its peak, and the level at PST_WAKE,
values that the spec leaves to the surroundings (R470, R471). -/
def sense : M Unit := do
  forAll (List.finRange 4) fun p => do tempSample p (Config.freeBelow (← freshNum) 256)
  wr .pwr PWR.WAKE_PIN (Config.freeBelow (← freshNum) 2)

/-- The engine's oscillator. -/
def tickEngine : M Unit := do
  let s ← get
  if sysStalls s then
    cnt .eng ENG.SYS_STALL 1
    forAll (List.range 4) fun p =>
      if s.eng.sys.reqs.any fun r => !r.handed && r.port.val = p then cnt .eng (ENG.SYS_STALL_P p) 1 else pure ()
  if 2 ≤ s.reg .pwr PWR.EMG_LEVEL then cnt .pwr PWR.EMG2_OC 1
  modEng fun e => { e with
    ggates := quieter e.ggates
    sys := { e.sys with reqs := e.sys.reqs.map fun r =>
      { r with age := if r.handed then r.age + 1 else r.age, waited := r.waited + 1 } } }
  sense

/-- A message for station `d` waits for space in its stream's window at port `n` (R340). -/
def windowFull (s : State) (n : PortId) (d : Nat) : Bool := 1024 ≤ ((s.port n).tx.filter fun m => m.dst = d).length

/-- What a partition would send now finds no space in a window of port `n`: a transfer of an open partition, or a tile's
remote ATOMIC, or its GATE_SIGNAL whose earlier commands have completed (R217, R411). -/
def sendWaits (s : State) (n : PortId) (p : PartId) : Bool :=
  let full (d : Nat) : Bool := portFor s p d = some n && windowFull s n d
  (open_ s p && (s.part p).xfer.any fun x => x.sent < XferD.len x.desc && full (XferD.stn x.desc)) ||
    (tilesOf p).any fun g =>
      (((s.tile g).head .lift).any fun c => c.op = Op.atomic && atRemote c.bits && full (atStn c.bits)) ||
        (s.tile g).seq.sync.any fun c =>
          c.op = Op.gateSignal && gsRemote c.bits && earlierDone (s.tile g) c.num && full (gsStn c.bits)

/-- A WRITE or a READ is held at a port because its reply finds no space in a window of port `n` (R340, R343). -/
def replyWaits (s : State) (n : PortId) : Bool :=
  (List.finRange 2).any fun k => (s.port k).held.any fun h =>
    (h.msg.type = MsgType.write || h.msg.type = MsgType.read) &&
      replyPort s k h.msg.dpart h.src.stn.val = n && !replyRoom s k h.msg.dpart h.src.stn.val

/-- The port holds a ready message that waits for an owned slot or for window space (R343). -/
def qwait (s : State) (n : PortId) : Bool :=
  let x := s.port n
  (x.tx.any fun m => m.seq.isNone || m.resend) ||
    (portMember s n && (fenceMsgs s ≠ [] || lapmapMsgs s n ≠ [] || x.joinAcks ≠ [])) ||
    replyWaits s n || (List.finRange 4).any (sendWaits s n)

/-- A port's oscillator: the ages of sent messages and of its transfers, the OC without a signal while the port is not OFF,
and another try for held messages (R341 to R343, R348, R356). -/
def tickPort (n : PortId) : M Unit := do
  let s ← get
  if qwait s n then cnt (.link n) LINK.PST_QWAIT 1
  let hears := portState s n ≠ PortState.off
  modPort n fun x => { x with
    tx := x.tx.map fun m => { m with age := m.age + 1 }
    dark := if hears then x.dark + 1 else x.dark }
  retryHeld n
  forAll (List.finRange 4) fun p => modXfer p fun x =>
    if portFor s p (XferD.stn x.desc) = some n then { x with age := x.age + 1 } else x

/-- One period of oscillator `k`. -/
def tickClock (k : Fin 7) : M Unit :=
  if h : k.val < 4 then tickPart ⟨k.val, h⟩
  else if k.val = 4 then tickEngine
  else tickPort ⟨k.val - 5, by omega⟩

/-- One period of the oscillator that is next. -/
def tickOp : M Unit := whileAwake (do
  let k := (← get).clock
  let n := Config.freeBelow (← freshNum) 7
  modify fun s => { s with clock := ⟨n % 7, by omega⟩ }
  tickClock k)

end Sys2Proof.Machine
end

