-- ==== Sys2Proof/Machine/Step.lean ====
section
/-! DEFINITION. The step: the command at the front of the queue, or one oscillator cycle where none waits. -/
namespace Sys2Proof.Machine

/-- The state with the commands that wait being `l`. -/
def State.withPending (s : State) (l : List Instr) : State := { s with pending := l }

/-- The step. -/
def step (s : State) : Host.Outcome State Fault Refusal :=
  match s.pending with
  | [] => M.next tickOp s
  | c :: rest => exec c (s.withPending rest)

/-- The command that a word spells goes to the front of the queue; no row of the table gives bits, so none is spelled. -/
def State.withFetchWord (s : State) (nbits w : Nat) : State :=
  match decodeTableWord nbits w with
  | some c => s.withPending (c :: s.pending)
  | none => s

end Sys2Proof.Machine
end

