-- ==== Sys2Proof/Safety.lean ====
section
/-! DEFINITION. What holds of a safe state and a safe run, in the terms that claims use: memories in canonical form, no
stop, what a command answers, and what it leaves alone. -/
namespace Sys2Proof.Machine

/-- The memories of a tile. -/
def Tile.memories (t : Tile) : List Memory :=
  [t.spd.data, t.spd.chk, t.acc0.mem, t.acc1.mem, t.arr.table, t.arr.residues, t.books.mem, t.books.luts]

/-- Every memory of the block. -/
def State.memories (s : State) : List Memory :=
  s.tiles.toList.flatMap Tile.memories ++ (s.parts.toList.flatMap fun p => p.mc.toList.map MemCtl.mem) ++
    [s.eng.dump, s.eng.gateSave, s.eng.flash, s.eng.loader.staging]

/-- Every memory has its canonical form. -/
def State.memWf (s : State) : Bool := s.memories.all Memory.wf

/-- A step goes on. -/
def goesOn (s : State) : Prop := ∃ t, step s = .next t

/-- Command `c` at `s` answers a next state of which `P` holds. -/
def answers (c : Instr) (s : State) (P : State → Prop) : Prop := ∃ t, exec c s = .next t ∧ P t

/-- The state with its response changed. -/
def State.setResponse (s : State) (r : Response) : State := { s with resp := r }

/-- Every field of every page reads in `t` as in `s`, but for the listed ones. -/
def regsKept (s t : State) (l : List (PageId × Fld)) : Prop :=
  ∀ i f, (∀ e ∈ l, ¬(i = e.1 ∧ f.key = e.2.key)) → t.reg i f = s.reg i f

/-- A field that neither an access to memory nor the writing of firmware events changes: any but those of the memory
controllers, of the scratchpad and accumulator pages, and the counts of the log and trace rings. -/
def quietField (i : PageId) (f : Fld) : Prop :=
  match i with
  | .mc _ _ => False
  | .tile _ .spd => False
  | .tile _ .acc => False
  | .pctl _ => f.key ≠ PCTL.LG_HEAD.key ∧ f.key ≠ PCTL.TR_HEAD.key ∧ f.key ≠ PCTL.TR_LOST.key
  | _ => True

/-- Of those fields every one but the listed ones reads in `t` as in `s`. -/
def quietKept (s t : State) (l : List (PageId × Fld)) : Prop :=
  ∀ i f, quietField i f → (∀ e ∈ l, ¬(i = e.1 ∧ f.key = e.2.key)) → t.reg i f = s.reg i f

/-- A field that an oscillator period may change: the counters of time (R118, R154, R221, R275, R310, R315, R343, R376, R388,
R405, R454, R471), and the temperatures and the wake pin that the engine's period samples (R470, R471; log entries 97, 102). -/
def timeField (i : PageId) (f : Fld) : Prop :=
  match i with
  | .pctl _ => f.key = PCTL.OC_NOW.key ∨ f.key = PCTL.HB_AGE.key
  | .qmg _ => f.key = QMG.CR_FULL_OC.key
  | .mc _ _ => f.key = MC.MC_BUSY_OC.key
  | .tile _ .tl => f.key = TL.TL_GWAIT_OC.key ∨ f.key = TL.TL_FENCE_OC.key
  | .tile _ .lft => f.key = LFT.LFT_WAIT.key
  | .tile _ .acc => f.key = ACC.ACC_HOLD_OC.key
  | .tile _ .lut => f.key = LUT.TBL_BUSY.key ∨ f.key = LUT.WIN_WAIT.key
  | .eng => f.key = ENG.SYS_STALL.key ∨ ∃ p < 4, f.key = (ENG.SYS_STALL_P p).key
  | .pwr => f.key = PWR.EMG2_OC.key ∨ f.key = PWR.WAKE_PIN.key ∨
      ∃ p < 4, f.key = (PWR.TJ p).key ∨ f.key = (PWR.TJ_PEAK p).key
  | .link _ => f.key = LINK.PST_QWAIT.key
  | _ => False

/-- Every byte of every memory reads in `t` as in `s`. -/
def bytesKept (s t : State) : Prop :=
  t.memories.length = s.memories.length ∧ ∀ (k : Nat) (m m' : Memory), s.memories[k]? = some m → t.memories[k]? = some m' →
    ∀ a, m'.get a = m.get a

/-- What is not a page's field is kept in every tile: scratchpad, buffers, arrays, books, dither source, sequencer,
units and job. -/
def tilesKept (s t : State) : Prop :=
  ∀ g, { t.tile g with pg := (s.tile g).pg } = s.tile g

/-- What is not a page's field is kept in every partition: gates, jobs, chains, memory and the firmware's own state. -/
def partsKept (s t : State) : Prop :=
  ∀ p, { t.part p with pctl := (s.part p).pctl, qmg := (s.part p).qmg, mc := (s.part p).mc } = s.part p ∧
    ∀ c, { (t.part p).ctl c with bank := ((s.part p).ctl c).bank } = (s.part p).ctl c

/-- What is not a page's field is kept in every Piste port. -/
def portsKept (s t : State) : Prop :=
  ∀ n, { t.port n with link := (s.port n).link, peer := (s.port n).peer } = s.port n

/-- What is not a page's field is kept in the engine-wide part. -/
def engKept (s t : State) : Prop :=
  { t.eng with eng := s.eng.eng, dlw := s.eng.dlw, sec := s.eng.sec, pwr := s.eng.pwr } = s.eng

/-- Nothing but fields of pages has changed. -/
def onlyRegs (s t : State) : Prop :=
  tilesKept s t ∧ partsKept s t ∧ portsKept s t ∧ engKept s t ∧ t.resp = s.resp ∧ t.variant = s.variant ∧
    t.fresh = s.fresh

/-- `t` with `s`'s record of the peak temperatures that have been read, which reading TJ_PEAK changes (R471). -/
def State.unreadAs (t s : State) : State := { t with eng := { t.eng with tjUnread := s.eng.tjUnread } }

/-- The array unit of tile `g` runs command `c`, which has begun and stands where `r` says. -/
def arrayAt (s : State) (g : TileId) (c : Active) (r : ArrayRun) : Prop :=
  (s.tile g).head .array = some c ∧ (s.tile g).units.arrayRun = some r ∧ c.begun = true

/-- Tile `g`'s scratchpad serves an access to `n` bytes at `a` by its master of class `cls`: a region grants it, its banks
are ON, and no codeword that it touches has an error (R250, R254, R260, R264). -/
def spdServes (s : State) (g : TileId) (cls : Nat) (perm : Perm) (a n : Nat) : Prop :=
  0 < n ∧ a + n ≤ 0x400000 ∧ regionOk (s.bank (.tile g .spd)) cls perm a n = true ∧
    ∀ x, a ≤ x → x < a + n → bankStat s g (x / 2 ^ 18) = 0 ∧ classify ((s.tile g).spd.codeword (x / 32)) = .clean

/-- The activation code at a place of tile `g`'s scratchpad; 0 where there is none (R197). -/
def codeHere (s : State) (g : TileId) (af : Nat) : Option CodeAt → Int
  | none => 0
  | some x => codeVal af x.high ((s.tile g).spd.data.get x.addr)

/-- The table builder of tile `g` is served at every place in the list. -/
def codesServed (s : State) (g : TileId) (l : List (Option CodeAt)) : Prop :=
  ∀ x, some x ∈ l → spdServes s g 1 .r x.addr 1

/-- The sequencer of tile `g` has nothing to fetch before the lift engine's next piece (R270). -/
def noFetch (s : State) (g : TileId) : Prop :=
  (s.tile g).seq.ahead ≠ [] ∨ (s.tile g).seq.fetchPc = none ∨ listRuns s g = false

/-- The next piece of lift descriptor `d`, which stands where `r` says, lies with its source and destination in scratchpad,
apart, and is served to the control core's regions; the destination is no book (R271, R273). -/
def pieceServed (s : State) (g : TileId) (d : Nat) (r : CopyRun) : Prop :=
  r.desc = some d ∧ (r.done = 0 → liftBad d = false) ∧ LiftD.btag d = 0 ∧ r.done < LiftD.len d ∧
    LiftD.src d + LiftD.len d ≤ 0x400000 ∧ LiftD.dst d + LiftD.len d ≤ 0x400000 ∧
    (LiftD.src d + LiftD.len d ≤ LiftD.dst d ∨ LiftD.dst d + LiftD.len d ≤ LiftD.src d) ∧
    spdServes s g 4 .r (LiftD.src d + r.done) (pieceLen (LiftD.dst d) (LiftD.len d) r.done) ∧
    spdServes s g 4 .w (LiftD.dst d + r.done) (pieceLen (LiftD.dst d) (LiftD.len d) r.done)

/-- That piece has been copied: the bytes at its destination are those of its source, every other byte of the scratchpad
stays, and LFT_BYTES counts it. -/
def pieceCopied (s t : State) (g : TileId) (d : Nat) (r : CopyRun) : Prop :=
  let n := pieceLen (LiftD.dst d) (LiftD.len d) r.done
  (t.tile g).spd.data.read (LiftD.dst d + r.done) n = (s.tile g).spd.data.read (LiftD.src d + r.done) n ∧
    (∀ x, x < LiftD.dst d + r.done ∨ LiftD.dst d + r.done + n ≤ x → (t.tile g).spd.data.get x = (s.tile g).spd.data.get x) ∧
    t.reg (.tile g .lft) LFT.LFT_BYTES = min (s.reg (.tile g .lft) LFT.LFT_BYTES + n) (2 ^ LFT.LFT_BYTES.width - 1) ∧
    (∀ h, h ≠ g → t.tile h = s.tile h) ∧ t.parts = s.parts

/-- No corrected burst of partition `p` waits for its write-back, and every burst that `[a, a + n)` meets is stored without
an error (R296). -/
def burstsClean (s : State) (p : PartId) (a n : Nat) : Prop :=
  (∀ c, ((s.part p).ctl c).fixups = []) ∧ ∀ x ∈ piecesOf a n,
    classify (((s.part p).ctl (interleave s.variant x.2.1).1).burst (interleave s.variant x.2.1).2) = .clean

/-- The bytes that partition `p` stores at `[a, a + n)`, burst by burst. -/
def storedBytes (s : State) (p : PartId) (a n : Nat) : List Byte :=
  (piecesOf a n).flatMap fun x =>
    ((((s.part p).ctl (interleave s.variant x.2.1).1).mem.read (interleave s.variant x.2.1).2 64).drop x.2.2.1).take x.2.2.2

/-- Tile address `a` lies at offset `off` of partition `q`'s memory, where a core of partition `p` reads `n` bytes that are
stored without an error (R260, R368, R411). -/
def coreReads (s : State) (p : PartId) (a n : Nat) (q : PartId) (off : Nat) : Prop :=
  pccTarget s.variant a = some (.pmem q off) ∧ off + n ≤ s.variant.capacity ∧ (p = q ∨ open_ s q = true) ∧
    burstsClean s q off n

/-- A Piste port may access `n` bytes at offset `a` of partition `p`'s memory (R259, R261, R344, R411). -/
def portOk (s : State) (p : PartId) (perm : Perm) (a n : Nat) : Prop :=
  open_ s p = true ∧ a + n ≤ s.variant.capacity ∧
    regionOk (s.bank (.tile (tileAt p 0) .spd)) 6 perm (0x1000000000 + p.val * 0x800000000 + a) n = true

/-- Port `n` receives messages from the epoch that `src` names. -/
def epochLives (s : State) (n : PortId) (src : Sender) : Prop :=
  epochEnded (s.port n) src.stn.val src.part.val src.epoch = false

/-- The reply ring of partition `p` takes a reply at once: no reply waits, it is not full, and it lies in partition memory
(R368, R386). -/
def replyFits (s : State) (p : PartId) : Prop :=
  (s.part p).replies = [] ∧ frFull s p = false ∧
    ∃ q off, pccTarget s.variant (ringAddr (s.reg (.pctl p) PCTL.FR_BASE) (s.reg (.pctl p) PCTL.FR_LOG2) 32
      (s.reg (.pctl p) PCTL.FR_HEAD)) = some (.pmem q off)

/-- The firmware of partition `p` runs, is attached, and holds command `c` with opcode `op`. -/
def fwHolds (s : State) (p : PartId) (op : Nat) (c : FwCmd) : Prop :=
  fwRuns s p = true ∧ s.reg (.pctl p) PCTL.HOST = 0 ∧ (s.part p).fw = some c ∧ bitsAt c.bits 0 8 = op

/-- The command in hand has ended: its reply has been written, which counts in FR_HEAD and raises interrupt 0 (R386). -/
def fwAnswered (s t : State) (p : PartId) : Prop :=
  (t.part p).fw = none ∧ (t.part p).replies = [] ∧
    t.reg (.pctl p) PCTL.FR_HEAD = (s.reg (.pctl p) PCTL.FR_HEAD + 1) % 2 ^ 32 ∧
    (t.reg (.pctl p) HDR.IRQ_STAT).testBit 0 = true

/-- The three fields of a page that a counted error changes. -/
def errFields (i : PageId) : List (PageId × Fld) := [(i, HDR.ERR_CNT), (i, HDR.ERR_REC), (i, HDR.ERR_VALID)]

end Sys2Proof.Machine
end

