-- ==== Sys2Proof/WellFormed.lean ====
section
/-! DEFINITION. Which commands are well formed: operands that fit the fields and buses that carry them. The machine gives
every command its meaning, well formed or not; statements about the outside world may ask for this. -/
namespace Sys2Proof

/-- A flip names one of the `n` symbols of a stored word. -/
def flipIn (n : Nat) (f : Flip) : Bool := decide (f.sym < n)

/-- The number of bytes of an access. -/
def accessLen : Access → Nat
  | .read n => n
  | .write bs => bs.length

/-- An access of 1 to 128 bytes. -/
def accessIn (a : Access) : Bool := decide (1 ≤ accessLen a) && decide (accessLen a ≤ 128)

/-- A scratchpad access within one word, by a class of R267. -/
def spdCall (cls addr n : Nat) : Bool :=
  decide (cls ≤ 8) && decide (addr < 0x400000) && decide (1 ≤ n) && decide (addr % 128 + n ≤ 128)

/-- A partition-memory access of at least one byte within the 32 GiB that a tile address names (R41). -/
def mcCall (cls off n : Nat) : Bool := decide (cls ≤ 8) && decide (1 ≤ n) && decide (off + n ≤ 0x800000000)

/-- The fields of a message fit (R338). -/
def wfMsg (m : Msg) : Bool :=
  decide (m.type < 2 ^ 8) && decide (m.dst < 2 ^ 4) && decide (m.seq < 2 ^ 16) && decide (m.oseq < 2 ^ 16)

/-- The codewords of a frame: 104 to 4,328 bytes (R322, R333). -/
def wfBurst (bs : List Byte) : Bool := decide (104 ≤ bs.length) && decide (bs.length ≤ 4328)

/-- A round trip within the fibre limits (R324). -/
def wfEcho : EchoResult → Bool
  | .heard burst rtt _ => wfBurst burst && decide (rtt ≤ 97)
  | .missing => true

/-- The command is well formed. -/
def wfInstr : Instr → Bool
  | .commandFetch _ => true
  | .commandAccept _ => true
  | .nop _ => true
  | .sweep _ => true
  | .direct _ => true
  | .drain _ => true
  | .book _ => true
  | .move _ => true
  | .atomic _ => true
  | .bin _ => true
  | .update _ => true
  | .gateWait _ => true
  | .gateSignal _ => true
  | .fence _ => true
  | .mark _ => true
  | .stat _ => true
  | .listEnd _ => true
  | .windowLoad _ => true
  | .buildTables _ => true
  | .runStep _ _ => true
  | .directStep _ _ => true
  | .residueRetry _ _ => true
  | .promotion _ => true
  | .accHoldRelease _ => true
  | .drainRow _ => true
  | .historyReply _ => true
  | .binStep _ _ => true
  | .updateElement _ => true
  | .bookWriteRelease _ => true
  | .lutWriteRelease _ => true
  | .spdRead _ src addr len _ flips => spdCall src.cls addr len && flips.all (flipIn 140)
  | .spdWrite _ src addr bytes _ flips => spdCall src.cls addr bytes.length && flips.all (flipIn 140)
  | .spdEccWriteback _ flips => flips.all (flipIn 140)
  | .spdScrub _ flips => flips.all (flipIn 140)
  | .bankWakeDone _ _ => true
  | .peerAccess _ cls _ addr acc => decide (cls ≤ 8) && decide (addr < 2 ^ 40) && accessIn acc
  | .apertureAccess _ off size acc => decide (off < 0x500000) && decide (accessLen acc = size)
  | .lftStart _ => true
  | .lftAbort _ => true
  | .liftDescriptor _ => true
  | .liftPiece _ => true
  | .switchListRun _ => true
  | .mcRead _ src off len flips again => mcCall src.cls off len && flips.all (flipIn 67) && again.flips.all (flipIn 67)
  | .mcWrite _ src off bytes flips again => mcCall src.cls off bytes.length && flips.all (flipIn 67) && again.all (flipIn 67)
  | .mcAtomicAdd _ src off adds =>
    decide (src.cls ≤ 8) && decide (off % 64 = 0) && decide (adds.words.length = 16) && adds.flips.all (flipIn 67) &&
    adds.again.all (flipIn 67)
  | .historyPush _ off h => decide (off % 4 = 0) && h.flips.all (flipIn 67) && h.again.all (flipIn 67)
  | .historyMerge _ off h => decide (off % 4 = 0) && h.flips.all (flipIn 67) && h.again.all (flipIn 67)
  | .mergeEvict _ _ => true
  | .mcScrub _ _ _ flips again => flips.all (flipIn 67) && again.flips.all (flipIn 67)
  | .mr4Poll _ _ codes => decide (codes.length = 8)
  | .wck2dqRetune _ _ => true
  | .memTraining _ _ pass => decide (pass.length = 8)
  | .sysRequest _ => true
  | .sysReply _ _ => true
  | .sysTimeout _ => true
  | .sysGrantChange _ => true
  | .slotStart _ _ _ _ => true
  | .slotSilent _ => true
  | .frameRx _ burst => wfBurst burst
  | .echoCheck _ _ echo _ => wfEcho echo
  | .backoffExpiry _ => true
  | .retransmit _ _ => true
  | .write _ src msg => wfMsg msg && decide (src.epoch < 2 ^ 12)
  | .writeAck _ src msg => wfMsg msg && decide (src.epoch < 2 ^ 12)
  | .read _ src msg => wfMsg msg && decide (src.epoch < 2 ^ 12)
  | .readData _ src msg => wfMsg msg && decide (src.epoch < 2 ^ 12)
  | .atomAdd _ src msg => wfMsg msg && decide (src.epoch < 2 ^ 12)
  | .gateSig _ src msg => wfMsg msg && decide (src.epoch < 2 ^ 12)
  | .heartbeat _ src msg => wfMsg msg && decide (src.epoch < 2 ^ 12)
  | .fenceMessage _ src msg => wfMsg msg && decide (src.epoch < 2 ^ 12)
  | .join _ src msg => wfMsg msg && decide (src.epoch < 2 ^ 12)
  | .joinAck _ src msg => wfMsg msg && decide (src.epoch < 2 ^ 12)
  | .leave _ src msg => wfMsg msg && decide (src.epoch < 2 ^ 12)
  | .lapmap _ src msg => wfMsg msg && decide (src.epoch < 2 ^ 12)
  | .lapmapAdopt _ => true
  | .peerDown _ _ => true
  | .starDown _ => true
  | .portEnable _ _ => true
  | .joinRequest _ _ => true
  | .leaveRequest _ => true
  | .keySwap _ => true
  | .lapmapGo _ => true
  | .xrHeadWrite _ _ => true
  | .xferComplete _ => true
  | .xferTimeout _ => true
  | .winArm _ => true
  | .winDisarm _ => true
  | .winComplete _ => true
  | .gtSignal _ _ gate _ => decide (gate.index < 1024)
  | .create _ _ gate => decide (gate.index < 1024)
  | .destroy _ _ gate => decide (gate.index < 1024)
  | .set _ _ gate => decide (gate.index < 1024)
  | .clrErr _ _ gate => decide (gate.index < 1024)
  | .setErr _ _ gate => decide (gate.index < 1024)
  | .doorbell _ _ _ => true
  | .queueEnable _ _ _ => true
  | .jobDispatch _ => true
  | .standingInstance _ _ => true
  | .jobComplete _ => true
  | .crTailWrite _ _ _ => true
  | .trTailWrite _ _ => true
  | .boundaryDeclare _ => true
  | .swapRevert page => decide (page < 0x4000)
  | .fcDoorbell _ _ => true
  | .fwCommandFetch _ => true
  | .loadModel _ => true
  | .unloadModel _ => true
  | .switchModel _ => true
  | .gateCreate _ => true
  | .gateDestroy _ => true
  | .bindStanding _ => true
  | .unbindStanding _ => true
  | .attach _ => true
  | .fwActivate _ => true
  | .query _ => true
  | .hbWrite _ _ => true
  | .hbExpire _ => true
  | .orphan _ => true
  | .cycleDeclare => true
  | .stallDeclare _ => true
  | .preset _ => true
  | .pccWdogExpire _ => true
  | .partitionFence _ => true
  | .fenceDone _ => true
  | .fenceTimeout _ => true
  | .dumpElement _ => true
  | .elemTimeout _ => true
  | .dumpRelease _ => true
  | .partitionReset _ => true
  | .retrainDone _ => true
  | .restartDone _ seeds => decide (seeds.length = 12)
  | .resetBudgetExpire _ => true
  | .replaySuspect _ => true
  | .replayTimeout _ => true
  | .pairEntryWrite _ _ => true
  | .engineReset => true
  | .coldBoot _ _ _ _ _ => true
  | .install package => decide (package.bytes.length < 2 ^ 24)
  | .commitSvn => true
  | .revoke request => decide (request.length < 2 ^ 24)
  | .lcSecure request => decide (request.length < 2 ^ 24)
  | .lcReturn token => decide (token.length < 2 ^ 24)
  | .lcVoid request => decide (request.length < 2 ^ 24)
  | .mbStatus => true
  | .hello frame => decide (frame.length ≤ 1032)
  | .stage frame => decide (frame.length ≤ 1032)
  | .rcvInstall frame => decide (frame.length ≤ 1032)
  | .lcRequest frame => decide (frame.length ≤ 1032)
  | .reboot frame => decide (frame.length ≤ 1032)
  | .uartFrameTimeout => true
  | .emgLevelRise _ => true
  | .emgLevelFall _ => true
  | .pvreqWrite _ _ => true
  | .supplySettled _ => true
  | .tileGateWrite _ _ => true
  | .tileGateApply _ => true
  | .tileWake _ _ => true
  | .rateUpdate _ _ => true
  | .oscCalibrate _ _ _ _ => true
  | .pstWake => true
  | .accRowReset _ _ => true
  | .cnvStatSnap _ _ => true
  | .injArm _ _ => true
  | .cntClr page => decide (page < 0x4000)
  | .irqForce page _ => decide (page < 0x4000)
  | .rcCounterRead addr _ _ => decide (addr < 0x4000000)
  | .registerWrite addr _ _ _ => decide (addr < 0x4000000)
  | .frTailWrite _ _ => true
  | .socFabricAccept => true
  | .nak frame => decide (frame.length ≤ 1032)

end Sys2Proof
end

