-- ==== Sys2Proof/Certificates/Slice0/Obligations.lean ====
section
/-! DEFINITION. The statements for the provers, family by family. -/

open Sys2Proof Sys2Proof.Machine

/-- A step carries out the command at the front of the queue, with the rest of the queue still waiting. -/
def Obligations.StepRunsFrontCommand : Prop :=
  ∀ (c : Instr) (s : State), step (s.withPending (c :: s.pending)) = exec c s

/-- R22, R44, R46, R290, R410, R472: what the machine holds after reset: no command waits, every memory has its
canonical form, and the fields whose reset value the spec states have it. Partitions in RUN with no job are the model's
choice (log entry 3). -/
def Obligations.ResetState : Prop :=
  State.reset.pending = [] ∧ State.reset.memWf = true ∧
  (∀ i f, i ≠ .sec → State.reset.reg i f = f.reset) ∧
  State.reset.reg .dlw DLW.EN = 1 ∧ State.reset.reg .dlw DLW.AUTO_RESET = 1 ∧ State.reset.reg .dlw DLW.REPLAY_EN = 1 ∧
  State.reset.reg .dlw DLW.CONFIRM_OC = 1000 ∧ State.reset.reg .dlw DLW.STALL_TMO = 10000000 ∧
  (∀ p, State.reset.gate p ⟨0, false⟩ = .none_ ∧ (State.reset.part p).jobs = []) ∧
  (∀ g, State.reset.tile g = Tile.reset) ∧ ∀ nbits w, decodeTableWord nbits w = none

/-- R12, R310, R343, R398, R454, R471: with no command waiting and the engine out of reset, a step counts one period of
one oscillator: the five counters named here rise with their oscillators and stay otherwise; no register changes but the
counters of time and, in the engine's period, the temperatures and the wake pin that the model samples as free values
(its choice, log entries 97 and 102); memories, jobs, gate values, the queue of commands, and what tiles hold beside
their units, scratchpad waits and pages stay. Which oscillator is next is free (the model's choice, log entry 5). With
the engine in reset an idle step changes nothing. -/
def Obligations.IdleStepCountsTime : Prop :=
  (∀ s : State, s.pending = [] → s.eng.inReset = false → (∀ p c, ((s.part p).ctl c).fixups = []) →
    (∀ n, (s.port n).held = []) → ∃ t, step s = .next t ∧
    t.pending = [] ∧ t.memories = s.memories ∧ (∀ p, (t.part p).jobs = (s.part p).jobs) ∧
    (∀ p, t.reg (.pctl p) PCTL.OC_NOW = (if s.clock.val = p.val ∧ oscRuns s p = true then
      min (s.reg (.pctl p) PCTL.OC_NOW + 1) (2 ^ PCTL.OC_NOW.width - 1) else s.reg (.pctl p) PCTL.OC_NOW)) ∧
    (∀ p, t.reg (.pctl p) PCTL.HB_AGE =
      (if s.clock.val = p.val ∧ oscRuns s p = true ∧ s.reg (.pctl p) PCTL.FW_READY = 1 then
        min (s.reg (.pctl p) PCTL.HB_AGE + 1) (2 ^ PCTL.HB_AGE.width - 1) else s.reg (.pctl p) PCTL.HB_AGE)) ∧
    t.reg .pwr PWR.EMG2_OC = (if s.clock.val = 4 ∧ 2 ≤ s.reg .pwr PWR.EMG_LEVEL then
      min (s.reg .pwr PWR.EMG2_OC + 1) (2 ^ PWR.EMG2_OC.width - 1) else s.reg .pwr PWR.EMG2_OC) ∧
    t.reg .eng ENG.SYS_STALL = (if s.clock.val = 4 ∧ sysStalls s = true then
      min (s.reg .eng ENG.SYS_STALL + 1) (2 ^ ENG.SYS_STALL.width - 1) else s.reg .eng ENG.SYS_STALL) ∧
    (∀ n, t.reg (.link n) LINK.PST_QWAIT = (if s.clock.val = 5 + n.val ∧ qwait s n = true then
      min (s.reg (.link n) LINK.PST_QWAIT + 1) (2 ^ LINK.PST_QWAIT.width - 1) else s.reg (.link n) LINK.PST_QWAIT)) ∧
    (∀ i f, ¬timeField i f → t.reg i f = s.reg i f) ∧
    (∀ g, { t.tile g with pg := (s.tile g).pg, units := (s.tile g).units, spd := (s.tile g).spd } = s.tile g) ∧
    ∀ p r, (t.gate p r).value = (s.gate p r).value ∧ (t.gate p r).err = (s.gate p r).err) ∧
  (∀ s : State, s.pending = [] → s.eng.inReset = true → step s = .next s)

/-- Every command answers a next state, and keeps the variant and the commands that wait: what a command does concerns
everything but the queue. -/
def Obligations.CommandsGoOnAndKeepQueue : Prop :=
  ∀ (c : Instr) (s : State), answers c s fun t => t.pending = s.pending ∧ t.variant = s.variant

/-- Every step keeps the memories in their canonical form: addresses strictly rising, and no listed byte equal to what
an unlisted address reads as. -/
def Obligations.StepKeepsMemoriesCanonical : Prop :=
  ∀ s t : State, s.memWf = true → step s = .next t → t.memWf = true

/-- R308 to R314: what the SoC fabric does at the system port. A timeout counts, records the address, raises interrupt 0
and answers ERR_SYS_TIMEOUT; a refusal records the address, raises interrupt 1 and answers ERR_SYS_REFUSED; the end of a
write counts its bytes and answers it; read data counts and is answered; the grant change is reported in SYS_GRANT. A
request that the fabric takes is handed over; one that it does not take is held, with SYS_HOLD set; a hold ends when the
fabric accepts. No byte of memory changes. Where these rules leave a point open it follows the model's reading (log
entries 9, 10 and 11). -/
def Obligations.SystemPort : Prop :=
  (∀ (s : State) (id : Nat) (r : SysReq), (s.eng.sys.reqs.find? fun r => r.id = id && r.handed) = some r →
    answers (.sysTimeout id) s fun t =>
      t.reg .eng ENG.SYS_TMO_CNT = min (s.reg .eng ENG.SYS_TMO_CNT + 1) (2 ^ 32 - 1) ∧
      t.reg .eng ENG.SYS_ERR_ADDR = r.addr % 2 ^ 40 ∧ (t.reg .eng HDR.IRQ_STAT).testBit 0 = true ∧
      t.eng.sys.reqs = s.eng.sys.reqs.filter (fun x => x.id ≠ r.id) ∧
      t.eng.sys.answers = s.eng.sys.answers ++
        (if r.who.waits then [⟨r.who, r.addr, r.len, r.data.isSome, Err.sysTimeout, [], false⟩] else []) ∧
      regsKept s t ([(.eng, ENG.SYS_TMO_CNT), (.eng, ENG.SYS_ERR_ADDR), (.eng, HDR.IRQ_STAT)] ++ errFields .eng) ∧
      bytesKept s t) ∧
  (∀ (s : State) (id : Nat) (r : SysReq), (s.eng.sys.reqs.find? fun r => r.id = id && r.handed) = some r →
    answers (.sysReply id .refused) s fun t =>
      t.reg .eng ENG.SYS_ERR_ADDR = r.addr % 2 ^ 40 ∧ (t.reg .eng HDR.IRQ_STAT).testBit 1 = true ∧
      t.eng.sys.reqs = s.eng.sys.reqs.filter (fun x => x.id ≠ r.id) ∧
      t.eng.sys.answers = s.eng.sys.answers ++
        (if r.who.waits then [⟨r.who, r.addr, r.len, r.data.isSome, Err.sysRefused, [], false⟩] else []) ∧
      regsKept s t ([(.eng, ENG.SYS_ERR_ADDR), (.eng, HDR.IRQ_STAT)] ++ errFields .eng) ∧ bytesKept s t) ∧
  (∀ (s : State) (id : Nat) (r : SysReq) (d : Nat × List Byte),
    (s.eng.sys.reqs.find? fun r => r.id = id && r.handed) = some r → r.data = some d →
    answers (.sysReply id .done) s fun t =>
      t.reg .eng ENG.SYS_WR_BYTES = min (s.reg .eng ENG.SYS_WR_BYTES + d.2.length) (2 ^ 64 - 1) ∧
      t.eng.sys.answers = s.eng.sys.answers ++
        (if r.who.waits then [⟨r.who, r.addr, r.len, true, Err.none, [], false⟩] else []) ∧
      regsKept s t [(.eng, ENG.SYS_WR_BYTES)] ∧ bytesKept s t) ∧
  (∀ (s : State) (id : Nat) (r : SysReq) (bs : List Byte),
    (s.eng.sys.reqs.find? fun r => r.id = id && r.handed) = some r → r.data = none → bs.length = r.len →
    answers (.sysReply id (.data bs)) s fun t =>
      t.reg .eng ENG.SYS_RD_BYTES = min (s.reg .eng ENG.SYS_RD_BYTES + r.len) (2 ^ 64 - 1) ∧
      t.eng.sys.answers = s.eng.sys.answers ++
        (if r.who.waits then [⟨r.who, r.addr, r.len, false, Err.none, bs, false⟩] else []) ∧
      regsKept s t [(.eng, ENG.SYS_RD_BYTES)] ∧ bytesKept s t) ∧
  (∀ (s : State) (share : BitVec 16), answers (.sysGrantChange share) s fun t =>
      t.reg .eng ENG.SYS_GRANT = share.toNat ∧ regsKept s t [(.eng, ENG.SYS_GRANT)] ∧ onlyRegs s t) ∧
  (∀ (s : State) (w : SysReq), s.eng.sys.held = none → sysWinner s.eng.sys = some w → s.reg .eng ENG.SYS_GRANT ≠ 0 →
    answers (.sysRequest true) s fun t =>
      t.eng.sys.held = none ∧ t.reg .eng ENG.SYS_HOLD = 0 ∧ t.eng.sys.lastPort = w.port.val ∧
      (∀ r ∈ t.eng.sys.reqs, r.id = w.id → r.handed = true ∧ r.age = 0) ∧
      t.eng.sys.reqs.map SysReq.id = s.eng.sys.reqs.map SysReq.id ∧
      regsKept s t [(.eng, ENG.SYS_HOLD)] ∧ bytesKept s t) ∧
  (∀ (s : State) (w : SysReq), s.eng.sys.held = none → sysWinner s.eng.sys = some w →
    answers (.sysRequest false) s fun t =>
      t.eng.sys.held = some w.id ∧ t.reg .eng ENG.SYS_HOLD = 1 ∧ t.eng.sys.lastPort = w.port.val ∧
      t.eng.sys.reqs.map SysReq.id = s.eng.sys.reqs.map SysReq.id ∧
      t.eng.sys.reqs.map SysReq.handed = s.eng.sys.reqs.map SysReq.handed ∧
      regsKept s t [(.eng, ENG.SYS_HOLD)] ∧ bytesKept s t) ∧
  (∀ (s : State) (id : Nat), s.eng.sys.held = some id → s.reg .eng ENG.SYS_GRANT ≠ 0 →
    answers .socFabricAccept s fun t =>
      t.eng.sys.held = none ∧ t.reg .eng ENG.SYS_HOLD = 0 ∧
      (∀ r ∈ t.eng.sys.reqs, r.id = id → r.handed = true ∧ r.age = 0) ∧
      t.eng.sys.reqs.map SysReq.id = s.eng.sys.reqs.map SysReq.id ∧
      regsKept s t [(.eng, ENG.SYS_HOLD)] ∧ bytesKept s t)

/-- R390, R458, R462, R463, R465: a rise of the emergency level to a higher one, and a fall to a lower one, write
EMG_LEVEL and count in EMG_CHANGES; EMG_DONE stands no higher than a level that fell; a level that is no rise, or no
fall, changes nothing. A rise abandons an activation that is under way: its holds are released, with the boundary
requests that it alone has made, and its deferral stands. Where these rules leave a point open it follows the model's
reading (log entries 31, 98 and 99). -/
def Obligations.EmergencyLevels : Prop :=
  (∀ (s : State) (l : Fin 4), s.eng.inReset = false → s.reg .pwr PWR.EMG_LEVEL < l.val →
    answers (.emgLevelRise l) s fun t =>
      t.reg .pwr PWR.EMG_LEVEL = l.val ∧
      t.reg .pwr PWR.EMG_CHANGES = min (s.reg .pwr PWR.EMG_CHANGES + 1) (2 ^ PWR.EMG_CHANGES.width - 1)) ∧
  (∀ (s : State) (l : Fin 4), s.eng.inReset = false → l.val < s.reg .pwr PWR.EMG_LEVEL →
    answers (.emgLevelFall l) s fun t =>
      t.reg .pwr PWR.EMG_LEVEL = l.val ∧ t.reg .pwr PWR.EMG_DONE ≤ l.val ∧
      t.reg .pwr PWR.EMG_CHANGES = min (s.reg .pwr PWR.EMG_CHANGES + 1) (2 ^ PWR.EMG_CHANGES.width - 1)) ∧
  (∀ (s : State) (p : PartId), s.eng.inReset = false → s.reg .pwr PWR.EMG_LEVEL = 0 → s.eng.activating = some p →
    answers (.emgLevelRise 1) s fun t =>
      t.eng.activating = none ∧ t.reg (.pctl p) PCTL.ACT_DEFER ≠ 0 ∧ (∀ q, (t.part q).actHold = false) ∧
      ∀ q, t.reg (.pctl q) PCTL.BND_REQ = (if (s.part q).bndAct = true then 0 else s.reg (.pctl q) PCTL.BND_REQ)) ∧
  (∀ (s : State) (l : Fin 4), (∀ p, (s.part p).events = []) →
    (l.val ≤ s.reg .pwr PWR.EMG_LEVEL → answers (.emgLevelRise l) s (fun t => t = s)) ∧
    (s.reg .pwr PWR.EMG_LEVEL ≤ l.val → answers (.emgLevelFall l) s (fun t => t = s)))

/-- R453, R458, R461, R466, R467, R471: PVREQ takes the written code; the supply goes to that code, taken as 50 where it
is above 50 and capped at EMG1_V from emergency level 1 on; SETTLED falls where the supply's code changes and rises when
the supply has settled; a code above 50 counts an error. TILE_GATE and RATE take what is written; PST_WAKE is seen,
shown on the pin and raises interrupt 2; in engine reset all three change nothing. Where these rules leave a point open
it follows the model's reading (log entries 97, 100 and 102). -/
def Obligations.PowerPage : Prop :=
  (∀ (s : State) (p : PartId) (code : BitVec 6), s.eng.inReset = false →
    answers (.pvreqWrite p code) s fun t =>
      t.reg .pwr (PWR.PVREQ p.val) = code.toNat ∧
      t.reg .pwr (PWR.PVACT p.val) =
        (if 1 ≤ s.reg .pwr PWR.EMG_LEVEL then min (min 50 code.toNat) (s.reg .pwr PWR.EMG1_V) else min 50 code.toNat) ∧
      t.reg .pwr (PWR.SETTLED p.val) =
        (if t.reg .pwr (PWR.PVACT p.val) = s.reg .pwr (PWR.PVACT p.val) then s.reg .pwr (PWR.SETTLED p.val) else 0) ∧
      t.reg .pwr HDR.ERR_CNT = (if 50 < code.toNat then min (s.reg .pwr HDR.ERR_CNT + 1) (2 ^ 32 - 1) else s.reg .pwr HDR.ERR_CNT) ∧
      regsKept s t ([(.pwr, PWR.PVREQ p.val), (.pwr, PWR.PVACT p.val), (.pwr, PWR.SETTLED p.val)] ++ errFields .pwr) ∧
      onlyRegs s t) ∧
  (∀ (s : State) (p : PartId), s.eng.inReset = false →
    answers (.supplySettled p) s fun t =>
      t.reg .pwr (PWR.SETTLED p.val) = 1 ∧ regsKept s t [(.pwr, PWR.SETTLED p.val), (.pwr, PWR.EMG_DONE)] ∧ onlyRegs s t) ∧
  (∀ (s : State) (p : PartId) (bits : BitVec 12), s.eng.inReset = false →
    answers (.tileGateWrite p bits) s fun t =>
      t.reg .pwr (PWR.TILE_GATE p.val) = bits.toNat ∧ regsKept s t [(.pwr, PWR.TILE_GATE p.val)] ∧ onlyRegs s t) ∧
  (∀ (s : State) (p : PartId) (rate : BitVec 11), s.eng.inReset = false →
    answers (.rateUpdate p rate) s fun t =>
      t.reg .pwr (PWR.RATE p.val) = rate.toNat ∧ regsKept s t [(.pwr, PWR.RATE p.val)] ∧ onlyRegs s t) ∧
  (∀ s : State, s.eng.inReset = false →
    answers .pstWake s fun t =>
      t.reg .pwr PWR.WAKE_SEEN = 1 ∧ t.reg .pwr PWR.WAKE_PIN = 1 ∧ (t.reg .pwr HDR.IRQ_STAT).testBit 2 = true ∧
      regsKept s t [(.pwr, PWR.WAKE_SEEN), (.pwr, PWR.WAKE_PIN), (.pwr, HDR.IRQ_STAT)] ∧ onlyRegs s t) ∧
  (∀ (s : State) (p : PartId) (bits : BitVec 12) (rate : BitVec 11), s.eng.inReset = true →
    answers (.tileGateWrite p bits) s (fun t => t = s) ∧ answers (.rateUpdate p rate) s (fun t => t = s) ∧
      answers .pstWake s (fun t => t = s))

/-- R461: a tile that gates shows its bit in TILE_GATED, holds its banks in retention, but for those that are OFF, and
loses the content of its buffers, table store, residues, weight window, book store and LUTs, with row state, tags and
statistics contexts; a tile that wakes clears its bit, takes a seed for its dither source, and its banks in retention
whose active BANK_PWR is ON wake. Scratchpad content and the other tiles stay. Where these rules leave a point open it
follows the model's reading (log entry 101). -/
def Obligations.TileGatingAndWake : Prop :=
  (∀ (s : State) (g : TileId), s.eng.inReset = false → gateBit s g = true →
    (s.reg .pwr (PWR.TILE_GATED (partOf g).val)).testBit (localOf g) = false → betweenJobs s g = true → offered s g = false →
    answers (.tileGateApply g) s fun t =>
      (t.reg .pwr (PWR.TILE_GATED (partOf g).val)).testBit (localOf g) = true ∧
      (t.tile g).job = none ∧ (t.tile g).books.tags = [] ∧ (t.tile g).acc0.rows = [] ∧ (t.tile g).acc1.rows = [] ∧
      (t.tile g).arr.window = [] ∧ (t.tile g).arr.ready = [] ∧ (t.tile g).arr.lanes = [] ∧
      (∀ m ∈ [(t.tile g).acc0.mem, (t.tile g).acc1.mem, (t.tile g).arr.table, (t.tile g).arr.residues,
        (t.tile g).books.mem, (t.tile g).books.luts], m.cells = [] ∧ m.gen ≠ 0) ∧
      (∀ k, k < 8 → t.reg (.tile g .cnv) (CNV.CTX_SSE k) = 0 ∧ t.reg (.tile g .cnv) (CNV.CTX_SAMPLES k) = 0 ∧
        t.reg (.tile g .cnv) (CNV.CTX_CLIPS k) = 0 ∧ t.reg (.tile g .cnv) (CNV.CTX_DEGEN k) = 0) ∧
      (∀ k, k < 16 → t.reg (.tile g .spd) (SPD.BANK_STAT k) =
        (if s.reg (.tile g .spd) (SPD.BANK_STAT k) = 2 then 2 else 1)) ∧ (t.tile g).spd = (s.tile g).spd ∧
      ∀ h, h ≠ g → t.tile h = s.tile h) ∧
  (∀ (s : State) (g : TileId) (seed : BitVec 64), s.eng.inReset = false →
    (s.reg .pwr (PWR.TILE_GATED (partOf g).val)).testBit (localOf g) = true → gateBit s g = false →
    answers (.tileWake g seed) s fun t =>
      (t.reg .pwr (PWR.TILE_GATED (partOf g).val)).testBit (localOf g) = false ∧
      (t.tile g).dither = (if seed = 0 then ditherReset else seed) ∧
      (∀ k, k < 16 → t.reg (.tile g .spd) (SPD.BANK_STAT k) =
        (if s.reg (.tile g .spd) (SPD.BANK_STAT k) = 1 ∧ s.reg (.tile g .spd) (SPD.BANK_PWR k).active = 0 then 3
          else s.reg (.tile g .spd) (SPD.BANK_STAT k))) ∧ (t.tile g).spd = (s.tile g).spd ∧
      ∀ h, h ≠ g → t.tile h = s.tile h)

/-- R456: a partition's oscillator that comes to a count from 98,000 to 102,000 within RESET starts OC_NOW at 0 and goes
on to RETRAIN; one that does not takes the partition to FAILED. The engine's oscillator holds the engine in reset where
it fails, and lets an engine start that waits for it. Each records its count, a partition's also the temperature, of
which TJ_PEAK shows the highest since the last read (R471). Where these rules leave a point open it follows the model's
reading (log entries 61, 102 and 103). -/
def Obligations.OscillatorCalibration : Prop :=
  (∀ (s : State) (p : PartId) (count : BitVec 17) (trim tj : Byte), s.reg .dlw (DLW.STATE p.val) = PState.reset →
    answers (.oscCalibrate ⟨p.val, by omega⟩ count trim tj) s fun t =>
      t.reg .pwr (PWR.OSC_CAL p.val) = count.toNat ∧ t.reg .pwr (PWR.OSC_TRIM p.val) = trim.toNat ∧
      t.reg .pwr (PWR.CAL_TJ p.val) = tj.toNat ∧ t.reg .pwr (PWR.TJ p.val) = tj.toNat ∧
      t.reg .pwr (PWR.TJ_PEAK p.val) = (if s.eng.tjUnread.testBit p.val then tj.toNat else
        hotter (s.reg .pwr (PWR.TJ_PEAK p.val)) tj.toNat) ∧
      (98000 ≤ count.toNat ∧ count.toNat ≤ 102000 →
        t.reg (.pctl p) PCTL.OC_NOW = 0 ∧ t.reg .dlw (DLW.STATE p.val) = PState.retrain ∧
          (t.reg .pwr PWR.OSC_ERR_P).testBit p.val = false) ∧
      (¬(98000 ≤ count.toNat ∧ count.toNat ≤ 102000) →
        t.reg .dlw (DLW.STATE p.val) = PState.failed ∧ (t.reg .pwr HDR.IRQ_STAT).testBit 3 = true ∧
          (t.reg .dlw HDR.IRQ_STAT).testBit 3 = true ∧ (t.reg .pwr PWR.OSC_ERR_P).testBit p.val = true)) ∧
  (∀ (s : State) (count : BitVec 17) (trim tj : Byte),
    answers (.oscCalibrate 4 count trim tj) s fun t =>
      t.reg .pwr PWR.OSC_CAL_E = count.toNat ∧
      (98000 ≤ count.toNat ∧ count.toNat ≤ 102000 →
        t.eng.inReset = (s.eng.inReset && !s.eng.bootWait) ∧ t.eng.bootWait = false) ∧
      (¬(98000 ≤ count.toNat ∧ count.toNat ≤ 102000) →
        t.eng.inReset = true ∧ (t.reg .pwr HDR.IRQ_STAT).testBit 3 = true)) ∧
  (∀ (s : State) (n : PortId) (count : BitVec 17) (trim tj : Byte), n.val < s.variant.ports →
    answers (.oscCalibrate ⟨n.val + 5, by omega⟩ count trim tj) s fun t =>
      t.reg .pwr (PWR.OSC_CAL_T n.val) = count.toNat ∧
      (t.reg .pwr PWR.OSC_ERR_T).testBit n.val = decide (¬(98000 ≤ count.toNat ∧ count.toNat ≤ 102000)))

/-- R361 to R364, R398: a signal that the mask lets in raises the gate's value, which stops at 2⁶⁴ − 1 with the gate in
its error state, and restarts the silence allowance. One that the mask does not let in changes no gate: it counts in
GT_REFUSED and raises interrupt 18. A signal to a gate that does not exist, or with an increment of 0, changes nothing.
-/
def Obligations.GateSignals : Prop :=
  (∀ (s : State) (p : PartId) (cls : SrcClass) (gate : GateRef) (inc : BitVec 32), pageWritable s (.qmg p) = true →
    inc ≠ 0 → (s.gate p gate).valid = true → (classSignaler cls).allowed (s.gate p gate).cfg gate.global = true →
    answers (.gtSignal p cls gate inc) s fun t =>
      (t.gate p gate).value = min ((s.gate p gate).value + inc.toNat) (2 ^ 64 - 1) ∧
      (t.gate p gate).err = ((s.gate p gate).err || decide (2 ^ 64 - 1 < (s.gate p gate).value + inc.toNat)) ∧
      (t.gate p gate).cfg = (s.gate p gate).cfg ∧ (t.gate p gate).valid = true ∧
      (t.gate p gate).quiet = 0 ∧
      t.reg (.qmg p) QMG.GT_REFUSED = s.reg (.qmg p) QMG.GT_REFUSED ∧
      ∀ r, r.global ≠ gate.global ∨ r.index ≠ gate.index → t.gate p r = s.gate p r) ∧
  (∀ (s : State) (p : PartId) (cls : SrcClass) (gate : GateRef) (inc : BitVec 32), pageWritable s (.qmg p) = true →
    inc ≠ 0 → (s.gate p gate).valid = true → (classSignaler cls).allowed (s.gate p gate).cfg gate.global = false →
    answers (.gtSignal p cls gate inc) s fun t =>
      t.reg (.qmg p) QMG.GT_REFUSED = min (s.reg (.qmg p) QMG.GT_REFUSED + 1) (2 ^ 32 - 1) ∧
      (t.reg (.qmg p) HDR.IRQ_STAT).testBit 18 = true ∧ (∀ q r, t.gate q r = s.gate q r) ∧
      regsKept s t [(.qmg p, QMG.GT_REFUSED), (.qmg p, HDR.IRQ_STAT)] ∧ onlyRegs s t) ∧
  (∀ (s : State) (p : PartId) (cls : SrcClass) (gate : GateRef) (inc : BitVec 32),
    inc = 0 ∨ (s.gate p gate).valid = false ∨ pageWritable s (.qmg p) = false →
    answers (.gtSignal p cls gate inc) s fun t => t = s)

/-- R365, R367, R396: the FW class creates a gate with the value of GT_ARG and the configuration of GT_ARG2, destroys
one that nothing uses, sets a value, takes an error away and puts a gate in its error state, each answered ERR_NONE in
GT_RES. Any other class is answered ERR_GATE_MASK in its own bank and changes no gate. -/
def Obligations.GateOperations : Prop :=
  (∀ (s : State) (p : PartId) (gate : GateRef), pageWritable s (.qmg p) = true → gateInRange gate = true →
    (s.gate p gate).valid = false → cfgBad (fwArg2 s p) gate.global = false →
    answers (.create p .fw gate) s fun t =>
      t.gate p gate = newGate (fwArg2 s p) (fwArg s p) ∧ t.reg (.qmg p) (QMG.GT_RES 2) = Err.none ∧
      (∀ r, r.global ≠ gate.global ∨ r.index ≠ gate.index → t.gate p r = s.gate p r) ∧
      regsKept s t [(.qmg p, QMG.GT_RES 2)] ∧ bytesKept s t) ∧
  (∀ (s : State) (p : PartId) (gate : GateRef), pageWritable s (.qmg p) = true → (s.gate p gate).valid = true →
    gateInUse s p gate = false →
    answers (.destroy p .fw gate) s fun t =>
      (t.gate p gate).valid = false ∧ t.reg (.qmg p) (QMG.GT_RES 2) = Err.none ∧
      (∀ r, r.global ≠ gate.global ∨ r.index ≠ gate.index → t.gate p r = s.gate p r) ∧
      regsKept s t [(.qmg p, QMG.GT_RES 2)] ∧ bytesKept s t) ∧
  (∀ (s : State) (p : PartId) (gate : GateRef), pageWritable s (.qmg p) = true → (s.gate p gate).valid = true →
    answers (.set p .fw gate) s fun t =>
      t.gate p gate = { s.gate p gate with value := fwArg s p % 2 ^ 64 } ∧ t.reg (.qmg p) (QMG.GT_RES 2) = Err.none) ∧
  (∀ (s : State) (p : PartId) (gate : GateRef), pageWritable s (.qmg p) = true → (s.gate p gate).valid = true →
    answers (.clrErr p .fw gate) s fun t =>
      t.gate p gate = { s.gate p gate with err := false } ∧ t.reg (.qmg p) (QMG.GT_RES 2) = Err.none ∧
      regsKept s t [(.qmg p, QMG.GT_RES 2)] ∧ bytesKept s t) ∧
  (∀ (s : State) (p : PartId) (gate : GateRef), pageWritable s (.qmg p) = true → (s.gate p gate).valid = true →
    answers (.setErr p .fw gate) s fun t =>
      t.gate p gate = { s.gate p gate with err := true } ∧ t.reg (.qmg p) (QMG.GT_RES 2) = Err.none) ∧
  (∀ (s : State) (p : PartId) (cls : SrcClass) (gate : GateRef) (c : Instr), pageWritable s (.qmg p) = true → cls ≠ .fw →
    c ∈ [Instr.create p cls gate, .destroy p cls gate, .set p cls gate, .clrErr p cls gate, .setErr p cls gate] →
    answers c s fun t =>
      (∀ q r, t.gate q r = s.gate q r) ∧ onlyRegs s t ∧
      (∀ b, classBank cls = some b → t.reg (.qmg p) (QMG.GT_RES b) = Err.gateMask ∧ regsKept s t [(.qmg p, QMG.GT_RES b)]) ∧
      (classBank cls = none → t = s))

/-- R42, R43, R291, R295, R296, R301, R302, R411: a read whose bursts are stored without an error answers ERR_NONE with
the bytes of those bursts, in order, and changes no byte of memory. A read within one burst that has one wrong symbol
answers the corrected bytes; the corrected burst is written back at once, counting as transient where it then reads
clean, or, where the write-back comes late, waits for it with memory as it was. No other write-back waits. A request
from outside a partition that is not in RUN ends with ERR_FENCED and changes nothing but the response. One that reaches
beyond the usable capacity ends with ERR_ADDR_RANGE; where a tile or Piste sent it, the issuing tile's SPD page, for
Piste that of the partition's tile 0, counts the error and records its address, class and kind. A write within one
burst, whose stored burst has no error or is covered whole, stores its bytes there, and every other data byte of every
channel group reads as before. Where these rules leave a point open it follows the model's reading (log entries 16 and
19). -/
def Obligations.MemoryReadsAndWrites : Prop :=
  (∀ (s : State) (p : PartId) (src : Origin) (off len : Nat) (again : Reread),
    (fromOutside p src.cls src.path = true → open_ s p = true) → off + len ≤ s.variant.capacity →
    burstsClean s p off len →
    answers (.mcRead p src off len [] again) s fun t =>
      t.resp = ⟨Err.none, storedBytes s p off len, false⟩ ∧ bytesKept s t) ∧
  (∀ (s : State) (p : PartId) (src : Origin) (off len pos v : Nat) (again : Reread),
    (fromOutside p src.cls src.path = true → open_ s p = true) → 0 < len → off % 64 + len ≤ 64 → off + len ≤ s.variant.capacity →
    (∀ c, ((s.part p).ctl c).fixups = []) → again.flips = [] →
    let x := interleave s.variant (off - off % 64)
    let w := ((s.part p).ctl x.1).burst x.2
    classify w = .one pos v →
    answers (.mcRead p src off len [] again) s fun t =>
      t.resp = ⟨Err.none, (((correctAt w pos v).take 64).drop (off % 64)).take len, false⟩ ∧
      (again.late = false → ((t.part p).ctl x.1).burst x.2 = correctAt w pos v ∧
        (classify (correctAt w pos v) = .clean →
          t.reg (.mc p x.1) MC.CE = 1 ∧
          t.reg (.mc p x.1) MC.CE_TRANSIENT =
            min (s.reg (.mc p x.1) MC.CE_TRANSIENT + 1) (2 ^ MC.CE_TRANSIENT.width - 1))) ∧
      (again.late = true → ((t.part p).ctl x.1).fixups = [(x.2, pos)] ∧ bytesKept s t)) ∧
  (∀ (s : State) (p : PartId) (src : Origin) (off len : Nat) (bs : List Byte) (fl : List Flip) (again : Reread),
    fromOutside p src.cls src.path = true → open_ s p = false →
    src.cls = 6 ∨ src.cls = 7 ∨ off + len ≤ s.variant.capacity → bs.length = len →
    answers (.mcRead p src off len fl again) s (fun t => t = s.setResponse ⟨Err.fenced, [], false⟩) ∧
    answers (.mcWrite p src off bs fl fl) s (fun t => t = s.setResponse ⟨Err.fenced, [], false⟩)) ∧
  (∀ (s : State) (p : PartId) (src : Origin) (off len : Nat) (bs : List Byte) (fl : List Flip) (again : Reread) (i : Instr),
    (src.cls = 6 ∨ src.cls = 7 → open_ s p = true) → s.variant.capacity < off + len → bs.length = len →
    i = .mcRead p src off len fl again ∨ i = .mcWrite p src off bs fl fl →
    answers i s fun t =>
      (issuingTile p src.cls src.path = none → t = s.setResponse ⟨Err.addrRange, [], false⟩) ∧
      ∀ g, issuingTile p src.cls src.path = some g → let pg : PageId := .tile g .spd
        t.resp = ⟨Err.addrRange, [], false⟩ ∧
        t.reg pg HDR.ERR_CNT = min (s.reg pg HDR.ERR_CNT + 1) (2 ^ 32 - 1) ∧
        t.reg pg SPD.FAULT_ADDR = memAddr p off % 2 ^ 40 ∧ t.reg pg SPD.FAULT_CLASS = src.cls % 2 ^ 4 ∧
        t.reg pg SPD.FAULT_KIND = 3 ∧
        (s.reg pg HDR.ERR_HOLD = 0 → t.reg pg HDR.ERR_VALID = 1) ∧
        regsKept s t ([(pg, SPD.FAULT_ADDR), (pg, SPD.FAULT_CLASS), (pg, SPD.FAULT_KIND)] ++ errFields pg) ∧
        onlyRegs (s.setResponse t.resp) t) ∧
  (∀ (s : State) (p : PartId) (src : Origin) (off : Nat) (bs : List Byte) (again : List Flip),
    (fromOutside p src.cls src.path = true → open_ s p = true) →
    off + bs.length ≤ s.variant.capacity → bs ≠ [] → off % 64 + bs.length ≤ 64 →
    (∀ c, ((s.part p).ctl c).fixups = []) →
    (bs.length = 64 ∨
      classify (((s.part p).ctl (interleave s.variant (off - off % 64)).1).burst (interleave s.variant (off - off % 64)).2) = .clean) →
    answers (.mcWrite p src off bs [] again) s fun t =>
      t.resp = ⟨Err.none, [], false⟩ ∧
      ((t.part p).ctl (interleave s.variant off).1).mem.read (interleave s.variant off).2 bs.length = bs ∧
      (∀ a, a < stackBytes → (a < (interleave s.variant off).2 ∨ (interleave s.variant off).2 + bs.length ≤ a) →
        ((t.part p).ctl (interleave s.variant off).1).mem.get a = ((s.part p).ctl (interleave s.variant off).1).mem.get a) ∧
      (∀ q d, q ≠ p ∨ d ≠ (interleave s.variant off).1 → ((t.part q).ctl d).mem = ((s.part q).ctl d).mem) ∧
      t.tiles = s.tiles)

/-- R170, R303, R306: an atomic add at a burst without error stores, at each word with an addend, the saturating sum,
and answers whether one was clamped; a history push and a history merge answer the word as it was and store what R170
gives. No corrected write-back waits. -/
def Obligations.MemoryAtomicAndHistory : Prop :=
  (∀ (s : State) (p : PartId) (src : Origin) (off : Nat) (adds : Addends), (fromOutside p src.cls src.path = true → open_ s p = true) →
    off + 1 ≤ s.variant.capacity → adds.flips = [] → (∀ c, ((s.part p).ctl c).fixups = []) →
    let v := interleave s.variant (off / 64 * 64)
    classify (((s.part p).ctl v.1).burst v.2) = .clean →
    let r := addBurst (((s.part p).ctl v.1).mem.read v.2 64) (adds.words.map fun a => a.map fun x => x.toInt)
    answers (.mcAtomicAdd p src off adds) s fun t =>
      t.resp = ⟨Err.none, [BitVec.ofNat 8 (b2n r.2)], false⟩ ∧ ((t.part p).ctl v.1).mem.read v.2 64 = r.1 ∧
      t.reg (.mc p v.1) MC.ATOM_ADDS = min (s.reg (.mc p v.1) MC.ATOM_ADDS + 1) (2 ^ MC.ATOM_ADDS.width - 1) ∧
      (r.2 = true → t.reg (.mc p v.1) MC.ATOM_SAT = 1)) ∧
  (∀ (s : State) (p : PartId) (off : Nat) (l : HistoryPush) (h : HistOp),
    (fromOutside p 2 l.path = true → open_ s p = true) → off % 4 = 0 → off + 4 ≤ s.variant.capacity →
    l.flips = [] → (∀ c, ((s.part p).ctl c).fixups = []) →
    let v := interleave s.variant (off / 64 * 64)
    classify (((s.part p).ctl v.1).burst v.2) = .clean →
    let old := ((s.part p).ctl v.1).mem.read (v.2 + off % 64) 4
    answers (match h with | .push => .historyPush p off l | .merge => .historyMerge p off l) s fun t =>
      t.resp = ⟨Err.none, old, false⟩ ∧
      ((t.part p).ctl v.1).mem.read (v.2 + off % 64) 4 = leBytes 4 (h.apply (leNat old) l.byte.toNat))

/-- R288, R294, R300, R306: an eviction takes the oldest buffered burst out of the merge buffer, fetching its check
block where the cache does not hold it, which counts in CHK_MISS; with nothing buffered it changes nothing. A scrub of a
controller with SCRUB_EN goes on to the next data group, and after the last one begins again and counts a pass; an MR4
poll keeps the highest code; a retune changes nothing that can be seen. Where these rules leave a point open it follows
the model's reading (log entries 14, 15 and 118). -/
def Obligations.MemoryUpkeep : Prop :=
  (∀ (s : State) (p : PartId) (c : Fin 2),
    answers (.mergeEvict p c) s fun t =>
      ((t.part p).ctl c).merge = ((s.part p).ctl c).merge.drop 1 ∧
      (∀ b rest, ((s.part p).ctl c).merge = b :: rest → b ∉ rest →
        64 * b / 1280 ∈ ((t.part p).ctl c).cache ∧
        t.reg (.mc p c) MC.CHK_MISS = (if 64 * b / 1280 ∈ ((s.part p).ctl c).cache then s.reg (.mc p c) MC.CHK_MISS else
          min (s.reg (.mc p c) MC.CHK_MISS + 1) (2 ^ MC.CHK_MISS.width - 1))) ∧
      (((s.part p).ctl c).merge = [] → t = s) ∧
      regsKept s t [(.mc p c, MC.CHK_MISS)] ∧ bytesKept s t) ∧
  (∀ (s : State) (p : PartId) (c : Fin 2) (burst : Fin 21) (flips : List Flip) (again : Reread), c.val < s.variant.groups →
    s.reg (.mc p c) MC.SCRUB_EN = 1 → s.reg (.mc p c) MC.SCRUB_POS < dataGroups →
    answers (.mcScrub p c burst flips again) s fun t =>
      t.reg (.mc p c) MC.SCRUB_POS =
        (if s.reg (.mc p c) MC.SCRUB_POS + 1 = dataGroups then 0 else s.reg (.mc p c) MC.SCRUB_POS + 1) ∧
      t.reg (.mc p c) MC.SCRUB_PASSES =
        (if s.reg (.mc p c) MC.SCRUB_POS + 1 = dataGroups then
          min (s.reg (.mc p c) MC.SCRUB_PASSES + 1) (2 ^ MC.SCRUB_PASSES.width - 1)
        else s.reg (.mc p c) MC.SCRUB_PASSES)) ∧
  (∀ (s : State) (p : PartId) (c : Fin 2) (codes : List (BitVec 3)), c.val < s.variant.groups →
    answers (.mr4Poll p c codes) s fun t =>
      (∀ x ∈ codes, x.toNat ≤ t.reg (.mc p c) MC.MR4_RATE) ∧
      (t.reg (.mc p c) MC.MR4_RATE = 0 ∨ ∃ x ∈ codes, x.toNat = t.reg (.mc p c) MC.MR4_RATE) ∧
      t.reg (.mc p c) MC.THROT = b2n (Config.mr4Above (t.reg (.mc p c) MC.MR4_RATE)) ∧
      regsKept s t [(.mc p c, MC.MR4_RATE), (.mc p c, MC.THROT)] ∧ onlyRegs s t) ∧
  (∀ (s : State) (p : PartId) (c : Fin 2), answers (.wck2dqRetune p c) s fun t => t = s)

/-- R39, R43, R250 to R252, R254, R260, R262, R264: a read that its regions grant, of codewords without an error in a
bank that is ON, answers ERR_NONE with the stored bytes, whoever else stands at the bank, as long as nobody writes its
words; where nobody writes at all, no byte of memory changes. A request for one word, a read or a write, that no region
grants ends with ERR_REGION, and one at a bank that is OFF or in retention with ERR_BANK_OFF; a host's ends without an
error, a read of it with zeros. The address, class and kind are recorded, an error is counted, and no byte changes.
Where these rules leave a point open it follows the model's reading (log entry 16). -/
def Obligations.ScratchpadReads : Prop :=
  (∀ (s : State) (g : TileId) (src : Origin) (addr len : Nat) (rivals : List Rival),
    (src.cls = 6 ∨ src.cls = 7 → open_ s (partOf g) = true) → 0 < len → addr + len ≤ 0x400000 →
    (src.cls ≤ 6 → regionOk (s.bank (.tile g .spd)) src.cls .r addr len = true) →
    (∀ a, addr ≤ a → a < addr + len →
      bankStat s g (a / 2 ^ 18) = 0 ∧ classify ((s.tile g).spd.codeword (a / 32)) = .clean) →
    (∀ r ∈ rivals, (∃ n, r.acc = .read n) ∨
      ∀ a, addr ≤ a → a < addr + len → a / 128 ≠ addr / 2 ^ 18 * 2048 + r.word.val) →
    answers (.spdRead g src addr len rivals []) s fun t =>
      t.resp = ⟨Err.none, (s.tile g).spd.data.read addr len, false⟩ ∧
      ((∀ r ∈ rivals, ∃ n, r.acc = .read n) → bytesKept s t)) ∧
  (∀ (s : State) (g : TileId) (src : Origin) (addr len : Nat) (bs : List Byte) (rivals : List Rival) (fl : List Flip)
      (c : Instr) (perm : Perm),
    (c = .spdRead g src addr len rivals fl ∧ perm = .r) ∨ (c = .spdWrite g src addr bs rivals fl ∧ perm = .w) →
    bs.length = len → src.cls ≤ 6 → (src.cls = 6 → open_ s (partOf g) = true) → 0 < len → addr % 128 + len ≤ 128 →
    addr + len ≤ 0x400000 → regionOk (s.bank (.tile g .spd)) src.cls perm addr len = false →
    answers c s fun t =>
      t.resp = (if src.cls = 5 then ⟨Err.none, if perm = .r then List.replicate len 0 else [], false⟩ else ⟨Err.region, [], false⟩) ∧
      t.reg (.tile g .spd) SPD.FAULT_ADDR = addr ∧
      t.reg (.tile g .spd) SPD.FAULT_CLASS = src.cls ∧ t.reg (.tile g .spd) SPD.FAULT_KIND = 0 ∧
      t.reg (.tile g .spd) HDR.ERR_CNT = min (s.reg (.tile g .spd) HDR.ERR_CNT + 1) (2 ^ 32 - 1) ∧ bytesKept s t) ∧
  (∀ (s : State) (g : TileId) (src : Origin) (addr len : Nat) (bs : List Byte) (rivals : List Rival) (fl : List Flip)
      (c : Instr) (perm : Perm),
    (c = .spdRead g src addr len rivals fl ∧ perm = .r) ∨ (c = .spdWrite g src addr bs rivals fl ∧ perm = .w) →
    bs.length = len → src.cls ≤ 8 → (src.cls = 6 ∨ src.cls = 7 → open_ s (partOf g) = true) → 0 < len →
    addr % 128 + len ≤ 128 → addr + len ≤ 0x400000 →
    (src.cls ≤ 6 → regionOk (s.bank (.tile g .spd)) src.cls perm addr len = true) →
    bankStat s g (addr / 2 ^ 18) = 1 ∨ bankStat s g (addr / 2 ^ 18) = 2 →
    answers c s fun t =>
      t.resp = (if src.cls = 5 then ⟨Err.none, if perm = .r then List.replicate len 0 else [], false⟩ else ⟨Err.bankOff, [], false⟩) ∧
      t.reg (.tile g .spd) SPD.FAULT_ADDR = addr ∧
      t.reg (.tile g .spd) SPD.FAULT_CLASS = src.cls ∧ t.reg (.tile g .spd) SPD.FAULT_KIND = 1 ∧
      t.reg (.tile g .spd) HDR.ERR_CNT = min (s.reg (.tile g .spd) HDR.ERR_CNT + 1) (2 ^ 32 - 1) ∧ bytesKept s t)

/-- R251, R252, R260: a write that its regions grant, in banks that are ON and with no error in a codeword it covers in
part, stores its bytes, beside reads at its bank; every other byte of the tile's scratchpad reads as before, and no
other tile changes. -/
def Obligations.ScratchpadWriteStoresBytes : Prop :=
  ∀ (s : State) (g : TileId) (src : Origin) (addr : Nat) (bs : List Byte) (rivals : List Rival),
    (src.cls = 6 ∨ src.cls = 7 → open_ s (partOf g) = true) → bs ≠ [] → addr + bs.length ≤ 0x400000 →
    (src.cls ≤ 6 → regionOk (s.bank (.tile g .spd)) src.cls .w addr bs.length = true) →
    (∀ a, addr ≤ a → a < addr + bs.length → bankStat s g (a / 2 ^ 18) = 0 ∧
      ((addr ≤ a / 32 * 32 ∧ a / 32 * 32 + 32 ≤ addr + bs.length) ∨
        classify ((s.tile g).spd.codeword (a / 32)) = .clean)) →
    (∀ r ∈ rivals, ∃ n, r.acc = .read n) →
    answers (.spdWrite g src addr bs rivals []) s fun t =>
      t.resp = ⟨Err.none, [], false⟩ ∧ (t.tile g).spd.data.read addr bs.length = bs ∧
      (∀ a, a < addr ∨ addr + bs.length ≤ a → (t.tile g).spd.data.get a = (s.tile g).spd.data.get a) ∧
      ∀ h, h ≠ g → t.tile h = s.tile h

/-- R255, R258, R265: the oldest corrected codeword is written back and, where it then reads clean, counts as transient;
the scrubber of a bank that is ON goes on to the next word; a bank that has woken takes the state its active
SPD_BANK_PWR asks for. Where these rules leave a point open it follows the model's reading (log entries 81 and 137). -/
def Obligations.ScratchpadUpkeep : Prop :=
  (∀ (s : State) (g : TileId) (k cls pos v : Nat) (rest : List (Nat × Nat)), (s.tile g).spd.fixups = (k, cls) :: rest →
    bankStat s g (32 * k / 2 ^ 18) = 0 → classify ((s.tile g).spd.codeword k) = .one pos v →
    classify (correctAt ((s.tile g).spd.codeword k) pos v) = .clean →
    answers (.spdEccWriteback g []) s fun t =>
      (t.tile g).spd.codeword k = correctAt ((s.tile g).spd.codeword k) pos v ∧ (t.tile g).spd.fixups = rest ∧
      t.reg (.tile g .spd) SPD.CE = 1 ∧
      t.reg (.tile g .spd) SPD.CE_TRANSIENT = min (s.reg (.tile g .spd) SPD.CE_TRANSIENT + 1) (2 ^ 32 - 1) ∧
      (∀ a, a < 32 * k ∨ 32 * k + 32 ≤ a → (t.tile g).spd.data.get a = (s.tile g).spd.data.get a) ∧
      regsKept s t [(.tile g .spd, SPD.CE), (.tile g .spd, SPD.CE_TRANSIENT)]) ∧
  (∀ (s : State) (g : TileId) (flips : List Flip), s.reg (.tile g .spd) SPD.SCRUB_EN = 1 →
    (s.tile g).spd.scrubNext < 32768 → bankStat s g ((s.tile g).spd.scrubNext / 2048) = 0 →
    answers (.spdScrub g flips) s fun t =>
      (t.tile g).spd.scrubNext = ((s.tile g).spd.scrubNext + 1) % 32768 ∧
      (flips = [] → (t.tile g).spd.data = (s.tile g).spd.data)) ∧
  (∀ (s : State) (g : TileId) (b : Fin 16), bankStat s g b.val = 3 →
    answers (.bankWakeDone g b) s fun t =>
      t.reg (.tile g .spd) (SPD.BANK_STAT b.val) = bankAfterWake s g b.val)

/-- R15, R39, R41, R133, R414, R461: an access to a tile's scratchpad by a master of the tile itself is carried out
there: a read answers the stored bytes and a write stores them; another tile of the partition reads them by the peer
address, and a tile of another partition has no address there: the access ends with ERR_ADDR_RANGE. An aperture access
that is not an aligned one of 32 or 64 bits, or that lies at or above 0x50_0000, meets a decode error; one at a gated
tile, or at no tile, reads zeros and writes nothing; one at a tile of a partition in RUN reads the scratchpad, and one
at a tile of a partition in RESET, RETRAIN or RESTART reads zeros. Where these rules leave a point open it follows the
model's reading (log entries 82, 83 and 138). -/
def Obligations.PeerAndAperture : Prop :=
  (∀ (s : State) (g : TileId) (cls addr len : Nat), 0 < len → addr % 128 + len ≤ 128 → addr + len ≤ 0x400000 →
    regionOk (s.bank (.tile g .spd)) cls .r addr len = true →
    (∀ a, addr ≤ a → a < addr + len →
      bankStat s g (a / 2 ^ 18) = 0 ∧ classify ((s.tile g).spd.codeword (a / 32)) = .clean) →
    answers (.peerAccess g cls g addr (.read len)) s fun t =>
      t.resp = ⟨Err.none, (s.tile g).spd.data.read addr len, false⟩ ∧ bytesKept s t) ∧
  (∀ (s : State) (g : TileId) (cls addr : Nat) (bs : List Byte), bs ≠ [] → addr % 128 + bs.length ≤ 128 →
    addr + bs.length ≤ 0x400000 → regionOk (s.bank (.tile g .spd)) cls .w addr bs.length = true →
    (∀ a, addr ≤ a → a < addr + bs.length →
      bankStat s g (a / 2 ^ 18) = 0 ∧ classify ((s.tile g).spd.codeword (a / 32)) = .clean) →
    answers (.peerAccess g cls g addr (.write bs)) s fun t =>
      t.resp = ⟨Err.none, [], false⟩ ∧ (t.tile g).spd.data.read addr bs.length = bs ∧
      ∀ a, a < addr ∨ addr + bs.length ≤ a → (t.tile g).spd.data.get a = (s.tile g).spd.data.get a) ∧
  (∀ (s : State) (g src : TileId) (cls addr len : Nat), src ≠ g → partOf src = partOf g → 0 < len →
    addr % 128 + len ≤ 128 → addr + len ≤ 0x400000 →
    regionOk (s.bank (.tile src .spd)) cls .r (0x100000000 + localOf g * 0x1000000 + addr) len = true →
    (∀ a, addr ≤ a → a < addr + len →
      bankStat s g (a / 2 ^ 18) = 0 ∧ classify ((s.tile g).spd.codeword (a / 32)) = .clean) →
    answers (.peerAccess g cls src addr (.read len)) s fun t =>
      t.resp = ⟨Err.none, (s.tile g).spd.data.read addr len, false⟩ ∧ bytesKept s t) ∧
  (∀ (s : State) (g src : TileId) (cls addr : Nat) (acc : Access), partOf src ≠ partOf g →
    answers (.peerAccess g cls src addr acc) s fun t =>
      t.resp = ⟨Err.addrRange, [], false⟩ ∧ bytesKept s t ∧
      t.reg (.tile src .spd) SPD.FAULT_ADDR = addr % 2 ^ SPD.FAULT_ADDR.width) ∧
  (∀ (s : State) (p : PartId) (off size : Nat) (acc : Access),
    wellSized off size = false ∨ 0x500000 ≤ off → accessSize acc = size →
    answers (.apertureAccess p off size acc) s fun t => t = s.setResponse ⟨Err.none, [], true⟩) ∧
  (∀ (s : State) (p : PartId) (off size : Nat) (acc : Access), wellSized off size = true → off < 0x500000 →
    accessSize acc = size → (12 ≤ s.reg (.pctl p) PCTL.HWIN_SEL ∨
      (s.reg .pwr (PWR.TILE_GATED p.val)).testBit (s.reg (.pctl p) PCTL.HWIN_SEL) = true) →
    answers (.apertureAccess p off size acc) s fun t => t = s.setResponse ⟨Err.none, accessZeros acc, false⟩) ∧
  (∀ (s : State) (p : PartId) (k : Fin 12) (off size : Nat), wellSized off size = true → off + size ≤ 0x400000 →
    s.reg (.pctl p) PCTL.HWIN_SEL = k.val → (s.reg .pwr (PWR.TILE_GATED p.val)).testBit k.val = false →
    s.reg .dlw (DLW.STATE p.val) = 0 →
    regionOk (s.bank (.tile (tileAt p k) .spd)) 5 .r off size = true → bankStat s (tileAt p k) (off / 2 ^ 18) = 0 →
    classify ((s.tile (tileAt p k)).spd.codeword (off / 32)) = .clean →
    answers (.apertureAccess p off size (.read size)) s fun t =>
      t.resp = ⟨Err.none, (s.tile (tileAt p k)).spd.data.read off size, false⟩ ∧ bytesKept s t) ∧
  (∀ (s : State) (p : PartId) (off size : Nat) (acc : Access), wellSized off size = true → off < 0x500000 →
    accessSize acc = size → s.reg .dlw (DLW.STATE p.val) ∈ [3, 4, 5] →
    answers (.apertureAccess p off size acc) s fun t => t = s.setResponse ⟨Err.none, accessZeros acc, false⟩)

/-- R185, R186: the sequencer reads the next command of the list, in scratchpad, where the lift engine's regions grant
it: the command read joins those read ahead, and the next address is 16 further, or none after LAST. -/
def Obligations.SequencerFetches : Prop :=
  ∀ (s : State) (g : TileId) (pc : Nat), listRuns s g = true → (s.tile g).seq.fetchPc = some pc →
    (s.tile g).seq.ahead.length < 9 → (s.tile g).units.switch = none → pc % 16 = 0 → pc + 16 ≤ 0x400000 →
    regionOk (s.bank (.tile g .spd)) 3 .x pc 16 = true → bankStat s g (pc / 2 ^ 18) = 0 →
    classify ((s.tile g).spd.codeword (pc / 32)) = .clean →
    let w : CmdWord := BitVec.ofNat 128 (leNat ((s.tile g).spd.data.read pc 16))
    answers (.commandFetch g) s fun t =>
      (t.tile g).seq.ahead = (s.tile g).seq.ahead ++ [⟨pc, w, Err.none⟩] ∧
      (t.tile g).seq.fetchPc = (if lastOf w then none else some ((pc + 16) % 2 ^ 40)) ∧
      (t.tile g).units = (s.tile g).units ∧ regsKept s t [] ∧ bytesKept s t

/-- R188, R189, R192 to R194, R373, R479: the command at the head of the sequencer is accepted when it is well formed
and its unit holds fewer than two: it joins the unit, TL_PC goes on by 16, and LAST ends the list; a synchronising
command is accepted by the sequencer itself in the same way. While the unit holds two, nothing is accepted. A command
that is malformed, or whose fetch was refused, stops its tile: CMD_ERR takes the first error of the list, interrupt 1 is
raised, and nothing more is fetched or accepted, while a GATE_SIGNAL or MARK accepted before it goes on waiting; the
job, which had no error before, takes the code as its status, with the tile, and its other tiles are stopped. Where
these rules leave a point open it follows the model's reading (log entry 154). -/
def Obligations.CommandsAcceptedOrMalformed : Prop :=
  (∀ (s : State) (g : TileId) (f : Fetched) (rest : List Fetched) (k : UnitId), tlState s g = TlState.run →
    (s.tile g).seq.sync.any (markWaits s g) = false → (s.tile g).seq.ahead = f :: rest → f.err = Err.none →
    acceptErr f.bits = none → unitOf (opOf f.bits) = some k → k ≠ .seq → ((s.tile g).units.queue k).length < 2 →
    answers (.commandAccept g) s fun t =>
      ((t.tile g).units.queue k).map Active.pc = ((s.tile g).units.queue k).map Active.pc ++ [f.pc] ∧
      ((t.tile g).units.queue k).map Active.bits = ((s.tile g).units.queue k).map Active.bits ++ [f.bits] ∧
      (t.tile g).seq.ahead = rest ∧ (t.tile g).seq.accepted = (s.tile g).seq.accepted + 1 ∧
      (t.tile g).seq.ended = lastOf f.bits ∧ t.reg (.tile g .tl) TL.TL_PC = (f.pc + 16) % 2 ^ 40 ∧
      quietKept s t [(.tile g .tl, TL.TL_PC)]) ∧
  (∀ (s : State) (g : TileId) (f : Fetched) (rest : List Fetched), tlState s g = TlState.run →
    (s.tile g).seq.sync.any (markWaits s g) = false → (s.tile g).seq.ahead = f :: rest → f.err = Err.none →
    acceptErr f.bits = none → unitOf (opOf f.bits) = some .seq → (s.tile g).seq.sync.length < 2 →
    answers (.commandAccept g) s fun t =>
      (t.tile g).seq.accepted = (s.tile g).seq.accepted + 1 ∧ (t.tile g).seq.ended = lastOf f.bits ∧
      t.reg (.tile g .tl) TL.TL_PC = (f.pc + 16) % 2 ^ 40) ∧
  (∀ (s : State) (g : TileId) (f : Fetched) (rest : List Fetched) (k : UnitId), tlState s g = TlState.run →
    (s.tile g).seq.ahead = f :: rest → f.err = Err.none → acceptErr f.bits = none → unitOf (opOf f.bits) = some k →
    2 ≤ ((s.tile g).accepted k).length →
    answers (.commandAccept g) s fun t => t = s) ∧
  (∀ (s : State) (g : TileId) (f : Fetched) (rest : List Fetched) (code : Nat) (j : TileJob), tlState s g = TlState.run →
    (s.tile g).seq.sync.any (markWaits s g) = false → (s.tile g).seq.ahead = f :: rest →
    (f.err = Err.none ∧ acceptErr f.bits = some code) ∨ (f.err ≠ Err.none ∧ f.err = code) → code < 2 ^ 16 →
    (s.tile g).job = some j → (∃ x ∈ (s.part (partOf g)).jobs, x.id = j.id ∧ x.status = Err.none) →
    answers (.commandAccept g) s fun t =>
      t.reg (.tile g .tl) TL.CMD_ERR =
        (if s.reg (.tile g .tl) TL.CMD_ERR = Err.none then code else s.reg (.tile g .tl) TL.CMD_ERR) ∧
      (t.reg (.tile g .tl) HDR.IRQ_STAT).testBit 1 = true ∧
      (t.tile g).seq.ahead = [] ∧ (t.tile g).seq.fetchPc = none ∧
      (t.tile g).seq.sync = ((s.tile g).seq.sync.filter fun c =>
        c.num < (s.tile g).seq.accepted && (c.op = Op.gateSignal || c.op = Op.mark)) ∧
      (tlState t g = TlState.stopping ∨ tlState t g = TlState.stopped) ∧
      ((t.tile g).cmds = [] → (t.tile g).seq.sync = [] → tlState t g = TlState.stopped) ∧
      ((t.tile g).cmds ≠ [] ∨ (t.tile g).seq.sync ≠ [] → tlState t g = TlState.stopping) ∧
      (∃ x ∈ (t.part (partOf g)).jobs, x.id = j.id) ∧
      (∀ x ∈ (t.part (partOf g)).jobs, x.id = j.id → x.status = code ∧ x.errTile = localOf g) ∧
      ∀ h, partOf h = partOf g → h ≠ g → ((s.tile h).job.any fun k => k.id = j.id) = true → listRuns s h = true →
        tlState t h = TlState.stopping ∨ tlState t h = TlState.stopped)

/-- R187, R194, R215, R218, R220: NOP, with opcode 0 and bits [127:16] reserved, completes when it is accepted; a FENCE
completes when the units that it names are empty, and a GATE_WAIT when its gate has reached its threshold; each counts
in TL_CMD_CNT and lets the tile run on. Until then a FENCE or a GATE_WAIT changes nothing. When LAST has been accepted
and every command has completed, the tile is IDLE. Where these rules leave a point open it follows the model's reading
(log entry 154). -/
def Obligations.SynchronisingCommands : Prop :=
  (∀ (s : State) (g : TileId) (f : Fetched) (rest : List Fetched), tlState s g = TlState.run →
    (s.tile g).seq.sync.length < 2 → (∀ c ∈ (s.tile g).seq.sync, c.op ≠ Op.nop ∧ markWaits s g c = false) →
    (s.tile g).seq.ahead = f :: rest → f.err = Err.none → acceptErr f.bits = none → opOf f.bits = Op.nop →
    answers (.nop g) s fun t =>
      t.reg (.tile g .tl) TL.TL_CMD_CNT =
        min (s.reg (.tile g .tl) TL.TL_CMD_CNT + 1) (2 ^ TL.TL_CMD_CNT.width - 1) ∧
      t.reg (.tile g .tl) TL.TL_PC = (f.pc + 16) % 2 ^ 40 ∧ (t.tile g).seq.ahead = rest ∧
      (t.tile g).seq.ended = lastOf f.bits ∧ (t.tile g).seq.sync = (s.tile g).seq.sync ∧
      (t.tile g).units = (s.tile g).units ∧
      regsKept s t [(.tile g .tl, TL.TL_CMD_CNT), (.tile g .tl, TL.TL_PC), (.tile g .tl, HDR.IRQ_STAT)] ∧ bytesKept s t) ∧
  (∀ (s : State) (g : TileId) (c : Active), (s.tile g).seq.sync = [c] → c.op = Op.fence → c.begun = false →
    c.flags = 0 → listRuns s g = true →
    (unitsDone (s.tile g) (fnUnits c.bits) c.num = true →
      answers (.fence g) s fun t =>
        (t.tile g).seq.sync = [] ∧ tlState t g = TlState.run ∧
        t.reg (.tile g .tl) TL.TL_CMD_CNT =
          min (s.reg (.tile g .tl) TL.TL_CMD_CNT + 1) (2 ^ TL.TL_CMD_CNT.width - 1) ∧
        regsKept s t [(.tile g .tl, TL.TL_CMD_CNT), (.tile g .tl, TL.STATE), (.tile g .tl, HDR.IRQ_STAT)] ∧ bytesKept s t) ∧
    (unitsDone (s.tile g) (fnUnits c.bits) c.num = false → answers (.fence g) s fun t => t = s)) ∧
  (∀ (s : State) (g : TileId) (c : Active), (s.tile g).seq.sync = [c] → c.op = Op.gateWait → c.begun = false →
    c.flags = 0 → listRuns s g = true →
    (s.gate (partOf g) (gtRef c.bits)).valid = true → (s.gate (partOf g) (gtRef c.bits)).err = false →
    (waitThreshold c.bits (s.reg (.tile g .tl) TL.TL_JOB_SEQ) ≤ (s.gate (partOf g) (gtRef c.bits)).value →
      answers (.gateWait g) s fun t =>
        (t.tile g).seq.sync = [] ∧ tlState t g = TlState.run ∧
        t.reg (.tile g .tl) TL.TL_CMD_CNT =
          min (s.reg (.tile g .tl) TL.TL_CMD_CNT + 1) (2 ^ TL.TL_CMD_CNT.width - 1) ∧
        (∀ q r, t.gate q r = s.gate q r) ∧
        regsKept s t [(.tile g .tl, TL.TL_CMD_CNT), (.tile g .tl, TL.STATE), (.tile g .tl, HDR.IRQ_STAT)] ∧ bytesKept s t) ∧
    ((s.gate (partOf g) (gtRef c.bits)).value < waitThreshold c.bits (s.reg (.tile g .tl) TL.TL_JOB_SEQ) →
      answers (.gateWait g) s fun t => t = s)) ∧
  (∀ (s : State) (g : TileId), listRuns s g = true → (s.tile g).seq.ended = true → (s.tile g).seq.sync = [] →
    (s.tile g).cmds = [] →
    answers (.listEnd g) s fun t =>
      tlState t g = TlState.idle ∧ regsKept s t [(.tile g .tl, TL.STATE)] ∧ onlyRegs s t) ∧
  ((∀ w : CmdWord, opOf w = Op.nop → (opOf w = 0 ∧ (fld w 127 16 ≠ 0 → acceptErr w ≠ none))))

/-- R217, R219, R362, R364, R392, R469: a GATE_SIGNAL on the same device, once every earlier command has completed, adds
its increment to the gate that its queue may signal, and completes. A MARK, once the commands before it have completed
where it asks for that and the trace ring has room where it must, goes on in the trace ring and completes; with ALERT
set it asserts the alert source. Where these rules leave a point open it follows the model's reading (log entries 73 and
131). -/
def Obligations.SignalAndMark : Prop :=
  (∀ (s : State) (g : TileId) (c : Active) (j : TileJob), (s.tile g).seq.sync = [c] → c.op = Op.gateSignal →
    c.begun = false → c.flags = 0 → listRuns s g = true → unitsDone (s.tile g) 7 c.num = true → gsRemote c.bits = false → (s.part (partOf g)).replaying = none →
    (s.tile g).job = some j →
    let x := s.gate (partOf g) (gtRef c.bits)
    x.valid = true → x.err = false → (Signaler.queue (partOf g) j.queue).allowed x.cfg (gtRef c.bits).global = true →
    x.value + gsInc c.bits < 2 ^ 64 →
    answers (.gateSignal g) s fun t =>
      (t.gate (partOf g) (gtRef c.bits)).value = x.value + gsInc c.bits ∧
      (t.gate (partOf g) (gtRef c.bits)).err = false ∧
      (t.tile g).seq.sync = [] ∧ tlState t g = TlState.run ∧
      t.reg (.tile g .tl) TL.TL_CMD_CNT = min (s.reg (.tile g .tl) TL.TL_CMD_CNT + 1) (2 ^ TL.TL_CMD_CNT.width - 1) ∧
      (∀ r, r.global ≠ (gtRef c.bits).global ∨ r.index ≠ (gtRef c.bits).index → t.gate (partOf g) r = s.gate (partOf g) r)) ∧
  (∀ (s : State) (g : TileId) (c : Active) (off : Nat), (s.tile g).seq.sync = [c] → c.op = Op.mark →
    c.begun = false → c.flags = 0 → listRuns s g = true →
    (mkAfter c.bits = true → unitsDone (s.tile g) 7 c.num = true) →
    (s.reg (.pctl (partOf g)) PCTL.TR_MODE = 1 → traceFull s (partOf g) = false) →
    pccTarget s.variant (trAddr s (partOf g)) = some (.pmem (partOf g) off) →
    answers (.mark g) s fun t =>
      t.reg (.pctl (partOf g)) PCTL.TR_HEAD = (s.reg (.pctl (partOf g)) PCTL.TR_HEAD + 1) % 2 ^ 32 ∧
      (t.tile g).seq.sync = [] ∧ tlState t g = TlState.run ∧
      t.reg (.tile g .tl) TL.TL_CMD_CNT = min (s.reg (.tile g .tl) TL.TL_CMD_CNT + 1) (2 ^ TL.TL_CMD_CNT.width - 1) ∧
      (mkAlert c.bits = true → t.reg .pwr PWR.SRC_MARK = 1) ∧
      t.reg (.pctl (partOf g)) PCTL.TR_LOST =
        (if traceFull s (partOf g) then min (s.reg (.pctl (partOf g)) PCTL.TR_LOST + 1) (2 ^ PCTL.TR_LOST.width - 1)
         else s.reg (.pctl (partOf g)) PCTL.TR_LOST))

/-- R91 to R93, R107, R108, R112: the window takes the step images of the super-chunk, as the array unit's read of
WSTREAM answers them, and the command's position, tables and lanes stay. Where the stream lies in scratchpad and is
served, the window takes the bytes stored there and no register changes. A build writes the 16 tables of a step into the
next half, each entry with its residue, posts TABLE_READY for that half and goes on to the other half; the rest of the
table store stays. Where the activation codes lie in scratchpad and the builder is served, the tables are those of the
codes stored there. -/
def Obligations.WindowAndTables : Prop :=
  (∀ (s s' : State) (g : TileId) (c : Active) (r : ArrayRun) (bs : List Byte), arrayAt s g c r → fillsOp c.op = true →
    r.pos.done (rowCount c.bits r) = false → r.window ≠ some (r.pos.rb, r.pos.sc) → r.retry = none →
    (ownReq g 0 0).read (wstreamOf c.bits + 1024 * (r.pos.sc * pOf c.bits)) (1024 * stepsIn c.bits r.pos.sc)
      (dropUsed s) = .ok bs s' →
    answers (.windowLoad g) s fun t =>
      (t.tile g).arr = { (s'.tile g).arr with window := bs } ∧
      (t.tile g).units.arrayRun = (s'.tile g).units.arrayRun.map (fun r => { r with window := some (r.pos.rb, r.pos.sc) }) ∧
      regsKept s' t [] ∧ bytesKept s' t ∧ (∀ h, h ≠ g → t.tile h = s'.tile h) ∧ t.parts = s'.parts ∧ t.ports = s'.ports) ∧
  (∀ (s : State) (g : TileId) (c : Active) (r : ArrayRun), arrayAt s g c r → fillsOp c.op = true →
    r.pos.done (rowCount c.bits r) = false → r.window ≠ some (r.pos.rb, r.pos.sc) → r.retry = none →
    let a := wstreamOf c.bits + 1024 * (r.pos.sc * pOf c.bits)
    let n := 1024 * stepsIn c.bits r.pos.sc
    spdServes s g 0 .r a n →
    answers (.windowLoad g) s fun t =>
      (t.tile g).arr = { (s.tile g).arr with window := (s.tile g).spd.data.read a n } ∧
      (t.tile g).units = { (s.tile g).units with arrayRun := some { r with window := some (r.pos.rb, r.pos.sc) } } ∧
      regsKept s t [] ∧ bytesKept s t ∧ (∀ h, h ≠ g → t.tile h = s.tile h) ∧ t.parts = s.parts ∧ t.ports = s.ports) ∧
  (∀ (s s' : State) (g : TileId) (c : Active) (r : ArrayRun) (a : Nat → Int), arrayAt s g c r → c.op = Op.sweep →
    r.pos.done (rowCount c.bits r) = false → r.bpos.done (rowCount c.bits r) = false → r.retry = none →
    (s.tile g).arr.ready.length < 2 →
    sweepCodes g c.bits r.desc r.bpos.row (r.bpos.step c.bits) (dropUsed s) = .ok a s' →
    let es := buildEntries c.bits (r.bpos.step c.bits) a (bookBytesOf (s'.tile g) (stepBook c.bits (r.bpos.step c.bits)))
    let h := s'.reg (.tile g .lut) LUT.NEXT_HALF
    answers (.buildTables g) s fun t =>
      (t.tile g).arr.table.read (512 * h) 512 = es.flatMap (fun e => leBytes 2 (uns 16 e)) ∧
      (t.tile g).arr.residues.read (256 * h) 256 = es.map (fun e => BitVec.ofNat 8 (res255 e)) ∧
      (∀ x, x < 512 * h ∨ 512 * h + 512 ≤ x → (t.tile g).arr.table.get x = (s'.tile g).arr.table.get x) ∧
      (t.tile g).arr.ready = (s'.tile g).arr.ready ++ [h] ∧ (t.tile g).arr.lanes = (s'.tile g).arr.lanes ∧
      t.reg (.tile g .lut) LUT.NEXT_HALF = 1 - h ∧ regsKept s' t [(.tile g .lut, LUT.NEXT_HALF)] ∧
      (∀ k, k ≠ g → t.tile k = s'.tile k) ∧ t.parts = s'.parts ∧ t.ports = s'.ports) ∧
  (∀ (s : State) (g : TileId) (c : Active) (r : ArrayRun), arrayAt s g c r → c.op = Op.sweep →
    r.pos.done (rowCount c.bits r) = false → r.bpos.done (rowCount c.bits r) = false → r.retry = none →
    (s.tile g).arr.ready.length < 2 →
    let n := r.bpos.step c.bits
    let k := stepCodes (wfmtOf c.bits) n
    let l := (List.range k.2).map fun i => sweepCode r.desc (afmtOf c.bits) r.bpos.row (k.1 + i)
    codesServed s g l →
    let es := buildEntries c.bits n (fun i => (l.map (codeHere s g (afmtOf c.bits))).getD (i - k.1) 0)
      (bookBytesOf (s.tile g) (stepBook c.bits n))
    let h := s.reg (.tile g .lut) LUT.NEXT_HALF
    answers (.buildTables g) s fun t =>
      (t.tile g).arr.table.read (512 * h) 512 = es.flatMap (fun e => leBytes 2 (uns 16 e)) ∧
      (t.tile g).arr.residues.read (256 * h) 256 = es.map (fun e => BitVec.ofNat 8 (res255 e)) ∧
      (∀ x, x < 512 * h ∨ 512 * h + 512 ≤ x → (t.tile g).arr.table.get x = (s.tile g).arr.table.get x) ∧
      (t.tile g).arr.ready = (s.tile g).arr.ready ++ [h] ∧ (t.tile g).arr.lanes = (s.tile g).arr.lanes ∧
      t.reg (.tile g .lut) LUT.NEXT_HALF = 1 - h ∧ regsKept s t [(.tile g .lut, LUT.NEXT_HALF)] ∧
      (t.tile g).spd.data = (s.tile g).spd.data ∧ (∀ k, k ≠ g → t.tile k = s.tile k) ∧ t.parts = s.parts)

/-- R88, R97, R106, R111 to R113, R117, R223: a step of a row's pass, its last step included, adds to every lane its 16
weighted lookups in the oldest built half, with their residues, and frees that half; the pass's first step starts from
lanes of 0. A byte of bad parity reloads the window from the stream and marks the lanes that own it. Any step but the
last goes on to the next; the last then compares the residues, where a lane that owns a byte of bad parity mismatches:
without a mismatch the row's lane values are handed to promotion and the next row's pass begins, with one a retry with
that set M begins. Where these rules leave a point open it follows the model's reading (log entry 163). -/
def Obligations.LookupSteps : Prop :=
  (∀ (s : State) (g : TileId) (c : Active) (r : ArrayRun) (h : Nat) (rest : List Nat) (ups : List Upset), arrayAt s g c r →
    c.op = Op.sweep → stepReady c.bits r = true → (s.tile g).arr.ready = h :: rest →
    let a := wstreamOf c.bits + 1024 * (r.pos.sc * pOf c.bits)
    let n := 1024 * stepsIn c.bits r.pos.sc
    parityLanes ups 0 = [] ∨ spdServes s g 0 .r a n →
    let m := { (s.tile g).arr with
      window := if parityLanes ups 0 = [] then (s.tile g).arr.window else (s.tile g).spd.data.read a n }
    let old : List Lane := if r.pos.q = 0 then List.replicate 128 ⟨0, 0⟩ else m.laneRow r.pos.r
    let sums := (imageIndices (m.image r.pos.q)).map (laneLookups (halfTables m h)
      ((List.range 16).map fun k => planeWeight (wfmtOf c.bits) (16 * r.pos.step c.bits + k)))
    answers (.runStep g ups) s fun t =>
      (∀ (l : Nat) (x : Lane) (y : Int × Int), old[l]? = some x → sums[l]? = some y →
        ((t.tile g).arr.laneRow r.pos.r)[l]? =
          some (⟨held 22 (held 22 (x.v + y.1) + upsetOf ups 0 l), res255 (x.res + y.2)⟩ : Lane)) ∧
      (t.tile g).arr.ready = rest ∧ (t.tile g).arr.table = m.table ∧ (t.tile g).arr.window = m.window ∧
      t.reg (.tile g .lut) LUT.LUT_BUSY =
        min (s.reg (.tile g .lut) LUT.LUT_BUSY + 1) (2 ^ LUT.LUT_BUSY.width - 1) ∧
      (r.pos.q + 1 < stepsIn c.bits r.pos.sc →
        (t.tile g).units.arrayRun.map ArrayRun.pos = some { r.pos with q := r.pos.q + 1 } ∧
        t.reg (.tile g .lut) LUT.RETRY = s.reg (.tile g .lut) LUT.RETRY) ∧
      (t.tile g).units.arrayRun.map ArrayRun.parity = some ((if r.pos.q = 0 then [] else r.parity) ++ parityLanes ups 0) ∧
      regsKept s t [(.tile g .lut, LUT.LUT_BUSY), (.tile g .lut, LUT.RETRY)] ∧ bytesKept s t ∧
      (∀ k, k ≠ g → t.tile k = s.tile k) ∧
      t.parts = s.parts ∧ t.ports = s.ports) ∧
  (∀ (s : State) (g : TileId) (c : Active) (r : ArrayRun) (ups : List Upset), arrayAt s g c r → c.op = Op.sweep →
    stepReady c.bits r = true → (s.tile g).arr.ready ≠ [] → stepsIn c.bits r.pos.sc ≤ r.pos.q + 1 →
    parityLanes ups 0 = [] ∨
      spdServes s g 0 .r (wstreamOf c.bits + 1024 * (r.pos.sc * pOf c.bits)) (1024 * stepsIn c.bits r.pos.sc) →
    answers (.runStep g ups) s fun t =>
      let old (l : List Nat) : List Nat := if r.pos.q = 0 then [] else l
      let m := mismatches { (t.tile g).arr with inject := (s.tile g).arr.inject } r.pos.r
        ((old r.parity ++ parityLanes ups 0) ++ old r.missed)
      (t.tile g).arr.inject = none ∧
      (m = [] → t.reg (.tile g .lut) LUT.RETRY = 0 ∧ ∃ r', (t.tile g).units.arrayRun = some r' ∧
        r'.promo = r.promo ++ [⟨row0Of c.bits + r.pos.row,
          ((t.tile g).arr.laneRow r.pos.r).zipIdx.map fun e => (e.2, e.1.v)⟩] ∧
        r'.retry = none ∧ r'.pos = r.pos.nextRow c.bits (nrowsOf c.bits)) ∧
      (m ≠ [] → t.reg (.tile g .lut) LUT.RETRY = 1 ∧ ∃ r', (t.tile g).units.arrayRun = some r' ∧
        r'.promo = r.promo ∧ r'.retry = some ⟨m, 0⟩ ∧ r'.pos = r.pos))

/-- R64, R103, R112, R117, R198: a direct-mode step, the last of a pass included, adds to every lane the four products
of its int8 weights and its channel's codes, with their residues, whether or not bad parity has reloaded the window. Any
step but the last goes on to the next. -/
def Obligations.DirectStepAddsProducts : Prop :=
  (∀ (s s' : State) (g : TileId) (c : Active) (r : ArrayRun) (cs : List (List Int)) (ups : List Upset), arrayAt s g c r →
    c.op = Op.direct → stepReady c.bits r = true →
    (do clearLanes g r.pos
        parityCheck g c.bits r.pos 0 ups
        mapAll (List.range 4) (fun i => readCodes (ownReq g 1 0) (afmtOf c.bits)
          ((List.range 128).map fun l => directCode r.desc (afmtOf c.bits) r.pos.row l (4 * r.pos.step c.bits + i))))
      (dropUsed s) = .ok cs s' →
    answers (.directStep g ups) s fun t =>
      (∀ l x w, l < 128 → ((s'.tile g).arr.laneRow r.pos.r)[l]? = some x →
        (chunks 8 128 ((s'.tile g).arr.image r.pos.q))[l]? = some w →
        let y (i : Nat) : Int := sext 8 (w.getD i 0).toNat * (cs.getD i []).getD l 0
        ∃ n, ((t.tile g).arr.laneRow r.pos.r)[l]? =
          some ⟨held 22 (held 22 (x.v + (y 0 + y 1 + y 2 + y 3)) + upsetOf ups 0 l), n⟩) ∧
      (r.pos.q + 1 < stepsIn c.bits r.pos.sc →
        (t.tile g).units.arrayRun.map ArrayRun.pos = some { r.pos with q := r.pos.q + 1 } ∧ regsKept s' t []) ∧
      regsKept s' t [(.tile g .lut, LUT.RETRY)] ∧ bytesKept s' t ∧ (∀ k, k ≠ g → t.tile k = s'.tile k) ∧
      t.parts = s'.parts) ∧
  (∀ (s : State) (g : TileId) (c : Active) (r : ArrayRun) (ups : List Upset), arrayAt s g c r → c.op = Op.direct →
    stepReady c.bits r = true →
    let a := wstreamOf c.bits + 1024 * (r.pos.sc * pOf c.bits)
    let n := 1024 * stepsIn c.bits r.pos.sc
    parityLanes ups 0 = [] ∨ spdServes s g 0 .r a n →
    let m := { (s.tile g).arr with
      window := if parityLanes ups 0 = [] then (s.tile g).arr.window else (s.tile g).spd.data.read a n }
    let code (i l : Nat) : Option CodeAt := directCode r.desc (afmtOf c.bits) r.pos.row l (4 * r.pos.step c.bits + i)
    (∀ i, i < 4 → codesServed s g ((List.range 128).map (code i))) →
    let old : List Lane := if r.pos.q = 0 then List.replicate 128 ⟨0, 0⟩ else (s.tile g).arr.laneRow r.pos.r
    answers (.directStep g ups) s fun t =>
      (∀ l x w, l < 128 → old[l]? = some x → (chunks 8 128 (m.image r.pos.q))[l]? = some w →
        let y (i : Nat) : Int := sext 8 (w.getD i 0).toNat * codeHere s g (afmtOf c.bits) (code i l)
        ((t.tile g).arr.laneRow r.pos.r)[l]? = some (⟨held 22 (held 22 (x.v + (y 0 + y 1 + y 2 + y 3)) + upsetOf ups 0 l),
          res255 (x.res + (res255 (y 0) + res255 (y 1) + res255 (y 2) + res255 (y 3) : Nat))⟩ : Lane)) ∧
      (r.pos.q + 1 < stepsIn c.bits r.pos.sc →
        (t.tile g).units.arrayRun.map ArrayRun.pos = some { r.pos with q := r.pos.q + 1 } ∧ regsKept s t []) ∧
      regsKept s t [(.tile g .lut, LUT.RETRY)] ∧ bytesKept s t ∧ (∀ k, k ≠ g → t.tile k = s.tile k) ∧ t.parts = s.parts)

/-- R117, R225, R227, R230 to R232, R235: a BIN step, the last of a pass included, writes into its staging pair, for
every slot and index, the sum of the gradient codes of the lanes whose index at the slot it is; it counts, and what it
promotes waits for the pass to compare clean. The last step compares: without a mismatch what the pass promotes is
handed over and the next row's pass begins; with one a retry begins. Where the gradient lies in scratchpad, is served
and carries the uniform scale or reads as 0, those codes are the ones stored there. Where these rules leave a point open
it follows the model's reading (log entries 133, 163, 168 and 169). -/
def Obligations.BinStepFormsBins : Prop :=
  (∀ (s s' s'' : State) (g : TileId) (c : Active) (r : ArrayRun) (gs : List Int) (a : Nat → Int) (ups : List Upset),
    arrayAt s g c r → c.op = Op.bin → stepReady c.bits r = true → 4 ≤ row0Of c.bits + nrowsOf c.bits →
    (do clearLanes g r.pos
        parityCheck g c.bits r.pos 0 ups
        gradCodes g r.grad r.pos.row) (dropUsed s) = .ok gs s' →
    binCodes g c.bits r r.pos s' = .ok a s'' →
    let row := stagingRow c.bits r r.pos
    let ix := imageIndices ((s''.tile g).arr.image r.pos.q)
    answers (.binStep g ups) s fun t =>
      (∀ k x, k < 16 → x < 16 →
        ((t.tile g).acc (cBufOf c.bits)).entry (row + k / 8) (16 * (k % 8) + x) =
          held 32 ((binContribs ix gs k x).foldl (· + ·) 0 + binUpset ups 0 k x)) ∧
      (∀ e, e < 512 * row ∨ 512 * row + 1024 ≤ e →
        ((t.tile g).acc (cBufOf c.bits)).mem.get e = ((s''.tile g).acc (cBufOf c.bits)).mem.get e) ∧
      ((t.tile g).acc (cBufOf c.bits)).rows = ((s''.tile g).acc (cBufOf c.bits)).rows ∧
      t.reg (.tile g .dbg) DBG.BIN_STEPS =
        min (s''.reg (.tile g .dbg) DBG.BIN_STEPS + 1) (2 ^ DBG.BIN_STEPS.width - 1) ∧
      (r.pos.q + 1 < stepsIn c.bits r.pos.sc →
        ((s''.tile g).units.arrayRun.isSome = true →
          (t.tile g).units.arrayRun.map ArrayRun.pos = some { r.pos with q := r.pos.q + 1 }) ∧
        (t.tile g).units.arrayRun.map ArrayRun.pair = (s''.tile g).units.arrayRun.map ArrayRun.pair ∧
        t.reg (.tile g .lut) LUT.RETRY = s''.reg (.tile g .lut) LUT.RETRY) ∧
      (stepsIn c.bits r.pos.sc ≤ r.pos.q + 1 → ∀ r', (t.tile g).units.arrayRun = some r' →
        let m := mismatches { (t.tile g).arr with inject := (s''.tile g).arr.inject } r.pos.r (r'.parity ++ r'.missed)
        (m = [] → r'.retry = none ∧ r'.held = [] ∧ r'.pos = r.pos.nextRow c.bits (rowCount c.bits r) ∧
          t.reg (.tile g .lut) LUT.RETRY = 0) ∧
        (m ≠ [] → r'.retry = some ⟨m, 0⟩ ∧ r'.pos = r.pos ∧ t.reg (.tile g .lut) LUT.RETRY = 1)) ∧
      regsKept s'' t [(.tile g .dbg, DBG.BIN_STEPS), (.tile g .dbg, DBG.BIN_CONFLICT), (.tile g .lut, LUT.RETRY),
        (.tile g .lut, LUT.NEXT_HALF)] ∧
      (∀ k, k ≠ g → t.tile k = s''.tile k) ∧ t.parts = s''.parts) ∧
  (∀ (s : State) (g : TileId) (c : Active) (r : ArrayRun) (ups : List Upset), arrayAt s g c r → c.op = Op.bin →
    centroidOf c.bits = false → stepReady c.bits r = true → 4 ≤ row0Of c.bits + nrowsOf c.bits →
    let wa := wstreamOf c.bits + 1024 * (r.pos.sc * pOf c.bits)
    let wn := 1024 * stepsIn c.bits r.pos.sc
    parityLanes ups 0 = [] ∨ spdServes s g 0 .r wa wn →
    let w := { (s.tile g).arr with
      window := if parityLanes ups 0 = [] then (s.tile g).arr.window else (s.tile g).spd.data.read wa wn }
    let n := Grad.row0 r.grad + r.pos.row
    let pitch := codeBytes (Grad.fmt r.grad) 128
    let sa := gradBlock r.grad n + 2 * (n % 16)
    let ca := gradBlock r.grad n + 64 + n % 16 * pitch
    spdServes s g 0 .r sa 2 → spdServes s g 0 .r ca pitch →
    leNat ((s.tile g).spd.data.read sa 2) = Grad.gscale r.grad ∨ leNat ((s.tile g).spd.data.read sa 2) / 2048 = 0 →
    let bs := (s.tile g).spd.data.read ca pitch
    let gs := if Grad.fmt r.grad = 1 then bs.flatMap fun x => [codeVal 1 false x, codeVal 1 true x]
      else bs.map (codeVal 0 false)
    let row := stagingRow c.bits r r.pos
    let ix := imageIndices (w.image r.pos.q)
    answers (.binStep g ups) s fun t =>
      (∀ k x, k < 16 → x < 16 →
        ((t.tile g).acc (cBufOf c.bits)).entry (row + k / 8) (16 * (k % 8) + x) =
          held 32 ((binContribs ix gs k x).foldl (· + ·) 0 + binUpset ups 0 k x)) ∧
      (∀ e, e < 512 * row ∨ 512 * row + 1024 ≤ e →
        ((t.tile g).acc (cBufOf c.bits)).mem.get e = ((s.tile g).acc (cBufOf c.bits)).mem.get e) ∧
      ((t.tile g).acc (cBufOf c.bits)).rows = ((s.tile g).acc (cBufOf c.bits)).rows ∧
      (∃ (r' : ArrayRun) (vs : List (Nat × Int)), (t.tile g).units.arrayRun = some r' ∧
        let waits := (if r.pos.q = 0 then [] else r.held) ++ [⟨row0Of c.bits + r.pos.row, vs⟩]
        let m := mismatches { (t.tile g).arr with inject := (s.tile g).arr.inject } r.pos.r (r'.parity ++ r'.missed)
        (∀ l ∈ parityLanes ups 0, l ∈ r'.parity) ∧
        (r.pos.q + 1 < stepsIn c.bits r.pos.sc → r'.pos = { r.pos with q := r.pos.q + 1 } ∧ r'.pair = r.pair ∧
          r'.held = waits) ∧
        (stepsIn c.bits r.pos.sc ≤ r.pos.q + 1 → m = [] → r'.retry = none ∧ r'.promo = r.promo ++ waits ∧
          r'.pos = r.pos.nextRow c.bits (rowCount c.bits r)) ∧
        (stepsIn c.bits r.pos.sc ≤ r.pos.q + 1 → m ≠ [] → r'.retry = some ⟨m, 0⟩ ∧ r'.promo = r.promo ∧
          r'.pos = r.pos)) ∧
      t.reg (.tile g .dbg) DBG.BIN_STEPS =
        min (s.reg (.tile g .dbg) DBG.BIN_STEPS + 1) (2 ^ DBG.BIN_STEPS.width - 1) ∧
      regsKept s t [(.tile g .dbg, DBG.BIN_STEPS), (.tile g .dbg, DBG.BIN_CONFLICT), (.tile g .lut, LUT.RETRY)] ∧
      (∀ k, k ≠ g → t.tile k = s.tile k) ∧ t.parts = s.parts)

/-- R113 to R117, R426: a retry runs the row's pass again and compares. Clean, it counts one transient event, ends the
retry and hands the row to promotion; with mismatches outside M it counts a transient event too, and M becomes what it
found, but the third such retry ends the command; with a mismatch at a lane of M it counts a lasting event, records the
lane, marks the tile FAULTED and ends the command. Where these rules leave a point open it follows the model's reading
(log entries 162 and 167). -/
def Obligations.ResidueRetryClasses : Prop :=
  (∀ (s : State) (g : TileId) (c : Active) (r : ArrayRun) (y : Retry) (ups : List Upset), arrayAt s g c r →
    c.op = Op.sweep → r.retry = some y → r.pos.done (rowCount c.bits r) = false → 0 < stepsIn c.bits r.pos.sc →
    (∀ q, q < stepsIn c.bits r.pos.sc →
      let n := r.pos.sc * pOf c.bits + q
      let k := stepCodes (wfmtOf c.bits) n
      parityLanes ups q = [] ∧
        codesServed s g ((List.range k.2).map fun i => sweepCode r.desc (afmtOf c.bits) r.pos.row (k.1 + i))) →
    answers (.residueRetry g ups) s fun t =>
      let m := mismatches { (t.tile g).arr with inject := (s.tile g).arr.inject } r.pos.r []
      let transient := t.reg (.tile g .lut) LUT.RES_TRANSIENT =
        min (s.reg (.tile g .lut) LUT.RES_TRANSIENT + 1) (2 ^ LUT.RES_TRANSIENT.width - 1)
      (t.tile g).arr.inject = none ∧
      (m = [] → transient ∧ t.reg (.tile g .lut) LUT.RETRY = 0 ∧ ∃ r', (t.tile g).units.arrayRun = some r' ∧
        r'.retry = none ∧ r'.pos = r.pos.nextRow c.bits (rowCount c.bits r) ∧
        r'.promo = r.promo ++ [⟨row0Of c.bits + r.pos.row,
          ((t.tile g).arr.laneRow r.pos.r).zipIdx.map fun e => (e.2, e.1.v)⟩]) ∧
      (m ≠ [] → m.filter y.lanes.contains = [] → transient ∧
        (y.made + 1 < 3 → (t.tile g).units.arrayRun.map ArrayRun.retry = some (some ⟨m, y.made + 1⟩)) ∧
        (3 ≤ y.made + 1 → (t.tile g).units.array = [] ∧ t.reg (.tile g .lut) LUT.RETRY = 0)) ∧
      ∀ lane ls, m.filter y.lanes.contains = lane :: ls →
        t.reg (.tile g .lut) LUT.RES_LASTING =
          min (s.reg (.tile g .lut) LUT.RES_LASTING + 1) (2 ^ LUT.RES_LASTING.width - 1) ∧
        (s.reg (.tile g .lut) HDR.ERR_HOLD = 0 → t.reg (.tile g .lut) LUT.F_LANE = lane % 2 ^ LUT.F_LANE.width) ∧
        t.reg (.tile g .lut) LUT.RETRY = 0 ∧ t.eng.faulted.contains g.val = true ∧ (t.tile g).units.array = []) ∧
  (∀ (s s' : State) (g : TileId) (c : Active) (r r' : ArrayRun) (y : Retry) (ups : List Upset), arrayAt s g c r →
    r.retry = some y → rerunPass g c.bits r.desc { r.pos with q := 0 } ups (dropUsed s) = .ok () s' →
    (s'.tile g).units.arrayRun = some r' → mismatches (s'.tile g).arr r.pos.r (r'.parity ++ r'.missed) = [] →
    (opOf c.bits = Op.bin → r'.held ≠ []) →
    answers (.residueRetry g ups) s fun t =>
      t.reg (.tile g .lut) LUT.RES_TRANSIENT =
        min (s'.reg (.tile g .lut) LUT.RES_TRANSIENT + 1) (2 ^ LUT.RES_TRANSIENT.width - 1) ∧
      t.reg (.tile g .lut) LUT.RETRY = 0 ∧ (t.tile g).arr.inject = none ∧
      ((t.tile g).units.arrayRun.any fun x => x.retry.isNone && x.pos = r.pos.nextRow c.bits (rowCount c.bits r)) = true ∧
      regsKept s' t [(.tile g .lut, LUT.RES_TRANSIENT), (.tile g .lut, LUT.RETRY)]) ∧
  (∀ (s s' : State) (g : TileId) (c : Active) (r r' : ArrayRun) (y : Retry) (ups : List Upset) (lane : Nat) (ls : List Nat),
    arrayAt s g c r → r.retry = some y → rerunPass g c.bits r.desc { r.pos with q := 0 } ups (dropUsed s) = .ok () s' →
    (s'.tile g).units.arrayRun = some r' →
    (mismatches (s'.tile g).arr r.pos.r (r'.parity ++ r'.missed)).filter y.lanes.contains = lane :: ls →
    answers (.residueRetry g ups) s fun t =>
      t.reg (.tile g .lut) LUT.RES_LASTING =
        min (s'.reg (.tile g .lut) LUT.RES_LASTING + 1) (2 ^ LUT.RES_LASTING.width - 1) ∧
      (s'.reg (.tile g .lut) HDR.ERR_HOLD = 0 → t.reg (.tile g .lut) LUT.F_LANE = lane % 2 ^ LUT.F_LANE.width) ∧
      t.reg (.tile g .lut) LUT.RETRY = 0 ∧ t.eng.faulted.contains g.val = true ∧ (t.tile g).units.array = [])

/-- R120, R126 to R129, R137, R145, R146: a promotion takes the oldest row handed over, shifts and rounds its values
with dither fields drawn for it, adds or writes them into the target buffer's row and counts in PROMO_CNT. Under NEAREST
it draws nothing, and its result depends on the values, the row and S alone. -/
def Obligations.PromotionIntoBuffer : Prop :=
  ∀ (s : State) (g : TileId) (c : Active) (r : ArrayRun) (pr : Promo) (rest : List Promo), arrayAt s g c r →
    r.promo = pr :: rest →
    let stoch : Bool := s.reg (.tile g .tl) TL.MODE.active = 0
    let k := sOf c.bits
    let ws := drawWords (if stoch && k ≠ 0 then 32 else 0) (s.tile g).dither
    let x := ((s.tile g).acc (cBufOf c.bits)).promote pr.row (!accOf c.bits && !r.touched.contains pr.row) k
      (pr.vals.map fun e => (e.1, shiftRound stoch k (ditherField ws.1 e.1) e.2))
    answers (.promotion g) s fun t =>
      (t.tile g).acc (cBufOf c.bits) = x.1 ∧ (t.tile g).dither = ws.2 ∧
      t.reg (.tile g .acc) ACC.PROMO_CNT =
        min (s.reg (.tile g .acc) ACC.PROMO_CNT + 1) (2 ^ ACC.PROMO_CNT.width - 1) ∧
      t.reg (.tile g .acc) ACC.SAT_EVENTS =
        (if x.2.1 then min (s.reg (.tile g .acc) ACC.SAT_EVENTS + 1) (2 ^ ACC.SAT_EVENTS.width - 1)
         else s.reg (.tile g .acc) ACC.SAT_EVENTS) ∧
      (x.2.1 = true → t.reg (.tile g .acc) (ACC.ACC_SAT (cBufOf c.bits)) = 1) ∧
      (stoch = false → (t.tile g).dither = (s.tile g).dither ∧
        (t.tile g).acc (cBufOf c.bits) = (((s.tile g).acc (cBufOf c.bits)).promote pr.row
          (!accOf c.bits && !r.touched.contains pr.row) k (pr.vals.map fun e => (e.1, shiftRound false k 0 e.2))).1) ∧
      (rest ≠ [] ∨ r.pos.done (rowCount c.bits r) = false →
        (t.tile g).units.arrayRun.map ArrayRun.promo = some rest ∧ (t.tile g).units.array.length = (s.tile g).units.array.length ∧
        (t.tile g).spd = (s.tile g).spd ∧ (∀ h, h ≠ g → t.tile h = s.tile h) ∧ t.parts = s.parts)

/-- R106, R126, R146, R188, R195: SWEEP, DIRECT and BIN complete when their last promotion has been made: the row's
values stand in the target buffer, the command leaves the array unit and counts in TL_CMD_CNT. Where these rules leave a
point open it follows the model's reading (log entry 8). -/
def Obligations.SweepDirectBinComplete : Prop :=
  ∀ (s : State) (g : TileId) (i : Instr) (c : Active) (r : ArrayRun) (pr : Promo),
    (i = .sweep g ∧ c.op = Op.sweep) ∨ (i = .direct g ∧ c.op = Op.direct) ∨ (i = .bin g ∧ c.op = Op.bin) →
    (s.tile g).units.array = [c] → arrayAt s g c r → r.promo = [pr] → r.held = [] →
    r.pos.done (rowCount c.bits r) = true →
    let stoch : Bool := s.reg (.tile g .tl) TL.MODE.active = 0
    let k := sOf c.bits
    let ws := drawWords (if stoch && k ≠ 0 then 32 else 0) (s.tile g).dither
    let x := ((s.tile g).acc (cBufOf c.bits)).promote pr.row (!accOf c.bits && !r.touched.contains pr.row) k
      (pr.vals.map fun e => (e.1, shiftRound stoch k (ditherField ws.1 e.1) e.2))
    answers i s fun t =>
      (t.tile g).acc (cBufOf c.bits) = x.1 ∧ (t.tile g).units.array = [] ∧ (t.tile g).units.arrayRun = none ∧
      t.reg (.tile g .tl) TL.TL_CMD_CNT = min (s.reg (.tile g .tl) TL.TL_CMD_CNT + 1) (2 ^ TL.TL_CMD_CNT.width - 1) ∧
      (irqOf c.bits = true → (t.reg (.tile g .tl) HDR.IRQ_STAT).testBit 0 = true) ∧
      (x.2.2.testBit 0 = true → t.reg (.tile g .tl) TL.ACC_SAT = 1) ∧
      ((s.tile g).units.cnv = [] → (t.tile g).spd = (s.tile g).spd ∧ ∀ h, h ≠ g → t.tile h = s.tile h)

/-- R82, R87, R132, R147, R161, R163: what was held goes on when nothing holds it any longer: a command that no earlier
command of the tile holds back passes its hold, a DRAIN among them reading its descriptor and channel records, and a
write held by the book store or by a LUT takes effect. -/
def Obligations.HeldWorkIsReleased : Prop :=
  (∀ (s : State) (g : TileId), answers (.accHoldRelease g) s fun t =>
      (∀ c, c ∈ (s.tile g).cmds → (s.tile g).heldBack c = false → c.released = false →
        { c with released := true, bufs := if c.op = Op.update then (s.tile g).keeps c else c.bufs } ∈ (t.tile g).cmds) ∧
      (∀ c, c ∈ (s.tile g).cmds → (s.tile g).heldBack c = true ∨ c.released = true → c ∈ (t.tile g).cmds) ∧
      quietKept s t [] ∧ ((s.tile g).units.cnv = [] → regsKept s t [] ∧ bytesKept s t)) ∧
  (∀ (s : State) (g : TileId) (c : Active), (s.tile g).units.cnv = [c] → c.op = Op.drain → c.released = false →
    (s.tile g).heldBack c = false → (s.tile g).units.latched.look c.num = none → spdServes s g 2 .r (drDesc c.bits) 64 →
    let d := leNat ((s.tile g).spd.data.read (drDesc c.bits) 64)
    (convErr d = none → recordBytes d = 0 ∨ spdServes s g 2 .r (Conv.param d) (recordBytes d)) →
    answers (.accHoldRelease g) s fun t =>
      (t.tile g).units.latched.look c.num = some ⟨d, if convErr d = none then
        (s.tile g).spd.data.read (Conv.param d) (recordBytes d) else [], Err.none, true⟩ ∧
      (t.tile g).units.cnv = [{ c with released := true }] ∧ regsKept s t [] ∧ bytesKept s t) ∧
  (∀ (s : State) (g : TileId) (w : HeldWrite), (s.tile g).books.held = [w] → (s.tile g).bookBusy (w.addr / 128) = false →
    answers (.bookWriteRelease g) s fun t =>
      (t.tile g).books = { (s.tile g).books.store w.addr w.bytes with held := [] } ∧
      (t.tile g).books.mem.read w.addr w.bytes.length = w.bytes ∧ regsKept s t [] ∧ (t.tile g).units = (s.tile g).units) ∧
  (∀ (s : State) (g : TileId) (w : HeldWrite), (s.tile g).books.heldLut = [w] → (s.tile g).lutBusy (w.addr / 256) = false →
    answers (.lutWriteRelease g) s fun t =>
      (t.tile g).books.luts.read w.addr w.bytes.length = w.bytes ∧ (t.tile g).books.heldLut = [] ∧
      (t.tile g).books.mem = (s.tile g).books.mem ∧ regsKept s t [] ∧ (t.tile g).units = (s.tile g).units)

/-- R243 to R246: UPDATE skips an element whose gradient row carries SAT or S_MIX, and steps any other: both moments are
mapped back into their books, and the parameter takes its clamped step. When no element is left UPDATE completes. Where
these rules leave a point open it follows the model's reading (log entry 12). -/
def Obligations.UpdateElementSteps : Prop :=
  (∀ (s : State) (g : TileId) (c : Active) (r : ArrayRun) (e : Nat), arrayAt s g c r → c.op = Op.update →
    c.released = true → updNext (s.tile g) c.bits r.desc r.elem = some e → updNext (s.tile g) c.bits r.desc (e + 1) ≠ none →
    let x := ((s.tile g).acc (Upd.buf r.desc)).row (updPlace (s.tile g) c.bits r.desc e).row
    x.sat = true ∨ x.sMix = true →
    answers (.updateElement g) s fun t =>
      t.reg (.tile g .dbg) DBG.UPD_SKIP = min (s.reg (.tile g .dbg) DBG.UPD_SKIP + 1) (2 ^ DBG.UPD_SKIP.width - 1) ∧
      (t.tile g).units.arrayRun.map ArrayRun.elem = some (e + 1) ∧ bytesKept s t ∧
      regsKept s t [(.tile g .dbg, DBG.UPD_SKIP)] ∧ (∀ h, h ≠ g → t.tile h = s.tile h) ∧ t.parts = s.parts) ∧
  (∀ (s s' t1 : State) (g : TileId) (c : Active) (r : ArrayRun) (e c1 c2 : Nat) (p : Int), arrayAt s g c r →
    c.op = Op.update → updTgt c.bits = 0 → c.released = true → updNext (s.tile g) c.bits r.desc r.elem = some e →
    updNext (s.tile g) c.bits r.desc (e + 1) ≠ none →
    let d := r.desc
    let k := updPlace (s.tile g) c.bits d e
    let b := (s.tile g).acc (Upd.buf d)
    (b.row k.row).sat = false → (b.row k.row).sMix = false →
    (do let x ← (ownReq g 1 0).readNat (Upd.m1code d + e) 1
        let y ← (ownReq g 1 0).readNat (Upd.m2code d + e) 1
        let z ← updRead g c.bits d e
        return (x, y, z) : M (Nat × Nat × Int)) (dropUsed s) = .ok (c1, c2, p) s' →
    let stoch : Bool := s.reg (.tile g .tl) TL.MODE.active = 0
    let ws := drawWords (if stoch then 1 else 0) (s.tile g).dither
    let field (i : Nat) : Nat := bitsAt (ws.1.getD 0 0).toNat (16 * i) 16
    let es1 := (leWords r.m1).map (sext 32)
    let es2 := (leWords (r.m2.take 1024)).map Int.ofNat
    let recs := (leWords (r.m2.drop 1024)).map Int.ofNat
    let mv := updMoments d k.bias (es1.getD c1 0) (es2.getD c2 0) (b.entry k.row k.lane) (b.row k.row).s
    let n1 := mapEntry stoch es1 mv.1 (field 0)
    let n2 := mapEntry stoch es2 mv.2 (field 1)
    let raw := updStepped stoch p (updDelta d k.bias (es1.getD n1.1 0) (recs.getD n2.1 0)) (field 2)
    let s1 := (s'.setTile g { s'.tile g with dither := ws.2 }).count (.tile g .dbg) DBG.MOM_CLIPS (b2n n1.2 + b2n n2.2)
    let s2 := if raw < k.lo || k.hi < raw then s1.count (.tile g .dbg) DBG.PAR_CLAMP 1 else s1
    (do (ownReq g 1 0).write (Upd.m1code d + e) [BitVec.ofNat 8 n1.1]
        (ownReq g 1 0).write (Upd.m2code d + e) [BitVec.ofNat 8 n2.1] : M Unit) s2 = .ok () t1 →
    updNext (t1.tile g) c.bits d (e + 1) ≠ none →
    answers (.updateElement g) s fun t =>
      (t.tile g).books.mem.get (128 * bkBook c.bits + e) = BitVec.ofNat 8 (uns 8 (clampI k.lo k.hi raw)) ∧
      (∀ x, x ≠ 128 * bkBook c.bits + e → (t.tile g).books.mem.get x = (t1.tile g).books.mem.get x) ∧
      (t.tile g).books.tags = (t1.tile g).books.tags ∧ (t.tile g).spd = (t1.tile g).spd ∧
      t.reg (.tile g .dbg) DBG.UPD_ELEMS =
        min (t1.reg (.tile g .dbg) DBG.UPD_ELEMS + 1) (2 ^ DBG.UPD_ELEMS.width - 1)) ∧
  (∀ (s : State) (g : TileId) (c : Active) (r : ArrayRun) (e : Nat), arrayAt s g c r → c.op = Op.update →
    updTgt c.bits = 0 → c.released = true → updNext (s.tile g) c.bits r.desc r.elem = some e →
    updNext (s.tile g) c.bits r.desc (e + 1) ≠ none →
    let d := r.desc
    let k := updPlace (s.tile g) c.bits d e
    let b := (s.tile g).acc (Upd.buf d)
    (b.row k.row).sat = false → (b.row k.row).sMix = false → Upd.m1code d ≠ Upd.m2code d →
    (∀ a, a = Upd.m1code d + e ∨ a = Upd.m2code d + e → spdServes s g 1 .r a 1 ∧ spdServes s g 1 .w a 1) →
    let stoch : Bool := s.reg (.tile g .tl) TL.MODE.active = 0
    let ws := drawWords (if stoch then 1 else 0) (s.tile g).dither
    let field (i : Nat) : Nat := bitsAt (ws.1.getD 0 0).toNat (16 * i) 16
    let es1 := (leWords r.m1).map (sext 32)
    let es2 := (leWords (r.m2.take 1024)).map Int.ofNat
    let recs := (leWords (r.m2.drop 1024)).map Int.ofNat
    let code (a : Nat) : Nat := ((s.tile g).spd.data.get (a + e)).toNat
    let mv := updMoments d k.bias (es1.getD (code (Upd.m1code d)) 0) (es2.getD (code (Upd.m2code d)) 0)
      (b.entry k.row k.lane) (b.row k.row).s
    let n1 := mapEntry stoch es1 mv.1 (field 0)
    let n2 := mapEntry stoch es2 mv.2 (field 1)
    let raw := updStepped stoch (sext 8 ((s.tile g).books.mem.get (128 * bkBook c.bits + e)).toNat)
      (updDelta d k.bias (es1.getD n1.1 0) (recs.getD n2.1 0)) (field 2)
    answers (.updateElement g) s fun t =>
      (t.tile g).spd.data.get (Upd.m1code d + e) = BitVec.ofNat 8 n1.1 ∧
      (t.tile g).spd.data.get (Upd.m2code d + e) = BitVec.ofNat 8 n2.1 ∧
      (∀ x, x ≠ Upd.m1code d + e → x ≠ Upd.m2code d + e → (t.tile g).spd.data.get x = (s.tile g).spd.data.get x) ∧
      (t.tile g).books.mem.get (128 * bkBook c.bits + e) = BitVec.ofNat 8 (uns 8 (clampI k.lo k.hi raw)) ∧
      (∀ x, x ≠ 128 * bkBook c.bits + e → (t.tile g).books.mem.get x = (s.tile g).books.mem.get x) ∧
      (t.tile g).books.tags = (s.tile g).books.tags ∧ (t.tile g).dither = ws.2 ∧
      (t.tile g).units.arrayRun.map ArrayRun.elem = some (e + 1) ∧
      t.reg (.tile g .dbg) DBG.UPD_ELEMS =
        min (s.reg (.tile g .dbg) DBG.UPD_ELEMS + 1) (2 ^ DBG.UPD_ELEMS.width - 1) ∧
      regsKept s t [(.tile g .dbg, DBG.UPD_ELEMS), (.tile g .dbg, DBG.MOM_CLIPS), (.tile g .dbg, DBG.PAR_CLAMP)]) ∧
  (∀ (s : State) (g : TileId) (c : Active) (r : ArrayRun) (e : Nat), (s.tile g).units.array = [c] → arrayAt s g c r →
    c.op = Op.update → c.released = true → updNext (s.tile g) c.bits r.desc r.elem = some e →
    updNext (s.tile g) c.bits r.desc (e + 1) = none →
    (((s.tile g).acc (Upd.buf r.desc)).row (updPlace (s.tile g) c.bits r.desc e).row).sat = true →
    answers (.update g) s fun t =>
      t.reg (.tile g .dbg) DBG.UPD_SKIP = min (s.reg (.tile g .dbg) DBG.UPD_SKIP + 1) (2 ^ DBG.UPD_SKIP.width - 1) ∧
      (t.tile g).units.array = [] ∧ (t.tile g).units.arrayRun = none ∧
      t.reg (.tile g .tl) TL.TL_CMD_CNT = min (s.reg (.tile g .tl) TL.TL_CMD_CNT + 1) (2 ^ TL.TL_CMD_CNT.width - 1) ∧
      t.reg (.tile g .tl) TL.ACC_SAT = 1 ∧ ((s.tile g).units.cnv = [] → (t.tile g).spd = (s.tile g).spd))

/-- R121, R137, R164, R174: the arithmetic of promotion and conversion. With S = 0 a promoted value is exact; under
STOCH it rounds up exactly when the dither value is 2^S − f or more, which f of the 2^S values are, and under NEAREST to
the nearest integer with ties to even. The promoted entry is the sum, or ±(2³¹ − 1) where the sum reaches it; a
saturated entry stays under an adding promotion. A requantised value is the exact product, shifted left, or shifted
right and rounded to the nearest integer with ties to even, plus B; a code never leaves ±Q. -/
def Obligations.ConversionArithmetic : Prop :=
  (∀ (e : Int) (r k : Nat), Param.sh r ≤ k → requant e r k = e * Param.m r * 2 ^ (k - Param.sh r) + Param.b r) ∧
  (∀ (e : Int) (r k : Nat), k < Param.sh r →
    let d : Int := 2 ^ (Param.sh r - k)
    let y0 := requant e r k - Param.b r
    2 * (e * Param.m r - y0 * d) ≤ d ∧ -d ≤ 2 * (e * Param.m r - y0 * d) ∧
      (2 * (e * Param.m r - y0 * d) = d ∨ 2 * (e * Param.m r - y0 * d) = -d → y0 % 2 = 0)) ∧
  (∀ (stoch : Bool) (field : Nat) (v : Int), shiftRound stoch 0 field v = v) ∧
  (∀ (k field : Nat) (v q f : Int), 0 < k → k ≤ 15 → field < 2 ^ 16 → v = q * 2 ^ k + f → 0 ≤ f → f < 2 ^ k →
    let d : Nat := field >>> (16 - k)
    d < 2 ^ k ∧ shiftRound true k field v = (if 2 ^ k - f ≤ d then q + 1 else q) ∧
      2 ^ k * shiftRound true k field v ≤ v + d ∧ v + d < 2 ^ k * (shiftRound true k field v + 1) ∧
      ((List.range (2 ^ k)).filter fun (x : Nat) => decide (2 ^ k - f ≤ (x : Int))).length = f.toNat) ∧
  (∀ (k field : Nat) (v : Int), 0 < k →
    let e : Int := v - 2 ^ k * shiftRound false k field v
    2 * e ≤ 2 ^ k ∧ -2 ^ k ≤ 2 * e ∧ (2 * e = 2 ^ k ∨ 2 * e = -2 ^ k → shiftRound false k field v % 2 = 0)) ∧
  (∀ (sr : Bool) (q field : Nat) (r : Frac), -(q : Int) ≤ (codeOf sr q field r).1 ∧ (codeOf sr q field r).1 ≤ q) ∧
  (∀ (fresh : Bool) (old u : Int), let t := if fresh then u else old + u
    let m : Int := 2 ^ 31 - 1
    fresh = true ∨ (old ≠ m ∧ old ≠ -m) →
      (m ≤ t → promoteEntry fresh old u = (m, true)) ∧ (t ≤ -m → promoteEntry fresh old u = (-m, true)) ∧
      (-m < t ∧ t < m → promoteEntry fresh old u = (t, false))) ∧
  (∀ u : Int, promoteEntry false (2 ^ 31 - 1) u = (2 ^ 31 - 1, true) ∧
    promoteEntry false (-(2 ^ 31 - 1)) u = (-(2 ^ 31 - 1), true))

/-- R155, R157, R158, R171, R178, R187, R208: a row that DRAIN reads is written at its record, a raw row as the buffer's
bytes and a converted row as the codes that requantisation, rotation, scale and quantisation give; ROW and ROWS_DRAINED
count it. A history reply lets the row that waits for it go out. After the last row, zero records and the header DRAIN
completes. Each is said of a destination in scratchpad that is served, and of a raw row for any destination whose writes
are carried out. Where these rules leave a point open it follows the model's reading (log entries 8 and 74). -/
def Obligations.DrainWritesRows : Prop :=
  (∀ (s : State) (g : TileId) (c : Active) (r : DrainRun), (s.tile g).head .cnv = some c → c.op = Op.drain →
    (s.tile g).units.drain = some r → Conv.ofmt r.desc = 2 → r.hist = [] → r.next + 1 < nrowsOf c.bits →
    r.next % 16 ≠ 15 → r.done ≠ nrowsOf c.bits →
    let a := drRecord c.bits r.desc r.next
    spdServes s g 2 .w a 512 →
    answers (.drainRow g) s fun t =>
      (t.tile g).spd.data.read a 512 = ((s.tile g).acc (drBuf c.bits)).mem.read ((row0Of c.bits + r.next) * 512) 512 ∧
      (∀ x, x < a ∨ a + 512 ≤ x → (t.tile g).spd.data.get x = (s.tile g).spd.data.get x) ∧
      (∃ r', (t.tile g).units.drain = some r' ∧ r'.next = r.next + 1 ∧ r'.done = r.next + 1 ∧ r'.hist = []) ∧
      t.reg (.tile g .cnv) CNV.ROW = (r.next + 1) % 2 ^ CNV.ROW.width ∧ t.reg (.tile g .cnv) CNV.WWAIT = 0 ∧
      t.reg (.tile g .cnv) CNV.ROWS_DRAINED =
        min (s.reg (.tile g .cnv) CNV.ROWS_DRAINED + 1) (2 ^ CNV.ROWS_DRAINED.width - 1) ∧
      regsKept s t [(.tile g .cnv, CNV.ROW), (.tile g .cnv, CNV.WWAIT), (.tile g .cnv, CNV.HWAIT),
        (.tile g .cnv, CNV.ROWS_DRAINED)] ∧ t.parts = s.parts) ∧
  (∀ (s s' : State) (g : TileId) (c : Active) (r : DrainRun), (s.tile g).head .cnv = some c → c.op = Op.drain →
    (s.tile g).units.drain = some r → Conv.ofmt r.desc = 2 → r.hist = [] → r.next + 1 < nrowsOf c.bits →
    r.next % 16 ≠ 15 → r.done ≠ nrowsOf c.bits →
    let row := row0Of c.bits + r.next
    drWrite g (drRecord c.bits r.desc r.next) (((s.tile g).acc (drBuf c.bits)).mem.read (row * 512) 512)
      ((do cnvStep g (drBegin g)
           cnvStep g (drRow g) : M Unit).after s) = .ok () s' →
    answers (.drainRow g) s fun t =>
      (t.tile g).spd = (s'.tile g).spd ∧ t.parts = s'.parts ∧
      t.reg (.tile g .cnv) CNV.ROW = (r.next + 1) % 2 ^ CNV.ROW.width ∧ t.reg (.tile g .cnv) CNV.WWAIT = 0 ∧
      regsKept s' t [(.tile g .cnv, CNV.ROW), (.tile g .cnv, CNV.WWAIT), (.tile g .cnv, CNV.HWAIT),
        (.tile g .cnv, CNV.ROWS_DRAINED)]) ∧
  (∀ (s : State) (g : TileId) (c : Active) (r : DrainRun), (s.tile g).head .cnv = some c → c.op = Op.drain →
    (s.tile g).units.drain = some r → Conv.ofmt r.desc ≠ 2 → convErr r.desc = none → Conv.hist r.desc = false →
    r.hist = [] → r.next + 1 < nrowsOf c.bits → r.next % 16 ≠ 15 → r.done ≠ nrowsOf c.bits →
    let row := row0Of c.bits + r.next
    let a := drRecord c.bits r.desc r.next
    spdServes s g 2 .w a (drPitch r.desc) →
    answers (.drainRow g) s fun t => ∃ (x : DrainedRow) (s1 : State),
      (do let zs ← convertRow g (drBuf c.bits) row r.desc r.params
          quantise g r.desc zs (((s.tile g).acc (drBuf c.bits)).row row).sat none : M DrainedRow) s = .ok x s1 ∧
      (t.tile g).spd.data.read a (drPitch r.desc) = x.bytes ∧
      (∀ y, y < a ∨ a + drPitch r.desc ≤ y → (t.tile g).spd.data.get y = (s.tile g).spd.data.get y) ∧
      t.reg (.tile g .cnv) CNV.ROW = (r.next + 1) % 2 ^ CNV.ROW.width ∧
      (∃ r', (t.tile g).units.drain = some r' ∧ r'.done = r.next + 1 ∧ r'.hist = []) ∧
      (0 < x.clips → t.reg (.tile g .tl) TL.CLIP = 1) ∧ (t.tile g).dither = (s1.tile g).dither ∧ t.parts = s.parts) ∧
  (∀ (s : State) (g : TileId) (c : Active) (r : DrainRun) (h : HistRow) (rest : List HistRow),
    (s.tile g).head .cnv = some c → c.op = Op.drain → (s.tile g).units.drain = some r → r.hist = h :: rest →
    h.arrived = false → Conv.ofmt r.desc ≠ 2 → convErr r.desc = none → Conv.hist r.desc = true →
    h.vals.length = Conv.chans r.desc → h.row + 1 < nrowsOf c.bits → h.row % 16 ≠ 15 → r.done ≠ nrowsOf c.bits →
    let a := drRecord c.bits r.desc h.row
    spdServes s g 2 .w a (drPitch r.desc) →
    answers (.historyReply g) s fun t => ∃ (x : DrainedRow) (s1 : State),
      quantise g r.desc h.vals h.sat (some h.reply) s = .ok x s1 ∧
      (t.tile g).spd.data.read a (drPitch r.desc) = x.bytes ∧
      (∀ y, y < a ∨ a + drPitch r.desc ≤ y → (t.tile g).spd.data.get y = (s.tile g).spd.data.get y) ∧
      t.reg (.tile g .cnv) CNV.ROW = (h.row + 1) % 2 ^ CNV.ROW.width ∧
      t.reg (.tile g .cnv) CNV.HWAIT = b2n (rest.any fun k => !k.arrived) ∧
      (∃ r', (t.tile g).units.drain = some r' ∧ r'.hist = rest ∧ r'.done = h.row + 1) ∧ t.parts = s.parts) ∧
  (∀ (s : State) (g : TileId) (c : Active) (r : DrainRun), (s.tile g).units.cnv = [c] → c.op = Op.drain →
    (s.tile g).units.latched.look c.num ≠ none → (s.tile g).units.drain = some r → Conv.ofmt r.desc = 2 → r.hist = [] →
    r.next + 1 = nrowsOf c.bits → r.done ≠ nrowsOf c.bits → r.header.length = 64 →
    let k := r.next % 16
    let row := row0Of c.bits + r.next
    let b := (s.tile g).acc (drBuf c.bits)
    let a := drBlock c.bits r.next
    spdServes s g 2 .w a 8256 →
    answers (.drain g) s fun t =>
      (t.tile g).spd.data.read (a + 64 + 512 * k) 512 = b.mem.read (row * 512) 512 ∧
      (∀ x, a + 64 + 512 * (k + 1) ≤ x → x < a + 8256 → (t.tile g).spd.data.get x = 0) ∧
      (t.tile g).spd.data.read a 64 = headerRow (if k = 0 then absentHeader r.desc else r.header) k
        ((b.row row).s + b2n (b.row row).sat * 2 ^ 14) 0 ∧
      (∀ x, x < a ∨ a + 8256 ≤ x ∨ (a + 64 ≤ x ∧ x < a + 64 + 512 * k) →
        (t.tile g).spd.data.get x = (s.tile g).spd.data.get x) ∧
      (t.tile g).units.cnv = [] ∧ (t.tile g).units.drain = none ∧ t.reg (.tile g .cnv) CNV.BUSY = 0 ∧
      t.reg (.tile g .tl) TL.TL_CMD_CNT = min (s.reg (.tile g .tl) TL.TL_CMD_CNT + 1) (2 ^ TL.TL_CMD_CNT.width - 1) ∧
      t.parts = s.parts)

/-- R180, R183, R209: STAT copies a statistics context, clears it where it asks for that, writes the record and
completes; a write of CNV_STAT_SNAP copies a context into the snapshot registers, and clears it where bit 8 is 1. -/
def Obligations.StatisticsContexts : Prop :=
  (∀ (s s' : State) (g : TileId) (c : Active), (s.tile g).units.cnv = [c] → c.op = Op.stat → c.released = true →
    (ownReq g 2 1).write (stDst c.bits) (statRecord (s.bank (.tile g .cnv)) (stCtx c.bits))
      ((if stClear c.bits then clearCtx g (stCtx c.bits) else pure ()).after s) = .ok () s' →
    answers (.stat g) s fun t =>
      (t.tile g).spd = (s'.tile g).spd ∧ t.parts = s'.parts ∧ (t.tile g).units.cnv = [] ∧
      t.reg (.tile g .tl) TL.TL_CMD_CNT = min (s'.reg (.tile g .tl) TL.TL_CMD_CNT + 1) (2 ^ TL.TL_CMD_CNT.width - 1) ∧
      (stClear c.bits = true → t.reg (.tile g .cnv) (CNV.CTX_SSE (stCtx c.bits)) = 0 ∧
        t.reg (.tile g .cnv) (CNV.CTX_SAMPLES (stCtx c.bits)) = 0 ∧ t.reg (.tile g .cnv) (CNV.CTX_CLIPS (stCtx c.bits)) = 0 ∧
        t.reg (.tile g .cnv) (CNV.CTX_DEGEN (stCtx c.bits)) = 0)) ∧
  (∀ (s : State) (g : TileId) (c : Active), (s.tile g).units.cnv = [c] → c.op = Op.stat → c.released = true →
    let k := stCtx c.bits
    spdServes s g 2 .w (stDst c.bits) 32 →
    answers (.stat g) s fun t =>
      (t.tile g).spd.data.read (stDst c.bits) 32 = statRecord (s.bank (.tile g .cnv)) k ∧
      (∀ x, x < stDst c.bits ∨ stDst c.bits + 32 ≤ x → (t.tile g).spd.data.get x = (s.tile g).spd.data.get x) ∧
      (t.tile g).units.cnv = [] ∧
      t.reg (.tile g .tl) TL.TL_CMD_CNT = min (s.reg (.tile g .tl) TL.TL_CMD_CNT + 1) (2 ^ TL.TL_CMD_CNT.width - 1) ∧
      (∀ f ∈ [CNV.CTX_SSE k, CNV.CTX_SAMPLES k, CNV.CTX_CLIPS k, CNV.CTX_DEGEN k],
        t.reg (.tile g .cnv) f = (if stClear c.bits then 0 else s.reg (.tile g .cnv) f)) ∧ t.parts = s.parts) ∧
  (∀ (s : State) (g : TileId) (v : BitVec 32), pageWritable s (.tile g .cnv) = true →
    let k := bitsAt v.toNat 0 3
    answers (.cnvStatSnap g v) s fun t =>
      t.reg (.tile g .cnv) CNV.SNAP_SSE = s.reg (.tile g .cnv) (CNV.CTX_SSE k) % 2 ^ CNV.SNAP_SSE.width ∧
      t.reg (.tile g .cnv) CNV.SNAP_SAMPLES = s.reg (.tile g .cnv) (CNV.CTX_SAMPLES k) % 2 ^ CNV.SNAP_SAMPLES.width ∧
      t.reg (.tile g .cnv) CNV.SNAP_CLIPS = s.reg (.tile g .cnv) (CNV.CTX_CLIPS k) % 2 ^ CNV.SNAP_CLIPS.width ∧
      t.reg (.tile g .cnv) CNV.SNAP_DEGEN = s.reg (.tile g .cnv) (CNV.CTX_DEGEN k) % 2 ^ CNV.SNAP_DEGEN.width ∧
      t.reg (.tile g .cnv) (CNV.CTX_SSE k) = (if v.toNat.testBit 8 then 0 else s.reg (.tile g .cnv) (CNV.CTX_SSE k)) ∧
      regsKept s t [(.tile g .cnv, CNV.SNAP_SSE), (.tile g .cnv, CNV.SNAP_SAMPLES), (.tile g .cnv, CNV.SNAP_CLIPS),
        (.tile g .cnv, CNV.SNAP_DEGEN), (.tile g .cnv, CNV.CTX_SSE k), (.tile g .cnv, CNV.CTX_SAMPLES k),
        (.tile g .cnv, CNV.CTX_CLIPS k), (.tile g .cnv, CNV.CTX_DEGEN k)] ∧ onlyRegs s t) ∧
  (∀ (s : State) (g : TileId) (v : BitVec 32), pageWritable s (.tile g .cnv) = false →
    answers (.cnvStatSnap g v) s fun t => t = s)

/-- R211, R271: MOVE copies its bytes; here one piece within the tile's scratchpad whose source and destination do not
overlap. Every other byte of the scratchpad stays, and MOVE completes. Where these rules leave a point open it follows
the model's reading (log entry 80). -/
def Obligations.MoveCopiesBytes : Prop :=
  ∀ (s : State) (g : TileId) (c : Active), (s.tile g).units.lift = [c] → c.op = Op.move → c.released = true →
    (s.tile g).units.switch = none → (s.tile g).units.list = none → (s.tile g).units.copy = none → noFetch s g →
    let n := mvLen c.bits
    let a := mvSrc c.bits
    let b := mvDst c.bits
    0 < n → a % 128 + n ≤ 128 → b % 128 + n ≤ 128 → a + n ≤ 0x400000 → b + n ≤ 0x400000 → (a + n ≤ b ∨ b + n ≤ a) →
    regionOk (s.bank (.tile g .spd)) 3 .r a n = true → regionOk (s.bank (.tile g .spd)) 3 .w b n = true →
    (∀ x, (a ≤ x ∧ x < a + n) ∨ (b ≤ x ∧ x < b + n) →
      bankStat s g (x / 2 ^ 18) = 0 ∧ classify ((s.tile g).spd.codeword (x / 32)) = .clean) →
    answers (.move g) s fun t =>
      (t.tile g).spd.data.read b n = (s.tile g).spd.data.read a n ∧
      (∀ x, x < b ∨ b + n ≤ x → (t.tile g).spd.data.get x = (s.tile g).spd.data.get x) ∧
      (t.tile g).units.lift = [] ∧ (t.tile g).units.copy = none ∧ t.reg (.tile g .lft) LFT.CMD_BUSY = 0 ∧
      t.reg (.tile g .lft) LFT.LFT_BYTES = min (s.reg (.tile g .lft) LFT.LFT_BYTES + n) (2 ^ LFT.LFT_BYTES.width - 1) ∧
      t.reg (.tile g .tl) TL.TL_CMD_CNT = min (s.reg (.tile g .tl) TL.TL_CMD_CNT + 1) (2 ^ TL.TL_CMD_CNT.width - 1) ∧
      ((s.tile g).units.cnv = [] → (∀ h, h ≠ g → t.tile h = s.tile h) ∧ t.parts = s.parts)

/-- R78, R79, R210: BOOK writes a book of 128 bytes as it reads it from its source and tags it with its format; after
the last book it completes. From a source in scratchpad that is served the book is what is stored there. A book of C8P
that holds a component outside −64 to 63 ends the command, and its tag is INVALID. -/
def Obligations.BookWritesAndTags : Prop :=
  (∀ (s : State) (g : TileId) (c : Active), (s.tile g).units.lift = [c] → c.op = Op.book →
    c.released = true → (s.tile g).units.switch = none → (s.tile g).units.list = none → (s.tile g).units.copy = none →
    bkCount c.bits = 1 → (s.tile g).books.held = [] → (s.tile g).bookBusy (bkBook c.bits) = false → noFetch s g →
    spdServes s g 3 .r (bkSrc c.bits) 128 →
    let bs := (s.tile g).spd.data.read (bkSrc c.bits) 128
    (bkFmt c.bits = 0xA → c8pBad bs = false) →
    answers (.book g) s fun t =>
      (t.tile g).books.mem.read (128 * bkBook c.bits) 128 = bs ∧
      (t.tile g).books.tags.look (bkBook c.bits) = some (bkFmt c.bits) ∧
      (∀ x, x < 128 * bkBook c.bits ∨ 128 * bkBook c.bits + 128 ≤ x →
        (t.tile g).books.mem.get x = (s.tile g).books.mem.get x) ∧
      (∀ n, n ≠ bkBook c.bits → (t.tile g).books.tags.look n = (s.tile g).books.tags.look n) ∧
      (t.tile g).units.lift = [] ∧ t.reg (.tile g .lft) LFT.CMD_BUSY = 0 ∧ (t.tile g).spd.data = (s.tile g).spd.data ∧
      t.reg (.tile g .lft) LFT.LFT_BYTES =
        min (s.reg (.tile g .lft) LFT.LFT_BYTES + 128) (2 ^ LFT.LFT_BYTES.width - 1) ∧
      t.reg (.tile g .tl) TL.TL_CMD_CNT = min (s.reg (.tile g .tl) TL.TL_CMD_CNT + 1) (2 ^ TL.TL_CMD_CNT.width - 1)) ∧
  (∀ (s s' : State) (g : TileId) (c : Active) (bs : List Byte), (s.tile g).units.lift = [c] → c.op = Op.book →
    c.released = true → (s.tile g).units.switch = none → (s.tile g).units.list = none → (s.tile g).units.copy = none →
    bkCount c.bits = 1 → (s.tile g).books.held = [] → (s.tile g).bookBusy (bkBook c.bits) = false →
    noFetch s g →
    (ownReq g 3 2).read (bkSrc c.bits % 2 ^ 40) 128 ((readAhead (ownReq g 3 2) (bkSrc c.bits) 0 128 0).after
      (s.setReg (.tile g .lft) LFT.CMD_BUSY 1)) = .ok bs s' → bs.length = 128 →
    (bkFmt c.bits = 0xA → c8pBad bs = false) →
    answers (.book g) s fun t =>
      (t.tile g).books.mem.read (128 * bkBook c.bits) 128 = bs ∧
      (t.tile g).books.tags.look (bkBook c.bits) = some (bkFmt c.bits) ∧
      (∀ x, x < 128 * bkBook c.bits ∨ 128 * bkBook c.bits + 128 ≤ x →
        (t.tile g).books.mem.get x = (s.tile g).books.mem.get x) ∧
      (t.tile g).units.lift = [] ∧ t.reg (.tile g .lft) LFT.CMD_BUSY = 0 ∧
      t.reg (.tile g .lft) LFT.LFT_BYTES =
        min (s'.reg (.tile g .lft) LFT.LFT_BYTES + 128) (2 ^ LFT.LFT_BYTES.width - 1) ∧
      t.reg (.tile g .tl) TL.TL_CMD_CNT = min (s'.reg (.tile g .tl) TL.TL_CMD_CNT + 1) (2 ^ TL.TL_CMD_CNT.width - 1)) ∧
  (∀ (s s' : State) (g : TileId) (c : Active) (bs : List Byte), (s.tile g).units.lift = [c] → c.op = Op.book →
    c.released = true → (s.tile g).units.switch = none → (s.tile g).units.list = none → (s.tile g).units.copy = none →
    bkCount c.bits = 1 → (s.tile g).books.held = [] → (s.tile g).bookBusy (bkBook c.bits) = false →
    noFetch s g →
    (ownReq g 3 2).read (bkSrc c.bits % 2 ^ 40) 128 ((readAhead (ownReq g 3 2) (bkSrc c.bits) 0 128 0).after
      (s.setReg (.tile g .lft) LFT.CMD_BUSY 1)) = .ok bs s' → bs.length = 128 →
    bkFmt c.bits = 0xA → c8pBad bs = true → s'.reg (.tile g .tl) TL.CMD_ERR = Err.none →
    answers (.book g) s fun t =>
      (t.tile g).books.tags.look (bkBook c.bits) = none ∧ t.reg (.tile g .tl) TL.CMD_ERR = Err.bookRange ∧
      (t.tile g).units.lift = [])

/-- R149, R213, R349: the last row of a local ATOMIC whose adds are all answered completes the command; a row for a
remote station goes out as an ATOM_ADD message that carries the row's entries. Where these rules leave a point open it
follows the model's reading (log entry 79). -/
def Obligations.AtomicRows : Prop :=
  (∀ (s s' : State) (g : TileId) (c : Active) (r : CopyRun) (sats : List Bool), (s.tile g).units.lift = [c] →
    c.op = Op.atomic → c.released = true → (s.tile g).units.switch = none → (s.tile g).units.list = none →
    (s.tile g).units.copy = some r → r.done + 1 = nrowsOf c.bits → (s.part (partOf g)).replaying = none →
    (s.tile g).units.cnv = [] → noFetch s g →
    atInPmem s.variant c.bits = true → atRemote c.bits = false →
    let x := (s.tile g).acc (atBuf c.bits)
    (x.row (row0Of c.bits + r.done)).sat = false →
    mapAll (addPieces (atRow c.bits r.done) ((List.range (atLanes c.bits)).map (x.entry (row0Of c.bits + r.done))))
      (fun q => atomicAccess g q.1 q.2) (s.setReg (.tile g .lft) LFT.CMD_BUSY 1) = .ok sats s' →
    answers (.atomic g) s fun t =>
      t.parts = s'.parts ∧ (t.tile g).units.lift = [] ∧ t.reg (.tile g .lft) LFT.CMD_BUSY = 0 ∧
      t.reg (.tile g .lft) LFT.LFT_BYTES =
        min (s'.reg (.tile g .lft) LFT.LFT_BYTES + 4 * atLanes c.bits) (2 ^ LFT.LFT_BYTES.width - 1) ∧
      t.reg (.tile g .tl) TL.TL_CMD_CNT = min (s'.reg (.tile g .tl) TL.TL_CMD_CNT + 1) (2 ^ TL.TL_CMD_CNT.width - 1) ∧
      (sats.any id = true → t.reg (.tile g .tl) TL.ACC_SAT = 1)) ∧
  (∀ (s : State) (g : TileId) (c : Active) (r : CopyRun) (n : PortId), (s.tile g).units.lift = [c] →
    c.op = Op.atomic → c.released = true → (s.tile g).units.switch = none → (s.tile g).units.list = none →
    (s.tile g).units.copy = some r → r.done + 1 = nrowsOf c.bits → (s.part (partOf g)).replaying = none →
    (s.tile g).units.cnv = [] → noFetch s g →
    atInPmem s.variant c.bits = true → atRemote c.bits = true → portFor s (partOf g) (atStn c.bits) = some n →
    stationUp s n (atStn c.bits) = true → ((s.port n).tx.filter fun t => t.dst = atStn c.bits).length < 1024 →
    let us := (List.range (atLanes c.bits)).map (((s.tile g).acc (atBuf c.bits)).entry (row0Of c.bits + r.done))
    answers (.atomic g) s fun t =>
      (t.port n).tx = (s.port n).tx ++ [⟨atStn c.bits, partOf g, ownEpoch s (partOf g),
        atMsg c.bits r.done (us.flatMap fun u => leBytes 4 (uns 32 u)), none, 0, false, .tile g⟩] ∧
      t.parts = s.parts ∧ (t.tile g).units.lift = [] ∧
      t.reg (.tile g .tl) TL.TL_CMD_CNT = min (s.reg (.tile g .tl) TL.TL_CMD_CNT + 1) (2 ^ TL.TL_CMD_CNT.width - 1))

/-- R271 to R274, R285: LFT_START starts a list that names a descriptor and clears its records, LFT_ABORT stops it; a
piece of a list, and of a switch list, is copied; the last piece of the last descriptor ends the list, with interrupt 0
for the lift list, and the end of a list that places a model signals the model's load gate (R280). Where these rules
leave a point open it follows the model's reading (log entries 77, 139 and 140). -/
def Obligations.LiftAndSwitchLists : Prop :=
  (∀ (s : State) (g : TileId), pageWritable s (.tile g .lft) = true → s.reg (.tile g .lft) LFT.LIST_BUSY = 0 →
    s.reg (.tile g .lft) LFT.LIST_CNT ≠ 0 →
    answers (.lftStart g) s fun t =>
      t.reg (.tile g .lft) LFT.LIST_BUSY = 1 ∧ t.reg (.tile g .lft) LFT.LIST_DONE = 0 ∧
      t.reg (.tile g .lft) LFT.LIST_ERR_CODE = 0 ∧ (t.tile g).units.list = some ⟨0, crc32Init, 0, none⟩ ∧
      regsKept s t [(.tile g .lft, LFT.LIST_BUSY), (.tile g .lft, LFT.LIST_DONE), (.tile g .lft, LFT.LIST_ERR_CODE),
        (.tile g .lft, LFT.LIST_ERR_IDX)] ∧ bytesKept s t) ∧
  (∀ (s : State) (g : TileId), pageWritable s (.tile g .lft) = true → s.reg (.tile g .lft) LFT.LIST_BUSY ≠ 0 →
    answers (.lftStart g) s fun t => t = s) ∧
  (∀ (s : State) (g : TileId), pageWritable s (.tile g .lft) = true → (s.tile g).units.list ≠ none →
    listInPiece s g = false →
    answers (.lftAbort g) s fun t =>
      (t.tile g).units.list = none ∧ t.reg (.tile g .lft) LFT.LIST_BUSY = 0 ∧
      regsKept s t [(.tile g .lft, LFT.LIST_BUSY)] ∧ bytesKept s t) ∧
  (∀ (s : State) (g : TileId) (d : Nat) (r : CopyRun), (s.tile g).units.switch = none → (s.tile g).units.lift = [] →
    (s.tile g).units.list = some r → (s.tile g).units.loading = false → (s.tile g).units.listAbort = false → noFetch s g → pieceServed s g d r →
    let n := pieceLen (LiftD.dst d) (LiftD.len d) r.done
    r.done + n ≠ LiftD.len d →
    answers (.liftPiece g) s fun t =>
      pieceCopied s t g d r ∧ regsKept s t [(.tile g .lft, LFT.LFT_BYTES)] ∧
      (t.tile g).units.list =
        some { r with done := r.done + n, crc := crc32Run r.crc ((s.tile g).spd.data.read (LiftD.src d + r.done) n) }) ∧
  (∀ (s : State) (g : TileId) (d : Nat) (r : CopyRun), (s.tile g).units.switch = none → (s.tile g).units.lift = [] →
    (s.tile g).units.list = some r → (s.tile g).units.loading = false → noFetch s g → pieceServed s g d r →
    let n := pieceLen (LiftD.dst d) (LiftD.len d) r.done
    r.done + n = LiftD.len d → LiftD.sig d = false →
    (LiftD.chk d = true →
      crc32Final (crc32Run r.crc ((s.tile g).spd.data.read (LiftD.src d + r.done) n)) = LiftD.crc d) →
    s.reg (.tile g .lft) LFT.LIST_CNT = r.idx + 1 →
    answers (.liftDescriptor g) s fun t =>
      pieceCopied s t g d r ∧ (t.tile g).units.list = none ∧ t.reg (.tile g .lft) LFT.LIST_BUSY = 0 ∧
      t.reg (.tile g .lft) LFT.LIST_DONE = (r.idx + 1) % 2 ^ LFT.LIST_DONE.width ∧
      (t.reg (.tile g .lft) HDR.IRQ_STAT).testBit 0 = true ∧
      regsKept s t [(.tile g .lft, LFT.LFT_BYTES), (.tile g .lft, LFT.LIST_BUSY), (.tile g .lft, LFT.LIST_DONE),
        (.tile g .lft, HDR.IRQ_STAT)]) ∧
  (∀ (s : State) (g : TileId) (d : Nat) (r : CopyRun), (s.tile g).units.switch = some r → pieceServed s g d r →
    let n := pieceLen (LiftD.dst d) (LiftD.len d) r.done
    r.done + n = LiftD.len d → LiftD.sig d = false →
    (LiftD.chk d = true →
      crc32Final (crc32Run r.crc ((s.tile g).spd.data.read (LiftD.src d + r.done) n)) = LiftD.crc d) →
    s.reg (.tile g .lft) LFT.SW_CNT.active = r.idx + 1 →
    answers (.switchListRun g) s fun t =>
      pieceCopied s t g d r ∧ (t.tile g).units.switch = none ∧ t.reg (.tile g .lft) LFT.SW_BUSY = 0 ∧
      regsKept s t [(.tile g .lft, LFT.LFT_BYTES), (.tile g .lft, LFT.SW_BUSY)]) ∧
  (∀ (s s' : State) (g : TileId) (r r' : CopyRun), (s.tile g).units.switch = none → (s.tile g).units.lift = [] →
    (s.tile g).units.list = some r → (s.tile g).units.loading = false → (s.tile g).units.listAbort = false → noFetch s g →
    descStep g (listReq g 4) (s.reg (.tile g .lft) LFT.LIST_BASE) r s = .ok r' s' → r'.idx = r.idx →
    answers (.liftPiece g) s fun t =>
      (t.tile g).units.list = some r' ∧ (t.tile g).spd = (s'.tile g).spd ∧ t.parts = s'.parts ∧ regsKept s' t []) ∧
  (∀ (s s' : State) (g : TileId) (r r' : CopyRun), (s.tile g).units.switch = none → (s.tile g).units.lift = [] →
    (s.tile g).units.list = some r → (s.tile g).units.loading = false → noFetch s g →
    descStep g (listReq g 4) (s.reg (.tile g .lft) LFT.LIST_BASE) r s = .ok r' s' → r'.idx = r.idx + 1 →
    s.reg (.tile g .lft) LFT.LIST_CNT = r'.idx →
    answers (.liftDescriptor g) s fun t =>
      (t.tile g).units.list = none ∧ (t.tile g).spd = (s'.tile g).spd ∧ t.parts = s'.parts ∧
      t.reg (.tile g .lft) LFT.LIST_BUSY = 0 ∧ t.reg (.tile g .lft) LFT.LIST_DONE = r'.idx % 2 ^ LFT.LIST_DONE.width ∧
      (t.reg (.tile g .lft) HDR.IRQ_STAT).testBit 0 = true ∧
      regsKept s' t [(.tile g .lft, LFT.LIST_BUSY), (.tile g .lft, LFT.LIST_DONE), (.tile g .lft, HDR.IRQ_STAT)]) ∧
  (∀ (s s' : State) (g : TileId) (r r' : CopyRun) (l : LoadRun) (rest : List LoadRun), (s.tile g).units.switch = none →
    (s.tile g).units.lift = [] → (s.tile g).units.list = some r → (s.tile g).units.loading = true →
    (s.tile g).units.loads = l :: rest → noFetch s g → loadStep g l r s = .ok r' s' → r'.idx = r.idx + 1 →
    l.descs.length = r'.idx →
    answers (.liftDescriptor g) s fun t =>
      (t.tile g).units.list = none ∧ (t.tile g).units.loads = rest ∧ (t.tile g).units.loading = false ∧
      (t.tile g).spd = (s'.tile g).spd ∧ t.parts = s'.parts ∧
      t.eng.models = (s'.eng.models.map fun x => if x.handle = l.handle then { x with loadGate := x.loadGate + 1 } else x) ∧
      t.reg (.tile g .lft) LFT.LIST_BUSY = 0 ∧ t.reg (.tile g .lft) LFT.LIST_DONE = r'.idx % 2 ^ LFT.LIST_DONE.width ∧
      (t.reg (.tile g .lft) HDR.IRQ_STAT).testBit 0 = true) ∧
  (∀ (s s' : State) (g : TileId) (r r' : CopyRun), (s.tile g).units.switch = some r →
    descStep g (listReq g 7) (s.reg (.tile g .lft) LFT.SW_BASE.active) r s = .ok r' s' → r'.idx = r.idx + 1 →
    s.reg (.tile g .lft) LFT.SW_CNT.active = r'.idx →
    answers (.switchListRun g) s fun t =>
      (t.tile g).units.switch = none ∧ (t.tile g).spd = (s'.tile g).spd ∧ t.parts = s'.parts ∧
      t.reg (.tile g .lft) LFT.SW_BUSY = 0 ∧ regsKept s' t [(.tile g .lft, LFT.SW_BUSY)])

/-- R323 to R325, R330, R331, R342, R343, R356: a member in its own slot sends a frame on wavelength 0 that begins with
its HEARTBEAT; every echo that is heard is measured in PST_RANGE; one that is not the frame's, byte for byte, or that
carries another burst's energy counts as a collision in a contention slot, with a backoff of 1 to 2^min(n, 6) laps, and
as a garbled echo in an owned slot, whose sequenced messages go again; a missing echo counts only in the lap's record of
the star; an expired backoff ends; every unacknowledged message to a station whose time has passed is marked to be sent
again. A silent slot changes nothing (the model's reading of R323, log entry 85). Where these rules leave a point open
it follows the model's reading (log entries 85, 88 and 95). -/
def Obligations.PisteSlotsAndEchoes : Prop :=
  (∀ (s : State) (n : PortId) (rs : Fin 16) (rw : Fin 4), n.val < s.variant.ports →
    s.reg (.link n) LINK.LAPSYNC = 1 → portState s n = PortState.member → (s.port n).slot < 15 → muted s n = false →
    ownsSlot s n (ownStn s n) ((s.port n).slot + 1) = true → (s.port n).tx = [] → (s.port n).joinAcks = [] →
    (s.port n).newMap = none → fenceMsgs s = [] →
    answers (.slotStart n true rs rw) s fun t =>
      (t.port n).slot = (s.port n).slot + 1 ∧ t.reg (.link n) LINK.LAP = s.reg (.link n) LINK.LAP ∧
      t.reg (.link n) LINK.FR_TX = min (s.reg (.link n) LINK.FR_TX + 1) (2 ^ LINK.FR_TX.width - 1) ∧
      (∃ f, (t.port n).out = [f] ∧ f.stn = ownStn s n ∧ f.wl = 0 ∧ f.lap = s.reg (.link n) LINK.LAP ∧
        f.slot.val = (s.port n).slot + 1 ∧ f.key = (s.port n).keyCur ∧ f.msgs = [heartbeatMsg s]) ∧
      regsKept s t [(.link n, LINK.FR_TX)] ∧ bytesKept s t ∧ t.parts = s.parts ∧ t.tiles = s.tiles) ∧
  (∀ (s : State) (n : PortId), answers (.slotSilent n) s fun t => t = s) ∧
  (∀ (s : State) (n : PortId) (wl : Fin 4) (f : Frame) (burst : List Byte) (rtt draw : Nat) (energy : Bool),
    (s.port n).out.find? (fun f => f.wl = wl) = some f → contentionSlot s n f.slot.val = false →
    echoClean f burst energy = true →
    answers (.echoCheck n wl (.heard burst rtt energy) draw) s fun t =>
      t.reg (.link n) LINK.PST_RANGE = rtt % 2 ^ LINK.PST_RANGE.width ∧
      (t.port n).out = (s.port n).out.filter (fun f => f.wl ≠ wl) ∧ (t.port n).tx = (s.port n).tx ∧
      regsKept s t [(.link n, LINK.PST_RANGE)] ∧ bytesKept s t) ∧
  (∀ (s : State) (n : PortId) (wl : Fin 4) (f : Frame) (draw : Nat),
    (s.port n).out.find? (fun f => f.wl = wl) = some f →
    answers (.echoCheck n wl .missing draw) s fun t =>
      t = s.setPort n { s.port n with
        out := (s.port n).out.filter fun f => f.wl ≠ wl, echoBad := (s.port n).echoBad || wl = 0 }) ∧
  (∀ (s : State) (n : PortId) (wl : Fin 4) (f : Frame) (burst : List Byte) (rtt draw : Nat) (energy : Bool),
    (s.port n).out.find? (fun f => f.wl = wl) = some f → contentionSlot s n f.slot.val = true →
    echoClean f burst energy = false →
    answers (.echoCheck n wl (.heard burst rtt energy) draw) s fun t =>
      t.reg (.link n) LINK.PST_RANGE = rtt % 2 ^ LINK.PST_RANGE.width ∧
      t.reg (.link n) LINK.COLLISION = min (s.reg (.link n) LINK.COLLISION + 1) (2 ^ LINK.COLLISION.width - 1) ∧
      (t.port n).collisions = (s.port n).collisions + 1 ∧ 1 ≤ (t.port n).backoff ∧
      (t.port n).backoff ≤ 2 ^ min (t.port n).collisions 6 ∧ regsKept s t [(.link n, LINK.PST_RANGE), (.link n, LINK.COLLISION)] ∧
      bytesKept s t) ∧
  (∀ (s : State) (n : PortId) (wl : Fin 4) (f : Frame) (burst : List Byte) (rtt draw : Nat) (energy : Bool),
    (s.port n).out.find? (fun f => f.wl = wl) = some f → contentionSlot s n f.slot.val = false →
    echoClean f burst energy = false →
    answers (.echoCheck n wl (.heard burst rtt energy) draw) s fun t =>
      t.reg (.link n) LINK.PST_RANGE = rtt % 2 ^ LINK.PST_RANGE.width ∧
      t.reg (.link n) LINK.GARBLED_ECHO = min (s.reg (.link n) LINK.GARBLED_ECHO + 1) (2 ^ LINK.GARBLED_ECHO.width - 1) ∧
      (∀ m ∈ (s.port n).tx, (∃ k ∈ f.msgs, k.dst = m.dst ∧ sequenced k.type = true ∧ m.seq = some k.seq) →
        { m with resend := true } ∈ (t.port n).tx) ∧
      regsKept s t [(.link n, LINK.PST_RANGE), (.link n, LINK.GARBLED_ECHO), (.link n, HDR.IRQ_STAT)] ∧ bytesKept s t) ∧
  (∀ (s : State) (n : PortId), answers (.backoffExpiry n) s fun t => t = s.setPort n { s.port n with backoff := 0 }) ∧
  (∀ (s : State) (n : PortId) (stn : StnId), answers (.retransmit n stn) s fun t =>
      (∀ m ∈ (t.port n).tx, m.dst = stn.val → m.seq ≠ none → m.resend = true) ∧
      (t.port n).tx.map TxMsg.msg = (s.port n).tx.map TxMsg.msg ∧
      (t.port n).tx.map TxMsg.seq = (s.port n).tx.map TxMsg.seq ∧ regsKept s t [] ∧ bytesKept s t)

/-- R322, R333 to R336, R338: what is sent is what is read. The codewords of a frame body, received with no wrong
symbol, give that body back; and the body of a frame, opened under the key that sealed it, gives every field of its
header, every message and every acknowledgement entry back, for every frame whose fields fit their places and whose
payload has at most 4,096 bytes. Where these rules leave a point open it follows the model's reading (log entries 94,
147, 152 and 153). -/
def Obligations.FramesReadBack : Prop :=
  (∀ body : List Byte, body.length ≤ 4608 → FrameCode.decode (FrameCode.encode body 18) 18 = (0, some body)) ∧
  (∀ f : Frame, f.stn < 2 ^ 4 → f.epoch < 2 ^ 12 → f.depoch < 2 ^ 12 → f.lap < 2 ^ 48 → f.kgen < 2 ^ 8 → f.mapver < 2 ^ 8 →
    (∀ m ∈ f.msgs, wfMsg m = true ∧ m.type ≠ 0 ∧ m.data.length < 2 ^ 12) → (payload f).length ≤ 4096 →
    f.acks.length = 12 → (∀ e ∈ f.acks, e.rxNext < 2 ^ 16 ∧ e.depoch < 2 ^ 12) →
    openFrame (sealFrame f) f.key = some f ∧ FrameCode.decode (burstOf f) 18 = (0, some (sealFrame f)))

/-- R322, R337, R340, R345: how a burst is classified. A port that is OFF or has lost its star takes nothing in; an
uncorrectable burst, a stranger's and an old frame each count and change nothing else but the corrected symbols' count
and the record that light was seen; an accepted frame counts in FR_RX, and its acknowledgement field ends the messages
that it acknowledges. A lone JOIN in a contention slot is accepted from any station, and its acknowledgements and header
are taken too. Where these rules leave a point open it follows the model's reading (log entries 21, 86 and 94). -/
def Obligations.FrameClasses : Prop :=
  (∀ (s : State) (n : PortId) (burst : List Byte), portState s n = PortState.off ∨ portState s n = PortState.starDown →
    answers (.frameRx n burst) s fun t => t = s) ∧
  (∀ (s : State) (n : PortId) (burst : List Byte), portState s n ≠ PortState.off → portState s n ≠ PortState.starDown →
    (received s n burst).2 = none →
    answers (.frameRx n burst) s fun t =>
      t.reg (.link n) LINK.FEC_UNCORR = min (s.reg (.link n) LINK.FEC_UNCORR + 1) (2 ^ LINK.FEC_UNCORR.width - 1) ∧
      t.reg (.link n) LINK.FEC_SYM = min (s.reg (.link n) LINK.FEC_SYM + (received s n burst).1) (2 ^ LINK.FEC_SYM.width - 1) ∧
      regsKept s t [(.link n, LINK.FEC_SYM), (.link n, LINK.FEC_UNCORR)] ∧
      onlyRegs (s.setPort n { s.port n with dark := 0 }) t) ∧
  (∀ (s : State) (n : PortId) (burst : List Byte), portState s n ≠ PortState.off → portState s n ≠ PortState.starDown →
    (received s n burst).2 = some none →
    answers (.frameRx n burst) s fun t =>
      t.reg (.link n) LINK.STRANGER = min (s.reg (.link n) LINK.STRANGER + 1) (2 ^ LINK.STRANGER.width - 1) ∧
      regsKept s t [(.link n, LINK.FEC_SYM), (.link n, LINK.STRANGER)] ∧
      onlyRegs (s.setPort n { s.port n with dark := 0 }) t) ∧
  (∀ (s : State) (n : PortId) (burst : List Byte) (f : Frame), portState s n = PortState.member →
    (received s n burst).2 = some (some f) → singleJoin f = false →
    (12 ≤ f.stn ∨ (s.reg (.link n) LINK.MEMBER).testBit f.stn = false ∨ ownsSlot s n f.stn f.slot.val = false) →
    answers (.frameRx n burst) s fun t =>
      t.reg (.link n) LINK.STRANGER = min (s.reg (.link n) LINK.STRANGER + 1) (2 ^ LINK.STRANGER.width - 1) ∧
      regsKept s t [(.link n, LINK.FEC_SYM), (.link n, LINK.STRANGER)] ∧
      onlyRegs (s.setPort n { s.port n with dark := 0 }) t) ∧
  (∀ (s : State) (n : PortId) (burst : List Byte) (f : Frame), portState s n = PortState.member →
    (received s n burst).2 = some (some f) → f.stn < 12 → (s.reg (.link n) LINK.MEMBER).testBit f.stn = true →
    ownsSlot s n f.stn f.slot.val = true → singleJoin f = false →
    newerEpoch (s.reg (.peer n) (PEER.P_DEPOCH f.stn)) f.depoch = true →
    answers (.frameRx n burst) s fun t =>
      t.reg (.link n) LINK.OLD_EPOCH = min (s.reg (.link n) LINK.OLD_EPOCH + 1) (2 ^ LINK.OLD_EPOCH.width - 1) ∧
      regsKept s t [(.link n, LINK.FEC_SYM), (.link n, LINK.OLD_EPOCH)] ∧
      onlyRegs (s.setPort n { s.port n with dark := 0 }) t) ∧
  (∀ (s : State) (n : PortId) (burst : List Byte) (f : Frame) (e : AckEntry), portState s n = PortState.member →
    (received s n burst).2 = some (some f) → f.stn < 12 → f.stn ≠ ownStn s n →
    (s.reg (.link n) LINK.MEMBER).testBit f.stn = true → ownsSlot s n f.stn f.slot.val = true → f.msgs = [] →
    s.reg (.peer n) (PEER.P_DEPOCH f.stn) = f.depoch → peerEpoch s n f.stn f.part.val = f.epoch →
    f.lap * 16 + f.slot.val ≤ s.reg (.link n) LINK.LAP * 16 + (s.port n).slot → s.reg (.link n) LINK.LAPSYNC = 1 →
    f.acks[ownStn s n]? = some e → e.valid = true → e.depoch = s.reg (.link n) LINK.DEPOCH → (s.port n).held = [] →
    (∀ p, (s.part p).xfer = none ∧ s.reg (.peer 0) (PEER.XR_TAIL p.val) = s.reg (.peer 0) (PEER.XR_HEAD p.val)) →
    answers (.frameRx n burst) s fun t =>
      t.reg (.link n) LINK.FR_RX = min (s.reg (.link n) LINK.FR_RX + 1) (2 ^ LINK.FR_RX.width - 1) ∧
      t.reg (.peer n) (PEER.TX_ACK f.stn) = e.rxNext % 2 ^ 16 ∧
      (∀ m, m ∈ (t.port n).tx ↔ m ∈ (s.port n).tx ∧
        ¬(m.dst = f.stn ∧ ∃ q, m.seq = some q ∧ 1 ≤ seqBehind q e.rxNext ∧ seqBehind q e.rxNext < 32768)) ∧
      (t.port n).heard.contains f.stn = true ∧
      regsKept s t [(.link n, LINK.FEC_SYM), (.link n, LINK.FR_RX), (.peer n, PEER.TX_ACK f.stn)] ∧ bytesKept s t) ∧
  (∀ (s : State) (n : PortId) (burst : List Byte) (f : Frame) (e : AckEntry), portState s n = PortState.member →
    (received s n burst).2 = some (some f) → f.stn < 12 → f.stn ≠ ownStn s n → singleJoin f = true →
    contentionSlot s n f.slot.val = true →
    f.lap * 16 + f.slot.val ≤ s.reg (.link n) LINK.LAP * 16 + (s.port n).slot → s.reg (.link n) LINK.LAPSYNC = 1 →
    f.acks[ownStn s n]? = some e → e.valid = true → e.depoch = s.reg (.link n) LINK.DEPOCH → (s.port n).held = [] →
    (∀ p, (s.part p).xfer = none ∧ s.reg (.peer 0) (PEER.XR_TAIL p.val) = s.reg (.peer 0) (PEER.XR_HEAD p.val)) →
    answers (.frameRx n burst) s fun t =>
      t.reg (.link n) LINK.FR_RX = min (s.reg (.link n) LINK.FR_RX + 1) (2 ^ LINK.FR_RX.width - 1) ∧
      t.reg (.peer n) (PEER.TX_ACK f.stn) = e.rxNext % 2 ^ 16 ∧
      t.reg (.peer n) (PEER.P_DEPOCH f.stn) = (if newerEpoch f.depoch (s.reg (.peer n) (PEER.P_DEPOCH f.stn)) = true
        then f.depoch % 2 ^ (PEER.P_DEPOCH f.stn).width else s.reg (.peer n) (PEER.P_DEPOCH f.stn)) ∧
      t.reg (.link n) LINK.STRANGER = s.reg (.link n) LINK.STRANGER ∧ bytesKept s t)

/-- R339, R343, R344, R348, R350, R351: what a sequenced message does in its turn. WRITE and READ act on the partition's
memory and queue their answer; ATOM_ADD adds and counts in its window, or in NOWIN; GATE_SIG adds to its gate; a reply
closes its open request and keeps the transfer's first error. A message of an ended epoch counts and changes nothing
else. Where these rules leave a point open it follows the model's reading (log entries 16, 79 and 159). -/
def Obligations.PisteMessagesDelivered : Prop :=
  (∀ (s : State) (n : PortId) (src : Sender) (m : Msg) (i : Instr),
    i ∈ [Instr.write n src m, .read n src m, .writeAck n src m, .readData n src m, .atomAdd n src m, .gateSig n src m] →
    epochEnded (s.port n) src.stn.val src.part.val src.epoch = true →
    answers i s fun t =>
      t.reg (.link n) LINK.OLD_EPOCH = min (s.reg (.link n) LINK.OLD_EPOCH + 1) (2 ^ LINK.OLD_EPOCH.width - 1) ∧
      regsKept s t [(.link n, LINK.OLD_EPOCH)] ∧ onlyRegs s t) ∧
  (∀ (s s' : State) (n k : PortId) (src : Sender) (m : Msg), epochLives s n src → replyPort s n m.dpart src.stn.val = k →
    replyRoom s n m.dpart src.stn.val = true → portOk s m.dpart .w (msgArg m 39 0) m.data.length →
    mcWriteOp m.dpart 6 (msgArg m 39 0) m.data [] [] s = .ok () s' →
    answers (.write n src m) s fun t =>
      t.parts = s'.parts ∧ t.tiles = s'.tiles ∧
      (∃ a, (t.port k).tx = (s.port k).tx ++ [a] ∧ a.dst = src.stn.val ∧ a.msg.type = MsgType.writeAck ∧
        msgArg a.msg 15 0 = Err.none ∧ msgArg a.msg 29 16 = msgArg m 63 50 ∧ msgArg a.msg 51 40 = src.epoch % 4096)) ∧
  (∀ (s s' : State) (n k : PortId) (src : Sender) (m : Msg) (bs : List Byte), epochLives s n src →
    replyPort s n m.dpart src.stn.val = k → replyRoom s n m.dpart src.stn.val = true →
    portOk s m.dpart .r (msgArg m 39 0) (4 * msgArg m 49 40) →
    mcReadOp m.dpart 6 (msgArg m 39 0) (4 * msgArg m 49 40) [] [] false s = .ok bs s' →
    answers (.read n src m) s fun t =>
      t.parts = s'.parts ∧ t.tiles = s'.tiles ∧
      (∃ a, (t.port k).tx = (s.port k).tx ++ [a] ∧ a.dst = src.stn.val ∧ a.msg.type = MsgType.readData ∧
        msgArg a.msg 15 0 = Err.none ∧ msgArg a.msg 29 16 = msgArg m 63 50 ∧ a.msg.data = bs)) ∧
  (∀ (s : State) (n k : PortId) (src : Sender) (m : Msg), epochLives s n src → replyPort s n m.dpart src.stn.val = k →
    replyRoom s n m.dpart src.stn.val = true → portOk s m.dpart .w (msgArg m 39 0) m.data.length → m.data ≠ [] →
    msgArg m 39 0 % 64 + m.data.length ≤ 64 → (∀ c, ((s.part m.dpart).ctl c).fixups = []) →
    let v := interleave s.variant (msgArg m 39 0 / 64 * 64)
    let off := v.2 + msgArg m 39 0 % 64
    classify (((s.part m.dpart).ctl v.1).burst v.2) = .clean →
    answers (.write n src m) s fun t =>
      ((t.part m.dpart).ctl v.1).mem.read off m.data.length = m.data ∧
      (∀ a, a < stackBytes → (a < off ∨ off + m.data.length ≤ a) →
        ((t.part m.dpart).ctl v.1).mem.get a = ((s.part m.dpart).ctl v.1).mem.get a) ∧ t.tiles = s.tiles ∧
      (∃ a, (t.port k).tx = (s.port k).tx ++ [a] ∧ a.dst = src.stn.val ∧ a.msg.type = MsgType.writeAck ∧
        msgArg a.msg 15 0 = Err.none ∧ msgArg a.msg 29 16 = msgArg m 63 50 ∧ msgArg a.msg 51 40 = src.epoch % 4096)) ∧
  (∀ (s : State) (n k : PortId) (src : Sender) (m : Msg), epochLives s n src → replyPort s n m.dpart src.stn.val = k →
    replyRoom s n m.dpart src.stn.val = true → portOk s m.dpart .r (msgArg m 39 0) (4 * msgArg m 49 40) →
    burstsClean s m.dpart (msgArg m 39 0) (4 * msgArg m 49 40) →
    answers (.read n src m) s fun t =>
      bytesKept s t ∧
      (∃ a, (t.port k).tx = (s.port k).tx ++ [a] ∧ a.dst = src.stn.val ∧ a.msg.type = MsgType.readData ∧
        msgArg a.msg 15 0 = Err.none ∧ msgArg a.msg 29 16 = msgArg m 63 50 ∧
        a.msg.data = storedBytes s m.dpart (msgArg m 39 0) (4 * msgArg m 49 40))) ∧
  (∀ (s : State) (n : PortId) (src : Sender) (m : Msg), epochLives s n src → m.data ≠ [] → m.data.length % 4 = 0 →
    portOk s m.dpart .a (msgArg m 39 0) m.data.length → msgArg m 39 0 % 4 = 0 →
    msgArg m 39 0 % 64 + m.data.length ≤ 64 → (∀ c, ((s.part m.dpart).ctl c).fixups = []) →
    winFor s (msgArg m 55 40) = none →
    let v := interleave s.variant (msgArg m 39 0 / 64 * 64)
    classify (((s.part m.dpart).ctl v.1).burst v.2) = .clean →
    let adds := List.replicate (msgArg m 39 0 % 64 / 4) none ++ (leWords m.data).map fun w => some (sext 32 w)
    answers (.atomAdd n src m) s fun t =>
      ((t.part m.dpart).ctl v.1).mem.read v.2 64 = (addBurst (((s.part m.dpart).ctl v.1).mem.read v.2 64) adds).1 ∧
      t.reg (.mc m.dpart v.1) MC.ATOM_ADDS =
        min (s.reg (.mc m.dpart v.1) MC.ATOM_ADDS + 1) (2 ^ MC.ATOM_ADDS.width - 1) ∧
      t.reg (.link n) LINK.NOWIN = min (s.reg (.link n) LINK.NOWIN + 1) (2 ^ LINK.NOWIN.width - 1) ∧ t.tiles = s.tiles) ∧
  (∀ (s s' : State) (n : PortId) (src : Sender) (m : Msg) (sat : Bool), epochLives s n src →
    portOk s m.dpart .a (msgArg m 39 0) m.data.length →
    atomAll m.dpart (msgArg m 39 0) ((leWords m.data).map (sext 32)) s = .ok sat s' → winFor s (msgArg m 55 40) = none →
    answers (.atomAdd n src m) s fun t =>
      t.parts = s'.parts ∧ t.tiles = s'.tiles ∧
      t.reg (.link n) LINK.NOWIN = min (s'.reg (.link n) LINK.NOWIN + 1) (2 ^ LINK.NOWIN.width - 1) ∧
      regsKept s' t [(.link n, LINK.NOWIN)]) ∧
  (∀ (s s' : State) (n : PortId) (src : Sender) (m : Msg) (sat : Bool) (w : Nat), epochLives s n src →
    portOk s m.dpart .a (msgArg m 39 0) m.data.length →
    atomAll m.dpart (msgArg m 39 0) ((leWords m.data).map (sext 32)) s = .ok sat s' → winFor s (msgArg m 55 40) = some w →
    (winLatch s w).expect.testBit (4 * src.stn.val + src.part.val) = true → m.last = true →
    (s.reg (.peer 0) (PEER.ARRIVED w)).testBit (4 * src.stn.val + src.part.val) = false →
    answers (.atomAdd n src m) s fun t =>
      t.parts = s'.parts ∧ t.tiles = s'.tiles ∧
      t.reg (.peer 0) (PEER.WIN_ADDS w) = min (s'.reg (.peer 0) (PEER.WIN_ADDS w) + 1) (2 ^ 32 - 1) ∧
      (t.reg (.peer 0) (PEER.ARRIVED w)).testBit (4 * src.stn.val + src.part.val) = true ∧
      (sat = true → t.reg (.peer 0) (PEER.WSAT w) = 1) ∧
      regsKept s' t [(.peer 0, PEER.WIN_ADDS w), (.peer 0, PEER.ARRIVED w), (.peer 0, PEER.WSAT w)]) ∧
  (∀ (s : State) (n : PortId) (src : Sender) (m : Msg), epochLives s n src →
    let r : GateRef := ⟨msgArg m 7 0, true⟩
    (s.gate m.dpart r).valid = true → (s.gate m.dpart r).cfg.testBit 22 = true →
    answers (.gateSig n src m) s fun t =>
      (t.gate m.dpart r).value = min ((s.gate m.dpart r).value + msgArg m 39 8) (2 ^ 64 - 1) ∧
      ∀ q, q.global ≠ true ∨ q.index ≠ r.index → t.gate m.dpart q = s.gate m.dpart q) ∧
  (∀ (s : State) (n : PortId) (src : Sender) (m : Msg) (x : Xfer) (e : Nat × Nat × Nat), epochLives s n src →
    msgArg m 51 40 = ownEpoch s m.dpart → partFenced s m.dpart = false → (s.part m.dpart).xfer = some x →
    x.open_.find? (fun o => o.1 = msgArg m 29 16) = some e → XferD.stn x.desc = src.stn.val →
    msgArg m 15 0 ≠ Err.none ∨ XferD.op x.desc ≠ 1 →
    answers (.writeAck n src m) s fun t =>
      (t.part m.dpart).xfer = some { x with
        open_ := x.open_.filter fun o => o.1 ≠ e.1
        err := if x.err = Err.none then msgArg m 15 0 else x.err } ∧ regsKept s t [] ∧ bytesKept s t ∧ t.tiles = s.tiles) ∧
  (∀ (s s' : State) (n : PortId) (src : Sender) (m : Msg) (x : Xfer) (e : Nat × Nat × Nat), epochLives s n src →
    msgArg m 51 40 = ownEpoch s m.dpart → partFenced s m.dpart = false → (s.part m.dpart).xfer = some x →
    x.open_.find? (fun o => o.1 = msgArg m 29 16) = some e → XferD.stn x.desc = src.stn.val →
    msgArg m 15 0 = Err.none → XferD.op x.desc = 1 → portOk s m.dpart .w (XferD.local_ x.desc + e.2.1) e.2.2 →
    mcWriteOp m.dpart 6 (XferD.local_ x.desc + e.2.1) (m.data.take e.2.2) [] [] s = .ok () s' →
    answers (.readData n src m) s fun t =>
      (t.part m.dpart).xfer = some { x with open_ := x.open_.filter fun o => o.1 ≠ e.1 } ∧
      (t.part m.dpart).mc = (s'.part m.dpart).mc ∧ regsKept s' t [] ∧ t.tiles = s'.tiles)

/-- R326, R328, R345, R354 to R356: membership of the star, as messages and time bring it about. HEARTBEAT and FENCE
record epochs and states; a job master answers JOIN; JOIN_ACK makes a member and restarts its streams; LEAVE and lost
laps mark a station DOWN; a newer lap map is held and then adopted; a port that has lost its star hands its messages to
the other port, in their order and first of all, and one that has not lost it changes nothing. Where these rules leave a
point open it follows the model's reading (log entries 20, 21, 90, 157 and 158). -/
def Obligations.PisteMembership : Prop :=
  (∀ (s : State) (n : PortId) (src : Sender) (m : Msg) (p : Fin 4) (w : Nat), (leWords m.data)[p.val]? = some w →
    answers (.heartbeat n src m) s fun t =>
      ((t.port n).peerState.look (4 * src.stn.val + p.val)).getD 0 = bitsAt w 12 2 ∧
      peerEpoch t n src.stn.val p.val =
        (if newerEpoch (bitsAt w 0 12) (peerEpoch s n src.stn.val p.val) then bitsAt w 0 12
         else peerEpoch s n src.stn.val p.val)) ∧
  (∀ (s : State) (n : PortId) (src : Sender) (m : Msg), (s.port n).epochsEnded.look (4 * src.stn.val + msgArg m 1 0) = none →
    answers (.fenceMessage n src m) s fun t =>
      (t.port n).epochsEnded.look (4 * src.stn.val + msgArg m 1 0) = some (msgArg m 23 12) ∧
      (newerEpoch (msgArg m 23 12) (peerEpoch s n src.stn.val (msgArg m 1 0)) = true →
        peerEpoch t n src.stn.val (msgArg m 1 0) = msgArg m 23 12) ∧
      (newerEpoch (peerEpoch s n src.stn.val (msgArg m 1 0)) (msgArg m 23 12) = false →
        (t.reg (.peer n) (PEER.P_FENCED src.stn.val)).testBit (msgArg m 1 0) = true ∧
        (t.port n).peerState.look (4 * src.stn.val + msgArg m 1 0) = some 1)) ∧
  (∀ (s : State) (n : PortId) (src : Sender) (m : Msg), s.reg (.link n) LINK.MASTER = 1 → portState s n = PortState.member →
    msgArg m 11 0 = 0xFFF →
    answers (.join n src m) s fun t =>
      (src.stn.val, (s.reg (.peer n) (PEER.P_DEPOCH src.stn.val) + 1) % 4096) ∈ (t.port n).joinAcks ∧
      regsKept s t [] ∧ bytesKept s t) ∧
  (∀ (s : State) (n : PortId) (src : Sender) (m : Msg), m.dst < 12 → m.dst = ownStn s n → portState s n = PortState.joining →
    mapGives s n m.dst = true →
    answers (.joinAck n src m) s fun t =>
      portState t n = PortState.member ∧ t.reg (.link n) LINK.DEPOCH = msgArg m 11 0 ∧
      t.reg (.peer 0) PEER.OWN_PEPOCH = msgArg m 59 12 ∧ (t.reg (.link n) LINK.MEMBER).testBit m.dst = true ∧
      t.reg (.peer n) (PEER.RX_NEXT m.dst) = 0) ∧
  (∀ (s : State) (n : PortId) (src : Sender) (m : Msg), m.dst < 12 → m.dst = ownStn s n → portState s n = PortState.joining →
    mapGives s n m.dst = false →
    answers (.joinAck n src m) s fun t =>
      portState t n = PortState.joining ∧ (t.port n).joinAcked = true ∧ t.reg (.link n) LINK.DEPOCH = msgArg m 11 0) ∧
  (∀ (s : State) (n : PortId) (src : Sender) (m : Msg), m.dst < 12 → m.dst ≠ ownStn s n →
    answers (.joinAck n src m) s fun t =>
      (t.reg (.link n) LINK.MEMBER).testBit m.dst = true ∧ (t.reg (.link n) LINK.UP).testBit m.dst = true ∧
      t.reg (.peer n) (PEER.P_DEPOCH m.dst) = msgArg m 11 0 ∧ t.reg (.peer n) (PEER.RX_NEXT m.dst) = 0 ∧
      portState t n = portState s n) ∧
  (∀ (s : State) (n : PortId) (src : Sender) (m : Msg), stationUp s n src.stn.val = true →
    answers (.leave n src m) s fun t =>
      stationUp t n src.stn.val = false ∧ t.reg (.peer n) (PEER.P_UP src.stn.val) = 0 ∧
      (t.reg (.link n) HDR.IRQ_STAT).testBit 1 = true) ∧
  (∀ (s : State) (n : PortId) (stn : StnId), stationUp s n stn.val = true →
    s.reg (.link n) LINK.DOWN_LAPS ≤ ((s.port n).downLaps.look stn.val).getD 0 →
    answers (.peerDown n stn) s fun t =>
      stationUp t n stn.val = false ∧ t.reg (.peer n) (PEER.P_UP stn.val) = 0 ∧
      (t.reg (.link n) HDR.IRQ_STAT).testBit 1 = true) ∧
  (∀ (s : State) (n : PortId) (src : Sender) (m : Msg), src.stn.val ≠ ownStn s n →
    newerMap (msgArg m 55 48) (s.reg (.link n) LINK.MAPVER) = true →
    answers (.lapmap n src m) s fun t =>
      (t.port n).newMap = some ⟨leWords (m.data.take 16), msgArg m 47 0, msgArg m 55 48, false, []⟩ ∧
      regsKept s t [] ∧ bytesKept s t) ∧
  (∀ (s : State) (n : PortId) (m : NewMap), (s.port n).newMap = some m → m.eff ≤ s.reg (.link n) LINK.LAP → m.mine = false →
    (s.port n).joinAcked = false →
    answers (.lapmapAdopt n) s fun t =>
      (∀ w, w < 4 → t.reg (.link n) (LINK.LAPMAP_ACT w) = m.words.getD w 0 % 2 ^ 32) ∧
      t.reg (.link n) LINK.MAPVER = m.ver % 2 ^ 8 ∧ (t.port n).newMap = none ∧
      (t.port n).muted = (s.port n).muted.filter (fun v => newerMap v m.ver) ∧
      regsKept s t [(.link n, LINK.LAPMAP_ACT 0), (.link n, LINK.LAPMAP_ACT 1), (.link n, LINK.LAPMAP_ACT 2),
        (.link n, LINK.LAPMAP_ACT 3), (.link n, LINK.MAPVER)] ∧ bytesKept s t) ∧
  (∀ (s : State) (n : PortId) (m : NewMap), (s.port n).newMap = some m → m.eff ≤ s.reg (.link n) LINK.LAP →
    (s.port n).joinAcked = true → portState s n = PortState.joining →
    answers (.lapmapAdopt n) s fun t =>
      t.reg (.link n) LINK.MAPVER = m.ver % 2 ^ 8 ∧
      portState t n = (if mapGives t n (ownStn t n) then PortState.member else PortState.joining)) ∧
  (∀ (s : State) (n : PortId), portState s n ≠ PortState.off → portState s n ≠ PortState.starDown →
    s.reg (.link n) LINK.DOWN_LAPS ≤ (s.port n).badLaps ∨ 2000 ≤ (s.port n).dark → portMember s (1 - n) = true →
    answers (.starDown n) s fun t =>
      portState t n = PortState.starDown ∧ (t.reg (.link n) HDR.IRQ_STAT).testBit 3 = true ∧ (t.port n).tx = [] ∧
      (t.port (1 - n)).tx = (s.port (1 - n)).tx ++ (s.port n).tx.map TxMsg.move ∧
      regsKept s t [(.link n, LINK.STATE), (.link n, HDR.IRQ_STAT)] ∧ bytesKept s t) ∧
  (∀ (s : State) (n : PortId), (s.port n).badLaps < s.reg (.link n) LINK.DOWN_LAPS → (s.port n).dark < 2000 →
    answers (.starDown n) s fun t => t = s)

/-- R328, R336, R353: the firmware's writes enable and disable a port, let it join and leave, swap its key and send a
map. Where these rules leave a point open it follows the model's reading (log entries 86 and 87). -/
def Obligations.PistePortControl : Prop :=
  (∀ (s : State) (n : PortId) (v : BitVec 32), pageWritable s (.link n) = true → v.toNat.testBit 0 = true →
    v.toNat.testBit 6 = false → v.toNat.testBit 7 = false → portState s n = PortState.off →
    98000 ≤ s.reg .pwr (PWR.OSC_CAL_T n.val) → s.reg .pwr (PWR.OSC_CAL_T n.val) ≤ 102000 →
    answers (.portEnable n v) s fun t =>
      portState t n = PortState.listen ∧ t.reg (.link n) LINK.EN = 1 ∧ ownStn t n = bitsAt v.toNat 1 4 ∧
      t.reg (.link n) LINK.MASTER = bitsAt v.toNat 5 1 ∧ (t.reg (.link n) HDR.IRQ_STAT).testBit 0 = true ∧
      regsKept s t [(.link n, LINK.STN), (.link n, LINK.MASTER), (.link n, LINK.EN), (.link n, LINK.STATE),
        (.link n, HDR.IRQ_STAT)] ∧ onlyRegs (s.setPort n { s.port n with dark := 0 }) t) ∧
  (∀ (s : State) (n : PortId) (v : BitVec 32), pageWritable s (.link n) = true → v.toNat.testBit 0 = false →
    answers (.portEnable n v) s fun t =>
      portState t n = PortState.off ∧ t.reg (.link n) LINK.EN = 0 ∧ t.reg (.link n) LINK.LAPSYNC = 0 ∧
      ∀ k, k < 12 → (t.reg (.link n) LINK.MEMBER).testBit k = false ∧ stationUp t n k = false) ∧
  (∀ (s : State) (n : PortId), pageWritable s (.link n) = true → portState s n = PortState.listen →
    s.reg (.link n) LINK.LAPSYNC = 1 → ownStn s n < 12 →
    answers (.joinRequest n true) s fun t =>
      portState t n = PortState.joining ∧ regsKept s t [(.link n, LINK.STATE), (.link n, HDR.IRQ_STAT)] ∧ onlyRegs s t) ∧
  (∀ (s : State) (n : PortId), pageWritable s (.link n) = true → portState s n = PortState.joining →
    answers (.joinRequest n false) s fun t =>
      portState t n = PortState.listen ∧ regsKept s t [(.link n, LINK.STATE), (.link n, HDR.IRQ_STAT)] ∧
      onlyRegs (s.setPort n { s.port n with joinAcked := false }) t) ∧
  (∀ (s : State) (n : PortId), pageWritable s (.link n) = true → portState s n = PortState.member →
    answers (.leaveRequest n) s fun t =>
      portState t n = PortState.leaving ∧ (t.port n).leaveSlots = 0 ∧
      regsKept s t [(.link n, LINK.STATE), (.link n, HDR.IRQ_STAT)] ∧ bytesKept s t) ∧
  (∀ (s : State) (n : PortId), pageWritable s (.link n) = true → s.reg (.link n) LINK.NEXT_VALID = 1 →
    answers (.keySwap n) s fun t =>
      (t.port n).keyCur = (s.port n).keyNext ∧ (t.port n).sealed = (s.port n).sealedNext ∧ t.reg (.link n) LINK.NEXT_VALID = 0 ∧
      t.reg (.link n) LINK.KGEN_CUR = s.reg (.link n) LINK.KGEN_NEXT % 2 ^ 8 ∧
      regsKept s t [(.link n, LINK.NEXT_VALID), (.link n, LINK.KGEN_CUR)] ∧ bytesKept s t) ∧
  (∀ (s : State) (n : PortId), pageWritable s (.link n) = true → s.reg (.link n) LINK.MASTER = 1 →
    answers (.lapmapGo n) s fun t =>
      (t.port n).newMap = some ⟨(List.range 4).map fun w => s.reg (.link n) (LINK.LAPMAP_NEW w),
        s.reg (.link n) LINK.EFF_LAP, s.reg (.link n) LINK.VER, true, []⟩ ∧ regsKept s t [] ∧ bytesKept s t)

/-- R347, R348, R351, R362: a write of XR_HEAD starts the next posted descriptor, whose first message goes out; a
transfer that is answered in full, or that has run out of time, ends, advances XR_TAIL and raises XFER_ERR where it
failed. A window arms, disarms, and completes with its signal and interrupt 4. Where these rules leave a point open it
follows the model's reading (log entries 92, 93 and 155). -/
def Obligations.TransfersAndWindows : Prop :=
  (∀ (s s1 s2 : State) (p : PartId) (head : BitVec 16) (bs data : List Byte) (n : PortId), pageWritable s (.peer 0) = true →
    (s.part p).xfer = none → s.reg (.peer 0) (PEER.XR_TAIL p.val) ≠ head.toNat →
    let s0 := s.setReg (.peer 0) (PEER.XR_HEAD p.val) head.toNat
    let a := xferEntry s p
    portAccess p .r a 32 (mcReadOp p 6 a 32 [] [] false) s0 = .ok bs s1 →
    let d := leNat bs
    XferD.bad d = false → XferD.op d = 0 → XferD.len d ≤ 4064 →
    portAccess p .r (XferD.local_ d) (XferD.len d) (mcReadOp p 6 (XferD.local_ d) (XferD.len d) [] [] false)
      (s1.setPart p { s1.part p with xfer := some ⟨d, 0, [], 0, 0⟩ }) = .ok data s2 →
    portFor s p (XferD.stn d) = some n → stationUp s n (XferD.stn d) = true →
    ((s.port n).tx.filter fun t => t.dst = XferD.stn d).length < 1024 →
    answers (.xrHeadWrite p head) s fun t =>
      t.reg (.peer 0) (PEER.XR_HEAD p.val) = head.toNat ∧
      (t.part p).xfer = some ⟨d, XferD.len d, [((s.part p).nextRid, 0, XferD.len d)], 0, 0⟩ ∧
      (∃ m, (t.port n).tx = (s.port n).tx ++ [m] ∧ m.dst = XferD.stn d ∧ m.part = p ∧ m.msg.type = MsgType.write ∧
        m.msg.data = data ∧ msgArg m.msg 39 0 = XferD.remote d ∧ m.seq = none) ∧
      regsKept s2 t []) ∧
  (∀ (s : State) (p : PartId) (head : BitVec 16) (n : PortId), pageWritable s (.peer 0) = true → (s.part p).xfer = none →
    s.reg (.peer 0) (PEER.XR_TAIL p.val) ≠ head.toNat → portOk s p .r (xferEntry s p) 32 →
    burstsClean s p (xferEntry s p) 32 →
    let d := leNat (storedBytes s p (xferEntry s p) 32)
    XferD.bad d = false → XferD.op d = 0 → XferD.len d ≤ 4064 → portOk s p .r (XferD.local_ d) (XferD.len d) →
    burstsClean s p (XferD.local_ d) (XferD.len d) →
    portFor s p (XferD.stn d) = some n → stationUp s n (XferD.stn d) = true →
    ((s.port n).tx.filter fun t => t.dst = XferD.stn d).length < 1024 →
    answers (.xrHeadWrite p head) s fun t =>
      t.reg (.peer 0) (PEER.XR_HEAD p.val) = head.toNat ∧
      (t.part p).xfer = some ⟨d, XferD.len d, [((s.part p).nextRid, 0, XferD.len d)], 0, 0⟩ ∧
      (∃ m, (t.port n).tx = (s.port n).tx ++ [m] ∧ m.dst = XferD.stn d ∧ m.part = p ∧ m.msg.type = MsgType.write ∧
        m.msg.data = storedBytes s p (XferD.local_ d) (XferD.len d) ∧ msgArg m.msg 39 0 = XferD.remote d ∧ m.seq = none)) ∧
  (∀ (s : State) (p : PartId) (head : BitVec 16), pageWritable s (.peer 0) = false →
    answers (.xrHeadWrite p head) s fun t => t = s) ∧
  (∀ (s : State) (p : PartId) (x : Xfer), (s.part p).xfer = some x → xferDone x = true → x.err = Err.none →
    XferD.sig x.desc = false →
    (s.reg (.peer 0) (PEER.XR_TAIL p.val) + 1) % 2 ^ 16 = s.reg (.peer 0) (PEER.XR_HEAD p.val) →
    answers (.xferComplete p) s fun t =>
      (t.part p).xfer = none ∧ t.reg (.peer 0) (PEER.XR_TAIL p.val) = (s.reg (.peer 0) (PEER.XR_TAIL p.val) + 1) % 2 ^ 16 ∧
      t.reg (.link 0) HDR.IRQ_STAT = s.reg (.link 0) HDR.IRQ_STAT ∧
      ∀ s', portAccess p .w (xferEntry s p + 24) 2 (mcWriteOp p 6 (xferEntry s p + 24) (leBytes 2 Err.none) [] []) s =
        .ok () s' → (t.part p).mc = (s'.part p).mc) ∧
  (∀ (s : State) (p : PartId) (x : Xfer), (s.part p).xfer = some x → xferDone x = true → x.err = Err.none →
    XferD.sig x.desc = true →
    (s.reg (.peer 0) (PEER.XR_TAIL p.val) + 1) % 2 ^ 16 = s.reg (.peer 0) (PEER.XR_HEAD p.val) →
    let r := XferD.gate x.desc
    (s.gate p r).valid = true → (s.gate p r).cfg.testBit 23 = true →
    answers (.xferComplete p) s fun t =>
      (t.part p).xfer = none ∧ (t.gate p r).value = min ((s.gate p r).value + 1) (2 ^ 64 - 1)) ∧
  (∀ (s : State) (p : PartId) (x : Xfer), (s.part p).xfer = some x → XferD.sig x.desc = false →
    (s.reg (.peer 0) (PEER.XR_TAIL p.val) + 1) % 2 ^ 16 = s.reg (.peer 0) (PEER.XR_HEAD p.val) →
    answers (.xferTimeout p) s fun t =>
      (t.part p).xfer = none ∧ t.reg (.peer 0) (PEER.XR_TAIL p.val) = (s.reg (.peer 0) (PEER.XR_TAIL p.val) + 1) % 2 ^ 16 ∧
      (t.reg (.link 0) HDR.IRQ_STAT).testBit 6 = true) ∧
  (∀ (s : State) (w : Fin 32), pageWritable s (.peer 0) = true → winOpen s w.val = false →
    s.reg (.peer 0) (PEER.EXPECT w.val) ≠ 0 →
    answers (.winArm w) s fun t =>
      winOpen t w.val = true ∧ t.reg (.peer 0) (PEER.ARRIVED w.val) = 0 ∧ t.reg (.peer 0) (PEER.WSAT w.val) = 0 ∧
      t.reg (.peer 0) (PEER.WIN_ADDS w.val) = 0 ∧ winLatch t w.val = ⟨s.reg (.peer 0) (PEER.TAG w.val),
        s.reg (.peer 0) (PEER.GATE w.val), s.reg (.peer 0) (PEER.EXPECT w.val)⟩ ∧
      regsKept s t [(.peer 0, PEER.ARRIVED w.val), (.peer 0, PEER.WSAT w.val), (.peer 0, PEER.TCAUSE w.val),
        (.peer 0, PEER.TCONTRIB w.val), (.peer 0, PEER.WIN_ADDS w.val), (.peer 0, PEER.WSTATE w.val)] ∧ bytesKept s t) ∧
  (∀ (s : State) (w : Fin 32), pageWritable s (.peer 0) = true →
    answers (.winDisarm w) s fun t =>
      t.reg (.peer 0) (PEER.WSTATE w.val) = 0 ∧ regsKept s t [(.peer 0, PEER.WSTATE w.val)] ∧ bytesKept s t) ∧
  (∀ (s : State) (w : Fin 32), winOpen s w.val = true →
    s.reg (.peer 0) (PEER.ARRIVED w.val) = (winLatch s w.val).expect →
    let r : GateRef := ⟨(winLatch s w.val).gate, true⟩
    (s.gate 0 r).valid = true → (s.gate 0 r).cfg.testBit 23 = true →
    answers (.winComplete w) s fun t =>
      t.reg (.peer 0) (PEER.WSTATE w.val) = 2 ∧ (t.gate 0 r).value = min ((s.gate 0 r).value + 1) (2 ^ 64 - 1) ∧
      (t.reg (.link 0) HDR.IRQ_STAT).testBit 4 = true)

/-- R369, R376 to R378, R386, R388, R392, R414: a doorbell within its ring posts; one outside it, or of a standing
queue, is discarded with DB_ERR; one that is ignored only counts; one before FW_READY is lost. Enabling a queue sets its
counts to 0, disabling it drains it. The tails, FC_DB and HB take what is written. Where these rules leave a point open
it follows the model's reading (log entries 28 and 38). -/
def Obligations.DoorbellsAndRings : Prop :=
  (∀ (s : State) (p : PartId) (q : QueueId) (v : BitVec 32), pageWritable s (.qmg p) = true →
    s.reg (.pctl p) PCTL.FW_READY ≠ 0 → s.reg (.pctl p) PCTL.DB_IGNORE ≠ 1 → qr s p (QMG.Q_STANDING q.val) ≠ 1 →
    (v.toNat + 2 ^ 32 - qr s p (QMG.Q_HEAD q.val)) % 2 ^ 32 ≤ 2 ^ qr s p (QMG.Q_LOG2 q.val) →
    answers (.doorbell p q v) s fun t =>
      qr t p (QMG.Q_DB q.val) = v.toNat ∧ regsKept s t [(.qmg p, QMG.Q_DB q.val)] ∧ onlyRegs s t) ∧
  (∀ (s : State) (p : PartId) (q : QueueId) (v : BitVec 32), pageWritable s (.qmg p) = true →
    s.reg (.pctl p) PCTL.FW_READY ≠ 0 → s.reg (.pctl p) PCTL.DB_IGNORE ≠ 1 →
    qr s p (QMG.Q_STANDING q.val) = 1 ∨
      2 ^ qr s p (QMG.Q_LOG2 q.val) < (v.toNat + 2 ^ 32 - qr s p (QMG.Q_HEAD q.val)) % 2 ^ 32 →
    answers (.doorbell p q v) s fun t =>
      qr t p (QMG.DB_ERR q.val) = 1 ∧ qr t p QMG.DB_IGNORED = min (qr s p QMG.DB_IGNORED + 1) (2 ^ 32 - 1) ∧
      regsKept s t [(.qmg p, QMG.DB_ERR q.val), (.qmg p, QMG.DB_IGNORED)] ∧ onlyRegs s t) ∧
  (∀ (s : State) (p : PartId) (q : QueueId) (v : BitVec 32), pageWritable s (.qmg p) = true →
    s.reg (.pctl p) PCTL.FW_READY ≠ 0 → s.reg (.pctl p) PCTL.DB_IGNORE = 1 →
    answers (.doorbell p q v) s fun t =>
      qr t p QMG.DB_IGNORED = min (qr s p QMG.DB_IGNORED + 1) (2 ^ 32 - 1) ∧
      regsKept s t [(.qmg p, QMG.DB_IGNORED)] ∧ onlyRegs s t) ∧
  (∀ (s : State) (p : PartId) (q : QueueId) (v : BitVec 32),
    s.reg (.pctl p) PCTL.FW_READY = 0 ∨ pageWritable s (.qmg p) = false →
    answers (.doorbell p q v) s fun t => t = s) ∧
  (∀ (s : State) (p : PartId) (q : QueueId), pageWritable s (.qmg p) = true → qr s p (QMG.Q_EN q.val) = 0 →
    answers (.queueEnable p q true) s fun t =>
      qr t p (QMG.Q_EN q.val) = 1 ∧ qr t p (QMG.Q_DB q.val) = 0 ∧ qr t p (QMG.Q_HEAD q.val) = 0 ∧
      qr t p (QMG.CR_HEAD q.val) = 0 ∧ qr t p (QMG.Q_STATE q.val) = QState.active ∧ ((t.part p).chain q.val).next = 0 ∧
      regsKept s t [(.qmg p, QMG.Q_EN q.val), (.qmg p, QMG.Q_DB q.val), (.qmg p, QMG.Q_HEAD q.val),
        (.qmg p, QMG.CR_HEAD q.val), (.qmg p, QMG.Q_STATE q.val)] ∧ bytesKept s t) ∧
  (∀ (s : State) (p : PartId) (q : QueueId), pageWritable s (.qmg p) = true → qr s p (QMG.Q_EN q.val) = 1 →
    answers (.queueEnable p q false) s fun t =>
      qr t p (QMG.Q_EN q.val) = 0 ∧
      qr t p (QMG.Q_STATE q.val) =
        (if (s.part p).jobs.any fun j => j.queue = q.val then QState.draining else QState.disabled) ∧
      regsKept s t [(.qmg p, QMG.Q_EN q.val), (.qmg p, QMG.Q_STATE q.val)] ∧ bytesKept s t) ∧
  (∀ (s : State) (p : PartId) (q : QueueId) (v : BitVec 32), pageWritable s (.qmg p) = true →
    (s.part p).jobs.any Job.ended = false →
    answers (.crTailWrite p q v) s fun t =>
      qr t p (QMG.CR_TAIL q.val) = v.toNat ∧ quietKept s t [(.qmg p, QMG.CR_TAIL q.val)]) ∧
  (∀ (s : State) (p : PartId) (v : BitVec 32), pageWritable s (.pctl p) = true →
    (∀ g ∈ tilesOf p, ∀ c ∈ (s.tile g).seq.sync, c.op ≠ Op.mark) →
    answers (.trTailWrite p v) s fun t =>
      t.reg (.pctl p) PCTL.TR_TAIL = v.toNat ∧ regsKept s t [(.pctl p, PCTL.TR_TAIL)] ∧ onlyRegs s t) ∧
  (∀ (s : State) (p : PartId) (v : BitVec 32), pageWritable s (.pctl p) = true → s.reg (.pctl p) PCTL.FW_READY = 1 →
    (v.toNat + 2 ^ 32 - s.reg (.pctl p) PCTL.FC_HEAD) % 2 ^ 32 ≤ 2 ^ s.reg (.pctl p) PCTL.FC_LOG2 →
    answers (.fcDoorbell p v) s fun t =>
      t.reg (.pctl p) PCTL.FC_DB = v.toNat ∧
      (v.toNat ≠ s.reg (.pctl p) PCTL.FC_DB → (t.reg (.pctl p) HDR.IRQ_STAT).testBit 9 = true) ∧
      regsKept s t [(.pctl p, PCTL.FC_DB), (.pctl p, HDR.IRQ_STAT)] ∧ onlyRegs s t) ∧
  (∀ (s : State) (p : PartId) (v : BitVec 32), pageWritable s (.pctl p) = true → (s.part p).replies = [] →
    answers (.frTailWrite p v) s fun t =>
      t.reg (.pctl p) PCTL.FR_TAIL = v.toNat ∧ quietKept s t [(.pctl p, PCTL.FR_TAIL)]) ∧
  (∀ (s : State) (p : PartId) (v : BitVec 32), pageWritable s (.pctl p) = true →
    answers (.hbWrite p v) s fun t =>
      t.reg (.pctl p) PCTL.HB = v.toNat ∧ t.reg (.pctl p) PCTL.HB_AGE = 0 ∧
      regsKept s t [(.pctl p, PCTL.HB), (.pctl p, PCTL.HB_AGE)] ∧ onlyRegs s t)

/-- R371, R372, R374, R378: the queue manager dispatches the head that it has chosen: Q_HEAD or STD_SEQ goes on,
DISPATCHES counts, and every tile of TMASK runs its list. A job all of whose tiles have ended completes: it leaves the
partition's jobs, CR_HEAD goes on where it asks for a record, its gate is signalled and its interrupt raised where it
asks for them. Where these rules leave a point open it follows the model's reading (log entries 24, 25, 29 and 45). -/
def Obligations.JobsDispatchAndComplete : Prop :=
  (∀ (s : State) (p : PartId) (o : Offer), nextOffer ((prepare p).after s) p = some o →
    offerAsleep ((prepare p).after s) p o = false → jobRefusal ((prepare p).after s) p o.desc = Err.none →
    JobD.type o.desc = 1 → o.head.again = none → o.head.inst = none →
    (∀ g ∈ jobTiles p o.desc, (((prepare p).after s).tile g).units.switchErr = Err.none) →
    let s' := (prepare p).after s
    (∀ k ∈ (s'.part p).jobs, k.id ≠ (s'.part p).nextJob) →
    answers (.jobDispatch p) s fun t =>
      qr t p (QMG.Q_HEAD o.q) = (qr s' p (QMG.Q_HEAD o.q) + 1) % 2 ^ 32 ∧
      qr t p QMG.DISPATCHES = min (qr s' p QMG.DISPATCHES + 1) (2 ^ 64 - 1) ∧
      (∃ j, (t.part p).jobs = (s'.part p).jobs ++ [j] ∧ j.queue = o.q ∧ j.desc = o.desc ∧ j.index = o.head.index ∧
        j.seq = JobD.seq o.desc ∧ j.status = Err.none ∧ j.ended = false) ∧
      (∀ g ∈ jobTiles p o.desc, tlState t g = TlState.run ∧
        (t.tile g).seq = ⟨some (JobD.listOf o.desc (localOf g)), [], [], 0, false⟩ ∧
        t.reg (.tile g .tl) TL.TL_LIST = JobD.listOf o.desc (localOf g) ∧
        t.reg (.tile g .tl) TL.TL_JOB_SEQ = JobD.seq o.desc) ∧
      (∀ g, g ∉ jobTiles p o.desc → (t.tile g).seq = (s'.tile g).seq ∧ (t.tile g).units = (s'.tile g).units)) ∧
  (∀ (s : State) (p : PartId) (q : QueueId) (o : Offer) (n e i : Nat) (a : Option Job),
    headOf ((prepare p).after s) p q.val = some ⟨i, e, some (n, 0), a⟩ →
    let s1 := (attempt (fetchHead p q.val)).after ((prepare p).after s)
    nextOffer s1 p = some o → o.q = q.val → o.head.inst = some (n, 0) → o.head.again = none →
    offerAsleep s1 p o = false → jobRefusal s1 p o.desc = Err.none → JobD.type o.desc = 1 →
    (∀ g ∈ jobTiles p o.desc, (s1.tile g).units.switchErr = Err.none) → (∀ k ∈ (s1.part p).jobs, k.id ≠ (s1.part p).nextJob) →
    nextOffer ((attempt (fetchHead p q.val)).after ((dispatchOffer p o).after s1)) p = none →
    answers (.standingInstance p q) s fun t =>
      qr t p (QMG.STD_SEQ q.val) = (n + 1) % 2 ^ 32 ∧
      qr t p QMG.DISPATCHES = min (qr s1 p QMG.DISPATCHES + 1) (2 ^ 64 - 1) ∧
      (∀ g ∈ jobTiles p o.desc, tlState t g = TlState.run ∧
        (t.tile g).seq = ⟨some (JobD.listOf o.desc (localOf g)), [], [], 0, false⟩)) ∧
  (∀ (s : State) (p : PartId) (j : Job), let s1 := (forAll (tilesOf p) collectTile).after s
    (s1.part p).jobs = [j] → j.ended = false → j.queue < 16 → jobRuns s1 p j = false → (s.part p).replaying = none →
    (s.part p).chainWrites = [] → j.status = Err.none → JobD.compl j.desc = true → JobD.csig j.desc = false →
    crFull s1 p j.queue = false →
    (∃ q off, pccTarget s.variant (ringAddr (qr s p (QMG.CR_BASE j.queue)) (qr s p (QMG.CR_LOG2 j.queue)) 32
      (qr s p (QMG.CR_HEAD j.queue))) = some (.pmem q off)) →
    answers (.jobComplete p) s fun t =>
      (t.part p).jobs = [] ∧ qr t p (QMG.CR_HEAD j.queue) = (qr s p (QMG.CR_HEAD j.queue) + 1) % 2 ^ 32 ∧
      (JobD.irq j.desc = true → (t.reg (.qmg p) HDR.IRQ_STAT).testBit j.queue = true)) ∧
  (∀ (s : State) (p : PartId) (j : Job), let s1 := (forAll (tilesOf p) collectTile).after s
    (s1.part p).jobs = [j] → j.ended = false → j.queue < 16 → jobRuns s1 p j = false → (s.part p).replaying = none →
    (s.part p).chainWrites = [] → j.status = Err.none → JobD.compl j.desc = false → JobD.csig j.desc = true →
    let x := s.gate p (JobD.gate j.desc)
    x.valid = true → (Signaler.queue p j.queue).allowed x.cfg (JobD.gate j.desc).global = true →
    answers (.jobComplete p) s fun t =>
      (t.part p).jobs = [] ∧ (t.gate p (JobD.gate j.desc)).value = min (x.value + 1) (2 ^ 64 - 1) ∧
      qr t p (QMG.CR_HEAD j.queue) = qr s p (QMG.CR_HEAD j.queue))

/-- R21, R281, R382, R383, R395, R472: at a boundary every active copy of the partition's tile pages takes its pending
value, the models that its tiles switch to are active there, BND_CNT counts up to its largest value, BND_REQ falls and
interrupt 10 is raised; before every tile is between jobs nothing of this happens. A revert gives every pending copy of
a page its active value. -/
def Obligations.BoundariesAndSwaps : Prop :=
  (∀ (s : State) (p : PartId), s.reg (.pctl p) PCTL.BND_REQ = 1 → s.reg .dlw (DLW.STATE p.val) = 0 → allBetween s p = true →
    answers (.boundaryDeclare p) s fun t =>
      t.reg (.pctl p) PCTL.BND_CNT = min (s.reg (.pctl p) PCTL.BND_CNT + 1) (2 ^ 32 - 1) ∧ t.reg (.pctl p) PCTL.BND_REQ = 0 ∧
      (t.reg (.pctl p) HDR.IRQ_STAT).testBit 10 = true ∧
      (∀ m ∈ s.eng.models, ∀ u ∈ m.next, u / 12 = p.val → ∃ x ∈ t.eng.models, x.handle = m.handle ∧ u ∈ x.active) ∧
      (∀ g ∈ tilesOf p, ∀ k ∈ [TPage.tl, .cnv, .rot, .lft], ∀ f ∈ (PageId.tile g k).rws,
        t.reg (.tile g k) f.active = s.reg (.tile g k) f % 2 ^ f.width ∧
        t.reg (.tile g k) HDR.SWAP_CNT = (s.reg (.tile g k) HDR.SWAP_CNT + 1) % 2 ^ HDR.SWAP_CNT.width)) ∧
  (∀ (s : State) (p : PartId), s.reg (.pctl p) PCTL.BND_REQ ≠ 1 ∨ s.reg .dlw (DLW.STATE p.val) ≠ 0 ∨ allBetween s p = false →
    answers (.boundaryDeclare p) s fun t => quietKept s t [] ∧ t.tiles = s.tiles) ∧
  (∀ (s : State) (page : Nat) (i : PageId), fittedPage s page = some i → pageWritable s i = true →
    answers (.swapRevert page) s fun t =>
      (∀ f ∈ i.rws, t.reg i f = s.reg i f.active % 2 ^ f.width) ∧ (∀ k, k ≠ i → t.bank k = s.bank k) ∧ onlyRegs s t)

/-- R278 to R281, R378, R385 to R387: the firmware's commands, each ended by its reply where the reply ring takes it:
fetch, models, gates and standing chains. Fetching, LOAD_MODEL, UNLOAD_MODEL and BIND are said too where the rings lie
in partition memory that is stored without an error. In GRACE and ORPHANED a command other than ATTACH and QUERY has no
effect but its reply. Where these rules leave a point open it follows the model's reading (log entries 43, 44, 45, 48,
49, 50, 142, 143 and 170). -/
def Obligations.FirmwareCommands : Prop :=
  (∀ (s s1 : State) (p : PartId) (bs : List Byte), fwRuns s p = true → (s.part p).replies = [] → (s.part p).fw = none →
    s.reg (.pctl p) PCTL.FC_HEAD ≠ s.reg (.pctl p) PCTL.FC_DB →
    settle (pccRead p (.fw p) (ringAddr (s.reg (.pctl p) PCTL.FC_BASE) (s.reg (.pctl p) PCTL.FC_LOG2) 64
      (s.reg (.pctl p) PCTL.FC_HEAD)) 64) s = .ok bs s1 →
    answers (.fwCommandFetch p) s fun t =>
      t.reg (.pctl p) PCTL.FC_HEAD = (s.reg (.pctl p) PCTL.FC_HEAD + 1) % 2 ^ 32 ∧
      (fwBad (leNat bs) = false → (t.part p).fw = some ⟨leNat bs, s.reg (.pctl p) PCTL.FC_HEAD, 0⟩ ∧
        quietKept s t [(.pctl p, PCTL.FC_HEAD)]) ∧
      (fwBad (leNat bs) = true → replyFits s p → fwAnswered s t p)) ∧
  (∀ (s : State) (p q : PartId) (off : Nat), fwRuns s p = true → (s.part p).replies = [] → (s.part p).fw = none →
    s.reg (.pctl p) PCTL.FC_HEAD ≠ s.reg (.pctl p) PCTL.FC_DB →
    coreReads s p (ringAddr (s.reg (.pctl p) PCTL.FC_BASE) (s.reg (.pctl p) PCTL.FC_LOG2) 64
      (s.reg (.pctl p) PCTL.FC_HEAD)) 64 q off → fwBad (leNat (storedBytes s q off 64)) = false →
    answers (.fwCommandFetch p) s fun t =>
      t.reg (.pctl p) PCTL.FC_HEAD = (s.reg (.pctl p) PCTL.FC_HEAD + 1) % 2 ^ 32 ∧
      (t.part p).fw = some ⟨leNat (storedBytes s q off 64), s.reg (.pctl p) PCTL.FC_HEAD, 0⟩ ∧
      quietKept s t [(.pctl p, PCTL.FC_HEAD)]) ∧
  (∀ (s : State) (p : PartId) (c : FwCmd) (i : Instr),
    i ∈ [Instr.loadModel p, .unloadModel p, .switchModel p, .gateCreate p, .gateDestroy p, .bindStanding p,
      .unbindStanding p, .fwActivate p] →
    fwRuns s p = true → s.reg (.pctl p) PCTL.HOST ≠ 0 → (s.part p).fw = some c → c.phase = 0 →
    i = ([Instr.loadModel p, .unloadModel p, .switchModel p, .gateCreate p, .gateDestroy p, .bindStanding p,
      .unbindStanding p, Instr.attach p, .fwActivate p].getD (bitsAt c.bits 0 8 - 1) (.query p)) →
    0 < bitsAt c.bits 0 8 → replyFits s p →
    answers i s fun t =>
      fwAnswered s t p ∧ (∀ q r, t.gate q r = s.gate q r) ∧ t.eng.models.map Model.handle = s.eng.models.map Model.handle) ∧
  (∀ (s s2 s3 : State) (p : PartId) (c : FwCmd) (h : Nat) (y : Model), fwHolds s p 0x01 c →
    (c.phase = h ∧ h ≠ 0 ∧ s2 = s) ∨ (c.phase = 0 ∧ ∃ b m s0 s1,
      settle (imageBytes p (bitsAt c.bits 64 40)) s = .ok (some b) s0 ∧ parseImage b = some m ∧
      acceptImage m c.bits s0 = .ok (Err.none, h) s1 ∧ s2 = (fwPhase p c h).after s1) →
    (forAll (List.finRange 48) fun g => driveLoads g h) s2 = .ok () s3 → modelNamed s3 h = some y →
    answers (.loadModel p) s fun t =>
      (y.loadErr = Err.none → y.loadLists ≤ y.loadGate → (s3.part p).fw = some { c with phase := h } → replyFits s3 p →
        fwAnswered s3 t p ∧ t.eng.models = s3.eng.models) ∧
      (y.loadErr ≠ Err.none → (s3.part p).fw = some { c with phase := h } → replyFits s3 p →
        fwAnswered s3 t p ∧ ∀ x ∈ t.eng.models, x.handle ≠ h) ∧
      (y.loadErr = Err.none → y.loadGate < y.loadLists → quietKept s3 t [] ∧ t.eng.models = s3.eng.models)) ∧
  (∀ (s s1 : State) (p : PartId) (c : FwCmd) (b : List Byte) (m : Image) (ps : List PartId) (gs : List TileId),
    fwHolds s p 0x01 c → c.phase = 0 → replyFits s p →
    settle (imageBytes p (bitsAt c.bits 64 40)) s = .ok (some b) s1 → parseImage b = some m →
    placement m c.bits = some (ps, gs) → fitCheck s1 m ps gs ≠ Err.none →
    answers (.loadModel p) s fun t =>
      fwAnswered s t p ∧ t.eng.models = s.eng.models ∧ ∀ q r, t.gate q r = s.gate q r) ∧
  (∀ (s : State) (p q : PartId) (c : FwCmd) (m : Image) (ps : List PartId) (gs : List TileId) (off n : Nat),
    fwHolds s p 0x01 c → c.phase = 0 → replyFits s p → 64 ≤ n → coreReads s p (bitsAt c.bits 64 40) n q off →
    imageLen ((storedBytes s q off n).take 64) = some n → parseImage (storedBytes s q off n) = some m → m.sects = [] →
    placement m c.bits = some (ps, gs) → fitCheck s m ps gs = Err.none →
    (∀ x ∈ s.eng.models, x.handle < s.eng.nextHandle) →
    (∀ g, ∀ l ∈ (s.tile g).units.loads, l.handle < s.eng.nextHandle) →
    answers (.loadModel p) s fun t =>
      fwAnswered s t p ∧ t.eng.models.map Model.handle = s.eng.models.map Model.handle ++ [s.eng.nextHandle] ∧
      ∃ y ∈ t.eng.models, y.handle = s.eng.nextHandle ∧ y.id = m.id ∧ y.ver = m.ver ∧ y.resident = true) ∧
  (∀ (s s1 : State) (p : PartId) (c : FwCmd) (m : Model) (busy : Bool), fwHolds s p 0x02 c → replyFits s p →
    residentNamed s (bitsAt c.bits 64 32) = some m → settle (modelBusy p m) s = .ok busy s1 →
    answers (.unloadModel p) s fun t =>
      fwAnswered s t p ∧
      (busy = false → (∀ x ∈ t.eng.models, x.handle ≠ m.handle) ∧
        ∀ a ∈ m.parts, ∀ k, k < a.gates → (t.gate ⟨a.part % 4, by omega⟩ ⟨a.gate0 + k, false⟩).valid = false) ∧
      (busy = true → t.eng.models.map Model.handle = s.eng.models.map Model.handle ∧ ∀ q r, t.gate q r = s.gate q r)) ∧
  (∀ (s : State) (p : PartId) (c : FwCmd) (m : Model), fwHolds s p 0x02 c → replyFits s p →
    residentNamed s (bitsAt c.bits 64 32) = some m →
    (∀ q, (s.part q).jobs = [] ∧ (s.part q).suspects = [] ∧ ∀ k, k < 16 → entriesOf s q k = []) →
    answers (.unloadModel p) s fun t =>
      fwAnswered s t p ∧ (∀ x ∈ t.eng.models, x.handle ≠ m.handle) ∧
      ∀ a ∈ m.parts, ∀ k, k < a.gates → (t.gate ⟨a.part % 4, by omega⟩ ⟨a.gate0 + k, false⟩).valid = false) ∧
  (∀ (s : State) (p : PartId) (c : FwCmd), fwHolds s p 0x03 c →
    (∀ (m : Model), c.phase = 0 → residentNamed s (bitsAt c.bits 64 32) = some m →
      (∀ g ∈ tilesOf p, ∀ k, k < 17 → bankStat s g k ≠ 3) →
      answers (.switchModel p) s fun t =>
      (t.part p).switchWait = true ∧ (t.part p).fw = some { c with phase := min 0xFFFFFFFF (s.reg (.pctl p) PCTL.BND_CNT + 1) } ∧
      (∀ u ∈ m.tiles, (∃ g ∈ tilesIn p (bitsAt c.bits 96 12), g.val = u.tile) →
        ∃ x ∈ t.eng.models, x.handle = m.handle ∧ u.tile ∈ x.next) ∧
      t.eng.models.map Model.active = s.eng.models.map Model.active) ∧
    (c.phase ≠ 0 → (s.part p).switchWait = false → replyFits s p → answers (.switchModel p) s fun t =>
      fwAnswered s t p ∧ t.tiles = s.tiles)) ∧
  (∀ (s : State) (p : PartId) (c : FwCmd) (b : Nat), fwHolds s p 0x04 c → replyFits s p → bitsAt c.bits 64 11 ≠ 0 →
    bitsAt c.bits 64 11 ≤ 1024 → cfgBad (bitsAt c.bits 128 64) (bitAt c.bits 80) = false →
    findGates s p (bitAt c.bits 80) (bitsAt c.bits 64 11) = some b →
    answers (.gateCreate p) s fun t =>
      fwAnswered s t p ∧
      (∀ k, k < bitsAt c.bits 64 11 →
        t.gate p ⟨b + k, bitAt c.bits 80⟩ = newGate (bitsAt c.bits 128 64) (bitsAt c.bits 192 64)) ∧
      (∀ r, r.global ≠ bitAt c.bits 80 ∨ r.index < b ∨ b + bitsAt c.bits 64 11 ≤ r.index → t.gate p r = s.gate p r)) ∧
  (∀ (s : State) (p : PartId) (c : FwCmd), fwHolds s p 0x05 c → replyFits s p → bitsAt c.bits 74 11 ≠ 0 →
    (∀ k, k < bitsAt c.bits 74 11 → (s.gate p ⟨bitsAt c.bits 64 10 + k, bitAt c.bits 85⟩).valid = true ∧
      gateInUse s p ⟨bitsAt c.bits 64 10 + k, bitAt c.bits 85⟩ = false) →
    answers (.gateDestroy p) s fun t =>
      fwAnswered s t p ∧
      (∀ k, k < bitsAt c.bits 74 11 → (t.gate p ⟨bitsAt c.bits 64 10 + k, bitAt c.bits 85⟩).valid = false) ∧
      (∀ r, r.global ≠ bitAt c.bits 85 ∨ r.index < bitsAt c.bits 64 10 ∨
        bitsAt c.bits 64 10 + bitsAt c.bits 74 11 ≤ r.index → t.gate p r = s.gate p r)) ∧
  (∀ (s s1 : State) (p : PartId) (c : FwCmd) (ds : List Nat), fwHolds s p 0x06 c → replyFits s p →
    let q := bitsAt c.bits 64 4
    let l := bitsAt c.bits 80 16
    let gate : GateRef := ⟨bitsAt c.bits 96 10, bitAt c.bits 106⟩
    let len := if l = 0 then 65536 else l
    qr s p (QMG.Q_EN q) ≠ 0 → qr s p (QMG.Q_STANDING q) ≠ 1 → qr s p (QMG.Q_DB q) = qr s p (QMG.Q_HEAD q) →
    len ≤ 2 ^ qr s p (QMG.Q_LOG2 q) → (s.gate p gate).valid = true →
    settle (mapAll (List.range len) fun k => do
      return leNat (← pccRead p (.fw p) (qr s p (QMG.Q_BASE q) * 64 + k * 64) 64)) s = .ok ds s1 →
    ds.any JobD.bad = false →
    answers (.bindStanding p) s fun t =>
      fwAnswered s t p ∧ qr t p (QMG.Q_STANDING q) = 1 ∧ qr t p (QMG.STD_SEQ q) = 0 ∧
      qr t p (QMG.STD_FBASE q) = (s.gate p gate).value % 2 ^ 64 ∧ qr t p (QMG.STD_FGATE q) = gate.index ∧
      qr t p (QMG.STD_FGLOBAL q) = b2n gate.global ∧ qr t p (QMG.STD_LEN q) = l ∧
      qr t p (QMG.STD_MAXLAG q) = bitsAt c.bits 112 16) ∧
  (∀ (s : State) (p r : PartId) (c : FwCmd) (off : Nat), fwHolds s p 0x06 c → replyFits s p →
    let q := bitsAt c.bits 64 4
    let l := bitsAt c.bits 80 16
    let gate : GateRef := ⟨bitsAt c.bits 96 10, bitAt c.bits 106⟩
    let len := if l = 0 then 65536 else l
    qr s p (QMG.Q_EN q) ≠ 0 → qr s p (QMG.Q_STANDING q) ≠ 1 → qr s p (QMG.Q_DB q) = qr s p (QMG.Q_HEAD q) →
    len ≤ 2 ^ qr s p (QMG.Q_LOG2 q) → (s.gate p gate).valid = true →
    coreReads s p (qr s p (QMG.Q_BASE q) * 64) (len * 64) r off →
    (∀ k, k < len → JobD.bad (leNat (storedBytes s r (off + k * 64) 64)) = false) →
    answers (.bindStanding p) s fun t =>
      fwAnswered s t p ∧ qr t p (QMG.Q_STANDING q) = 1 ∧ qr t p (QMG.STD_SEQ q) = 0 ∧
      qr t p (QMG.STD_FBASE q) = (s.gate p gate).value % 2 ^ 64 ∧ qr t p (QMG.STD_FGATE q) = gate.index ∧
      qr t p (QMG.STD_FGLOBAL q) = b2n gate.global ∧ qr t p (QMG.STD_LEN q) = l) ∧
  (∀ (s : State) (p : PartId) (c : FwCmd), fwHolds s p 0x07 c → replyFits s p → let q := bitsAt c.bits 64 4
    qr s p (QMG.Q_STANDING q) = 1 → (s.part p).chainBusy q = false → ((s.part p).chain q).next = 0 →
    answers (.unbindStanding p) s fun t =>
      fwAnswered s t p ∧ qr t p (QMG.Q_STANDING q) = 0 ∧ qr t p (QMG.STD_SEQ q) = qr s p (QMG.STD_SEQ q))

/-- R386, R388 to R390, R485: ATTACH takes the host back, FW_ACTIVATE holds the partitions until their common boundary
and then runs the installed bundle, QUERY answers its item; a heartbeat that stays away leads to GRACE, and after the
last instance to ORPHANED with the standing chains quiesced. Where these rules leave a point open it follows the model's
reading (log entries 23 and 51). -/
def Obligations.HostAndActivation : Prop :=
  (∀ (s : State) (p : PartId) (c : FwCmd), fwRuns s p = true → (s.part p).fw = some c → bitsAt c.bits 0 8 = 0x08 →
    replyFits s p →
    answers (.attach p) s fun t =>
      fwAnswered s t p ∧ t.reg (.pctl p) PCTL.HOST = 0 ∧ t.reg (.pctl p) PCTL.DB_IGNORE = 0 ∧ (t.part p).grace = [] ∧
      ∀ q, q < 16 → qr t p (QMG.Q_STATE q) =
        (if qr s p (QMG.Q_STATE q) = QState.quiesced then QState.active else qr s p (QMG.Q_STATE q))) ∧
  (∀ (s : State) (p : PartId) (c : FwCmd), fwHolds s p 0x09 c → s.reg .pwr PWR.EMG_LEVEL = 0 →
    (s.eng.activating = some p → (∀ q, inReset s q = false ∧ allBetween s q = true) → s.eng.heldMailbox = none →
      replyFits s p → answers (.fwActivate p) s fun t =>
      fwAnswered s t p ∧ t.reg .sec SEC.FW_VER_RUN = s.reg .sec SEC.INST_VER % 2 ^ 32 ∧ t.reg .sec SEC.INST_VALID = 0 ∧
      t.eng.activating = none ∧ ∀ q, (t.part q).actHold = false) ∧
    (s.eng.activating = none → (∀ q, inReset s q = false) → replyFits s p → answers (.fwActivate p) s fun t =>
      (activationCheck s = Err.none →
        t.eng.activating = some p ∧
        (∀ q, (t.part q).actHold = true ∧ (s.reg (.pctl q) PCTL.BND_REQ ≤ 1 → t.reg (.pctl q) PCTL.BND_REQ = 1) ∧
          (s.reg (.pctl q) PCTL.BND_REQ = 0 → (t.part q).bndAct = true)) ∧
        (t.part p).fw = some { c with phase := 2 }) ∧
      (activationCheck s ≠ Err.none →
        fwAnswered s t p ∧ t.reg .sec SEC.FW_VER_RUN = s.reg .sec SEC.FW_VER_RUN ∧ t.eng.activating = none))) ∧
  (∀ (s s1 : State) (p q : PartId) (c : FwCmd) (off : Nat), fwRuns s p = true → (s.part p).fw = some c →
    bitsAt c.bits 0 8 = 0x0A → (s.part p).replies = [] → frFull s p = false → (∀ r, (s.part r).events = []) →
    let a := ringAddr (s.reg (.pctl p) PCTL.FR_BASE) (s.reg (.pctl p) PCTL.FR_LOG2) 32 (s.reg (.pctl p) PCTL.FR_HEAD)
    let x := queryItem s p (bitsAt c.bits 64 8) (bitsAt c.bits 96 32)
    pccTarget s.variant a = some (.pmem q off) →
    settle (pccWrite p (.fw p) a (replyRecord s p ⟨0x0A, c.count, x.1, bitsAt c.bits 32 32, x.2⟩))
      ((fwReply p c x.1 x.2).after s) = .ok () s1 → (∀ r, (s1.part r).events = []) →
    answers (.query p) s fun t =>
      fwAnswered s t p ∧ (t.part q).mc = (s1.part q).mc ∧ (∀ r g, t.gate r g = s.gate r g) ∧
      quietKept s t [(.pctl p, PCTL.FR_HEAD), (.pctl p, HDR.IRQ_STAT)]) ∧
  (∀ (s : State) (p : PartId) (c : FwCmd), fwRuns s p = true → (s.part p).fw = some c → bitsAt c.bits 0 8 = 0x0A →
    replyFits s p →
    answers (.query p) s fun t => fwAnswered s t p ∧ t.eng.models = s.eng.models ∧ ∀ r g, t.gate r g = s.gate r g) ∧
  (∀ (s : State) (p : PartId), fwRuns s p = true → s.reg (.pctl p) PCTL.HOST = 0 → s.reg (.pctl p) PCTL.HB_TMO ≠ 0 →
    answers (.hbExpire p) s fun t =>
      t.reg (.pctl p) PCTL.HOST = 1 ∧ t.reg (.pctl p) PCTL.DB_IGNORE = 1 ∧
      (t.reg (.pctl p) HDR.IRQ_STAT).testBit 8 = true ∧ (t.part p).grace = [] ∧
      quietKept s t [(.pctl p, PCTL.HOST), (.pctl p, PCTL.DB_IGNORE), (.pctl p, PCTL.HB_AGE), (.pctl p, HDR.IRQ_STAT)]) ∧
  (∀ (s : State) (p : PartId), fwRuns s p = true → s.reg (.pctl p) PCTL.HOST = 1 → (s.part p).jobs = [] →
    (s.part p).suspects = [] → (∀ q, q < 16 → graceDone s p q = true) →
    answers (.orphan p) s fun t =>
      t.reg (.pctl p) PCTL.HOST = 2 ∧ (t.reg (.pctl p) HDR.IRQ_STAT).testBit 1 = true ∧
      ∀ q, q < 16 → qr t p (QMG.Q_STATE q) =
        (if qr s p (QMG.Q_STANDING q) = 1 ∧ qr s p (QMG.Q_STATE q) = QState.active then QState.quiesced
         else qr s p (QMG.Q_STATE q)))

/-- R399, R401, R409, R411, R422, R423, R428: a stall or cycle declaration, PRESET, the watchdog and the firmware's own
request start the partition reset: the partition enters FENCE with the trigger's cause, its tiles stop, its dispatched
jobs become suspects. Outside RUN a trigger only counts. A pair entry takes what is written, and enabled between
partitions in RUN reads DUAL. Where these rules leave a point open it follows the model's reading (log entries 56, 59
and 60). -/
def Obligations.PartitionResetStarts : Prop :=
  (∀ (s : State) (p : PartId) (i : Instr) (cause : Nat), (i, cause) ∈ [(Instr.pccWdogExpire p, 5), (.partitionFence p, 4)] →
    s.reg .dlw (DLW.STATE p.val) = PState.run →
    answers i s fun t =>
      t.reg .dlw (DLW.STATE p.val) = PState.fence ∧ t.reg .dlw (DLW.CAUSE p.val) = cause ∧ t.reg .dlw (DLW.DIRTY p.val) = 0 ∧
      t.reg .dlw DLW.RESET_CNT = min (s.reg .dlw DLW.RESET_CNT + 1) (2 ^ DLW.RESET_CNT.width - 1) ∧
      (t.part p).rst.isSome = true ∧ (t.part p).fenceOf = some (ownEpoch s p) ∧ (t.part p).jobs.all Job.ended = true ∧
      ∀ g ∈ tilesOf p, (t.tile g).units = .reset ∧ (t.tile g).job = none ∧ (t.tile g).seq.sync = [] ∧
        (t.tile g).seq.fetchPc = none) ∧
  (∀ (s : State) (p : PartId) (i : Instr), i ∈ [Instr.pccWdogExpire p, .partitionFence p] →
    s.reg .dlw (DLW.STATE p.val) ≠ PState.run → s.reg .dlw (DLW.STATE p.val) ≠ PState.fence →
    answers i s fun t =>
      t.reg .dlw HDR.ERR_CNT = min (s.reg .dlw HDR.ERR_CNT + 1) (2 ^ 32 - 1) ∧ quietKept s t (errFields .dlw)) ∧
  (∀ (s : State) (bits : BitVec 4), pageWritable s .dlw = true →
    (∀ p : PartId, bits.toNat.testBit p.val = true → s.reg .dlw (DLW.STATE p.val) = PState.run) →
    answers (.preset bits) s fun t => ∀ p : PartId,
      (bits.toNat.testBit p.val = true → t.reg .dlw (DLW.STATE p.val) = PState.fence ∧ t.reg .dlw (DLW.CAUSE p.val) = 3) ∧
      (bits.toNat.testBit p.val = false → t.reg .dlw (DLW.STATE p.val) = s.reg .dlw (DLW.STATE p.val) ∧
        t.reg .dlw (DLW.CAUSE p.val) = s.reg .dlw (DLW.CAUSE p.val))) ∧
  (∀ (s : State) (g : TileId), s.reg .dlw DLW.EN = 1 →
    tlState s g ∈ [TlState.run, TlState.stopping, TlState.fenceWait] → s.reg .dlw (DLW.STATE (partOf g).val) = PState.run →
    answers (.stallDeclare g) s fun t =>
      t.reg .dlw DLW.STALL_CNT = min (s.reg .dlw DLW.STALL_CNT + 1) (2 ^ DLW.STALL_CNT.width - 1) ∧
      (t.reg .dlw HDR.IRQ_STAT).testBit 1 = true ∧
      (s.reg .dlw DLW.AUTO_RESET = 1 → t.reg .dlw (DLW.STATE (partOf g).val) = PState.fence ∧
        t.reg .dlw (DLW.CAUSE (partOf g).val) = 2) ∧
      (s.reg .dlw DLW.AUTO_RESET ≠ 1 → quietKept s t [(.dlw, DLW.STALL_CNT), (.dlw, HDR.IRQ_STAT)])) ∧
  (∀ (s : State) (qs : List QueueAt), s.reg .dlw DLW.EN = 1 → cycles s = [qs] →
    (∀ k ∈ qs, s.reg .dlw (DLW.STATE k.p.val) = PState.run) →
    answers .cycleDeclare s fun t =>
      t.reg .dlw DLW.HANG_CNT = min (s.reg .dlw DLW.HANG_CNT + 1) (2 ^ DLW.HANG_CNT.width - 1) ∧
      (t.reg .dlw HDR.IRQ_STAT).testBit 0 = true ∧
      t.reg .dlw DLW.CYC_QMASK = (qs.foldl (fun m k => m + 2 ^ k.num) 0) % 2 ^ 64 ∧
      (s.reg .dlw DLW.AUTO_RESET ≠ 1 →
        quietKept s t [(.dlw, DLW.HANG_CNT), (.dlw, DLW.CYC_QMASK), (.dlw, HDR.IRQ_STAT)]) ∧
      (s.reg .dlw DLW.AUTO_RESET = 1 → ∀ k ∈ qs, waitState s k.p k.q = .waiting →
        t.reg .dlw (DLW.STATE k.p.val) = PState.fence ∧ t.reg .dlw (DLW.CAUSE k.p.val) = 1)) ∧
  (∀ (s : State) (k : Fin 8) (v : BitVec 64), pageWritable s .dlw = true → s.reg .dlw (DLW.STATUS k.val) = Pair.none_ →
    bitAt v.toNat 12 = true →
    (bitsAt v.toNat 0 2 = bitsAt v.toNat 6 2 → answers (.pairEntryWrite k v) s fun t => quietKept s t []) ∧
    (bitsAt v.toNat 0 2 ≠ bitsAt v.toNat 6 2 → s.reg .dlw (DLW.STATE (bitsAt v.toNat 0 2)) = PState.run →
      s.reg .dlw (DLW.STATE (bitsAt v.toNat 6 2)) = PState.run → answers (.pairEntryWrite k v) s fun t =>
        t.reg .dlw (DLW.STATUS k.val) = Pair.dual ∧ t.reg .dlw (DLW.PEN k.val) = 1 ∧
        t.reg .dlw (DLW.A_PART k.val) = bitsAt v.toNat 0 2 ∧ t.reg .dlw (DLW.A_QUEUE k.val) = bitsAt v.toNat 2 4 ∧
        t.reg .dlw (DLW.B_PART k.val) = bitsAt v.toNat 6 2 ∧ t.reg .dlw (DLW.B_QUEUE k.val) = bitsAt v.toNat 8 4))

/-- R403 to R408, R411: the fence ends when every outstanding request is answered, or at its timeout, which ends them
and marks the partition DIRTY; then the dump begins, into the slot where that is free, or the partition goes OFF. Each
element's record goes into the slot behind those before it, the last one with the header, VALID and DUMP_READY; an
element that cannot be read counts. DUMP_REL frees slots. Where these rules leave a point open it follows the model's
reading (log entries 58, 60, 65, 68, 69 and 145). -/
def Obligations.FenceAndDump : Prop :=
  (∀ (s : State) (p : PartId) (r : ResetRun), s.reg .dlw (DLW.STATE p.val) = PState.fence → (s.part p).rst = some r →
    r.toOff = false → outstanding s p = false →
    answers (.fenceDone p) s fun t =>
      t.reg .dlw (DLW.STATE p.val) = PState.dump ∧
      (t.part p).rst = some { r with slotFree := !(s.reg .dlw DLW.VALID).testBit p.val, elem := 0, unread := 0, bytes := 0 } ∧
      ((s.reg .dlw DLW.VALID).testBit p.val = false → (t.reg .dlw DLW.BUSY).testBit p.val = true) ∧
      ((s.reg .dlw DLW.VALID).testBit p.val = true → (t.reg .dlw (DLW.CAUSE p.val)).testBit 3 = true) ∧
      ((s.part p).xfer = none → quietKept s t [(.dlw, DLW.STATE p.val), (.dlw,
        if (s.reg .dlw DLW.VALID).testBit p.val then DLW.CAUSE p.val else DLW.BUSY)])) ∧
  (∀ (s : State) (p : PartId), s.reg .dlw (DLW.STATE p.val) ≠ PState.fence ∨ outstanding s p = true →
    answers (.fenceDone p) s fun t => quietKept s t []) ∧
  (∀ (s : State) (p : PartId) (r : ResetRun), s.reg .dlw (DLW.STATE p.val) = PState.fence → (s.part p).rst = some r →
    r.toOff = true → outstanding s p = false → (s.part p).suspects = [] → (s.part p).jobs = [] → 3 ≤ s.reg .pwr PWR.EMG_LEVEL →
    answers (.fenceDone p) s fun t =>
      t.reg .dlw (DLW.STATE p.val) = PState.off ∧ t.reg (.pctl p) PCTL.FW_READY = 0 ∧ (t.part p).rst = none) ∧
  (∀ (s : State) (p : PartId) (r : ResetRun), s.reg .dlw (DLW.STATE p.val) = PState.fence → (s.part p).rst = some r →
    r.toOff = false → outstanding s p = true →
    answers (.fenceTimeout p) s fun t =>
      t.reg .dlw (DLW.STATE p.val) = PState.dump ∧ t.reg .dlw (DLW.DIRTY p.val) = 1 ∧
      t.reg .dlw DLW.FENCE_DIRTY_CNT = min (s.reg .dlw DLW.FENCE_DIRTY_CNT + 1) (2 ^ DLW.FENCE_DIRTY_CNT.width - 1) ∧
      (t.part p).xfer = none ∧ ((s.part p).xfer = none → (∀ q, (s.part q).events = []) →
        ∀ x ∈ t.eng.sys.reqs, x.who.part ≠ p.val)) ∧
  (∀ (s : State) (p : PartId) (r : ResetRun) (code idx : Nat), s.reg .dlw (DLW.STATE p.val) = PState.dump →
    (s.part p).rst = some r → (dumpList s r.slotFree)[r.elem]? = some (code, idx) →
    answers (.dumpElement p) s fun t =>
      (∃ u, (t.part p).rst = some u ∧ u.elem = r.elem + 1 ∧ u.unread = r.unread) ∧
      (r.slotFree = true → let rec_ := elemRecord s p code idx (elemData s p code idx) false
        (∀ k, k < rec_.length → t.eng.dump.get (slotBase p + 64 + r.bytes + k) = rec_.getD k 0) ∧
        (r.elem + 1 = (dumpList s true).length → (t.reg .dlw DLW.VALID).testBit p.val = true ∧
          (t.reg .dlw DLW.BUSY).testBit p.val = false ∧ (t.reg .dlw HDR.IRQ_STAT).testBit 7 = true)) ∧
      (r.slotFree = false → t.eng.dump = s.eng.dump ∧
        ∀ k, k < 1024 → t.eng.gateSave.get (p.val * 16384 + idx * 1024 + k) = (elemData s p code idx).getD k 0) ∧
      regsKept s t [(.dlw, DLW.VALID), (.dlw, DLW.BUSY), (.dlw, HDR.IRQ_STAT)] ∧ t.tiles = s.tiles) ∧
  (∀ (s : State) (p : PartId) (r : ResetRun) (code idx : Nat), s.reg .dlw (DLW.STATE p.val) = PState.dump →
    (s.part p).rst = some r → (dumpList s r.slotFree)[r.elem]? = some (code, idx) →
    answers (.elemTimeout p) s fun t =>
      t.reg .dlw DLW.UNREADABLE_CNT = min (s.reg .dlw DLW.UNREADABLE_CNT + 1) (2 ^ DLW.UNREADABLE_CNT.width - 1) ∧
      (∃ u, (t.part p).rst = some u ∧ u.elem = r.elem + 1 ∧ u.unread = r.unread + 1) ∧
      (r.slotFree = true →
        let rec_ := elemRecord s p code idx (leBytes 4 0xDEAD0BAD ++ leBytes 4 (code * 65536 + idx)) true
        ∀ k, k < rec_.length → t.eng.dump.get (slotBase p + 64 + r.bytes + k) = rec_.getD k 0) ∧
      regsKept s t [(.dlw, DLW.VALID), (.dlw, DLW.BUSY), (.dlw, HDR.IRQ_STAT), (.dlw, DLW.UNREADABLE_CNT)]) ∧
  (∀ (s : State) (bits : BitVec 4), pageWritable s .dlw = true →
    answers (.dumpRelease bits) s fun t =>
      (∀ p : PartId, (t.reg .dlw DLW.VALID).testBit p.val =
        ((s.reg .dlw DLW.VALID).testBit p.val && !bits.toNat.testBit p.val)) ∧
      regsKept s t [(.dlw, DLW.VALID)] ∧ onlyRegs s t)

/-- R410, R412, R413, R415, R417: after the dump the partition enters RESET: its epoch rises, logic and tiles are reset,
memory stays; a LOAD_MODEL that its firmware was carrying out is lost with its model. A training that every channel
passes sets TRAINED, any other raises the controller's interrupt 2 and takes the partition to FAILED, with an event in
the log ring of its journal. RETRAIN ends when every channel group is trained, with zeros over the memory, and neither
journal nor models left there, where the partition is DIRTY. RESTART ends with FW_READY, the journal's rings and gates
and every tile's seed, in RUN where no suspect is to be replayed. A stage that exceeds its budget takes the partition to
FAILED. Where these rules leave a point open it follows the model's reading (log entries 42, 46, 53, 61, 66 and 146). -/
def Obligations.ResetStages : Prop :=
  (∀ (s : State) (p : PartId) (r : ResetRun), s.reg .dlw (DLW.STATE p.val) = PState.dump → (s.part p).rst = some r →
    (r.elem < (dumpList s r.slotFree).length → answers (.partitionReset p) s fun t => t = s) ∧
    ((dumpList s r.slotFree).length ≤ r.elem → answers (.partitionReset p) s fun t =>
      t.reg .dlw (DLW.STATE p.val) = PState.reset ∧
      t.reg .dlw (DLW.EPOCH p.val) = (s.reg .dlw (DLW.EPOCH p.val) + 1) % 2 ^ 12 ∧
      t.bank (.pctl p) = [] ∧ t.bank (.qmg p) = [] ∧ (t.part p).gates = [] ∧ outstanding t p = false ∧
      (∀ c, ((t.part p).ctl c).mem = ((s.part p).ctl c).mem) ∧
      (∀ g ∈ tilesOf p, (t.tile g).spd = Tile.reset.spd ∧ (t.tile g).pg = Tile.reset.pg ∧ (t.tile g).units = .reset ∧
        (t.tile g).seq = Tile.reset.seq ∧ (t.tile g).dither = (s.tile g).dither) ∧
      (∀ g, g ∉ tilesOf p → { t.tile g with pg := (s.tile g).pg, units := (s.tile g).units } = s.tile g) ∧
      (∀ q, q ≠ p → { t.part q with gates := (s.part q).gates } = s.part q) ∧
      ((∀ c, (s.part p).fw = some c → bitsAt c.bits 0 8 ≠ 0x01 ∨ c.phase = 0) →
        (∀ g, g ∉ tilesOf p → t.tile g = s.tile g) ∧ ∀ q, q ≠ p → t.part q = s.part q))) ∧
  (∀ (s : State) (p : PartId) (c : Fin 2) (pass : List Bool), s.reg .dlw (DLW.STATE p.val) = PState.retrain →
    c.val < s.variant.groups → (∀ q, (s.part q).events = []) → (∀ h, h < 8 → pass.getD h false = true) →
    answers (.memTraining p c pass) s fun t =>
      t.reg (.mc p c) MC.CH_TRAINED = 255 ∧ t.reg (.mc p c) MC.TRAINED = 1 ∧
      regsKept s t [(.mc p c, MC.CH_TRAINED), (.mc p c, MC.TRAINED)] ∧ onlyRegs s t) ∧
  (∀ (s : State) (p : PartId) (c : Fin 2) (pass : List Bool) (h : Nat), s.reg .dlw (DLW.STATE p.val) = PState.retrain →
    c.val < s.variant.groups → (s.part p).events = [] → h < 8 → pass.getD h false = false →
    answers (.memTraining p c pass) s fun t =>
      (t.reg (.mc p c) MC.CH_TRAINED).testBit h = false ∧ t.reg (.mc p c) MC.TRAIN_ERR = 1 ∧
      (t.reg (.mc p c) HDR.IRQ_STAT).testBit 2 = true ∧ t.reg .dlw (DLW.STATE p.val) = PState.failed ∧
      (t.reg .dlw HDR.IRQ_STAT).testBit 3 = true ∧
      ∀ j, (s.part p).journal = some j → ∃ k, (t.part p).journal = some k ∧
        k.pctl.get PCTL.LG_HEAD = (j.pctl.get PCTL.LG_HEAD + 1) % 2 ^ 32) ∧
  (∀ (s : State) (p : PartId), s.reg .dlw (DLW.STATE p.val) = PState.retrain →
    (∀ c : Fin 2, c.val < s.variant.groups → s.reg (.mc p c) MC.TRAINED = 1) →
    answers (.retrainDone p) s fun t =>
      t.reg .dlw (DLW.STATE p.val) = PState.restart ∧
      (∀ i f, ¬(i = .dlw ∧ f.key = (DLW.STATE p.val).key) → (∀ g, ¬(i = .tile g .lft ∧ f.key = LFT.LIST_BUSY.key)) →
        t.reg i f = s.reg i f) ∧
      (s.reg .dlw (DLW.DIRTY p.val) ≠ 1 → regsKept s t [(.dlw, DLW.STATE p.val)] ∧
        ∀ c, ((t.part p).ctl c).mem = ((s.part p).ctl c).mem) ∧
      (s.reg .dlw (DLW.DIRTY p.val) = 1 → (∀ c : Fin 2, c.val < s.variant.groups → ((t.part p).ctl c).mem = .empty) ∧
        (t.part p).journal = none ∧ ∀ m ∈ t.eng.models, m.parts.all fun a => a.part ≠ p.val)) ∧
  (∀ (s : State) (p : PartId) (seeds : List (BitVec 64)), s.reg .dlw (DLW.STATE p.val) = PState.restart →
    s.reg (.pctl p) PCTL.FW_READY = 0 → (s.part p).suspects = [] → (s.part p).jobs = [] →
    answers (.restartDone p seeds) s fun t =>
      t.reg .dlw (DLW.STATE p.val) = PState.run ∧ (t.part p).rst = none ∧ t.reg (.pctl p) PCTL.FW_READY = 1 ∧
      t.reg (.pctl p) PCTL.FW_VER = s.reg .sec SEC.FW_VER_RUN % 2 ^ 32 ∧
      t.reg (.pctl p) PCTL.OC_NOW = s.reg (.pctl p) PCTL.OC_NOW % 2 ^ PCTL.OC_NOW.width ∧
      (s.reg .dlw (DLW.CAUSE p.val) % 8 ≠ 0 → (t.reg .dlw HDR.IRQ_STAT).testBit 2 = true) ∧
      (∀ g ∈ tilesOf p, (t.tile g).dither =
        (if seeds.getD (localOf g) 0 = 0 then ditherReset else seeds.getD (localOf g) 0)) ∧
      ∀ j, (s.part p).journal = some j → ∀ q, q < 16 →
        ∀ f ∈ [QMG.Q_BASE q, QMG.Q_LOG2 q, QMG.Q_DB q, QMG.Q_HEAD q, QMG.CR_BASE q, QMG.CR_LOG2 q, QMG.CR_HEAD q,
          QMG.CR_TAIL q], t.reg (.qmg p) f = j.qmg.get f) ∧
  (∀ (s : State) (p : PartId) (seeds : List (BitVec 64)) (r : ResetRun) (y : Suspect),
    s.reg .dlw (DLW.STATE p.val) = PState.restart → (s.part p).rst = some r → r.replay = true → s.reg .dlw DLW.REPLAY_EN = 1 →
    y ∈ (s.part p).suspects → y.verdict = none →
    answers (.restartDone p seeds) s fun t => t.reg .dlw (DLW.STATE p.val) = PState.replay) ∧
  (∀ (s : State) (p : PartId),
    s.reg .dlw (DLW.STATE p.val) ∈ [PState.reset, PState.retrain, PState.restart] →
    answers (.resetBudgetExpire p) s fun t =>
      t.reg .dlw (DLW.STATE p.val) = PState.failed ∧ (t.reg .dlw HDR.IRQ_STAT).testBit 3 = true ∧ (t.part p).rst = none ∧
      quietKept s t [(.dlw, DLW.STATE p.val), (.dlw, HDR.IRQ_STAT), (.pwr, PWR.EMG_DONE)]) ∧
  (∀ (s : State) (p : PartId),
    s.reg .dlw (DLW.STATE p.val) ∉ [PState.reset, PState.retrain, PState.restart] →
    answers (.resetBudgetExpire p) s fun t => quietKept s t [])

/-- R418 to R421: in REPLAY the oldest suspect without a verdict runs alone; one that has ended without an error is
clear, one that ended with an error, or runs for too long, is quarantined, and after a timeout a further reset begins,
with every other suspect clear; the partition completion gate of a clear one is signalled; without a suspect left the
partition enters RUN. Where these rules leave a point open it follows the model's reading (log entries 33, 47, 65 and
156). -/
def Obligations.ReplayVerdicts : Prop :=
  (∀ (s : State) (p : PartId), s.reg .dlw (DLW.STATE p.val) = PState.replay →
    let s1 := (forAll (tilesOf p) collectTile).after s
    ((s1.part p).replaying = none → (s1.part p).suspects.find? (fun x => x.verdict = none) = none →
      answers (.replaySuspect p) s fun t => t.reg .dlw (DLW.STATE p.val) = PState.run ∧ (t.part p).rst = none) ∧
    (∀ x : Suspect, (s1.part p).replaying = none → (s1.part p).suspects.find? (fun x => x.verdict = none) = some x →
      allBetween s1 p = true → (∀ g ∈ jobTiles p x.job.desc, (s1.tile g).units.switchErr = Err.none) →
      (∀ k ∈ (s1.part p).jobs, k.id ≠ x.job.id) →
      answers (.replaySuspect p) s fun t =>
        (t.part p).replaying = some x.job.id ∧ t.reg .dlw (DLW.STATE p.val) = PState.replay ∧
        (∀ g ∈ jobTiles p x.job.desc, tlState t g = TlState.run ∧
          (t.tile g).seq = ⟨some (JobD.listOf x.job.desc (localOf g)), [], [], 0, false⟩)) ∧
    (∀ j : Job, (s1.part p).replaying = some j.id → (s1.part p).jobs.find? (fun k => k.id = j.id) = some j →
      jobRuns s1 p j = false →
      (j.status = Err.none → j.inst = none → answers (.replaySuspect p) s fun t =>
        t.reg .dlw DLW.REPLAY_CLEAR = min (s.reg .dlw DLW.REPLAY_CLEAR + 1) (2 ^ DLW.REPLAY_CLEAR.width - 1) ∧
        (JobD.csig j.desc = true → (JobD.gate j.desc).global = false → (s.gate p (JobD.gate j.desc)).valid = true →
          (Signaler.queue p j.queue).allowed (s.gate p (JobD.gate j.desc)).cfg false = true →
          (t.gate p (JobD.gate j.desc)).value = min ((s.gate p (JobD.gate j.desc)).value + 1) (2 ^ 64 - 1))) ∧
      (j.status ≠ Err.none → answers (.replaySuspect p) s fun t =>
        t.reg .dlw DLW.QUARANTINE_CNT = min (s.reg .dlw DLW.QUARANTINE_CNT + 1) (2 ^ DLW.QUARANTINE_CNT.width - 1) ∧
        (t.reg .dlw HDR.IRQ_STAT).testBit 4 = true ∧
        ∀ m, modelOfJob s1 p j.desc (fun _ => true) = some m → ∀ x ∈ t.eng.models, x.handle = m.handle → x.status = 2))) ∧
  (∀ (s : State) (p : PartId) (j : Job), s.reg .dlw (DLW.STATE p.val) = PState.replay → replayJob s p = some j →
    answers (.replayTimeout p) s fun t =>
      t.reg .dlw (DLW.STATE p.val) = PState.fence ∧ t.reg .dlw (DLW.CAUSE p.val) = 6 ∧
      (∃ r, (t.part p).rst = some r ∧ r.replay = false) ∧
      (∀ n, n = ((s.part p).suspects.filter fun x => x.verdict = none ∧ x.job.id ≠ j.id).length → n ≠ 0 →
        t.reg .dlw DLW.REPLAY_CLEAR = min (s.reg .dlw DLW.REPLAY_CLEAR + n) (2 ^ DLW.REPLAY_CLEAR.width - 1)) ∧
      t.reg .dlw DLW.QUARANTINE_CNT = min (s.reg .dlw DLW.QUARANTINE_CNT + 1) (2 ^ DLW.QUARANTINE_CNT.width - 1) ∧
      (t.reg .dlw HDR.IRQ_STAT).testBit 4 = true) ∧
  (∀ (s : State) (p : PartId), s.reg .dlw (DLW.STATE p.val) ≠ PState.replay →
    answers (.replaySuspect p) s (fun t => quietKept s t []) ∧ answers (.replayTimeout p) s fun t => quietKept s t [])

/-- R22, R425, R436 to R438, R446, R449, R455: engine reset resets and holds every block, while the security block, the
OTP, the flash and the stacks keep what they hold, and the ROM boots. In DEVELOP, SECURED and RETURNED it classifies
both copies and boots the one valid copy, of two the one with the higher FW_VER and A where they are equal, or enters
the recovery loader, as it does at the strap; the engine leaves reset once its oscillator is calibrated, every partition
then starting from RESET. In BLANK it enters the loader with nothing read, and in VOID it stays in reset. Where these
rules leave a point open it follows the model's reading (log entries 103, 104, 105, 148, 151 and 172). -/
def Obligations.EngineResetAndBoot : Prop :=
  (∀ s : State, answers .engineReset s fun t =>
      t.eng.inReset = true ∧ t.eng.otp = s.eng.otp ∧ t.eng.flash = s.eng.flash ∧ t.eng.dump = s.eng.dump ∧
      (∀ i f, i ≠ .sec → t.reg i f = f.reset) ∧
      (∀ f ∈ [SEC.LC_STATE, SEC.SVN_CTR, SEC.KEY_PROV, SEC.KEY_REVOKED, SEC.DEV_ID],
        t.reg .sec f = s.reg .sec f % 2 ^ f.width) ∧
      t.reg .sec SEC.NONCE ≠ s.reg .sec SEC.NONCE % 2 ^ 64 ∧
      (∀ p c, ((t.part p).ctl c).mem = ((s.part p).ctl c).mem) ∧ (∀ p, (t.part p).gates = [] ∧ (t.part p).jobs = []) ∧
      t.eng.ggates = [] ∧ t.eng.models = [] ∧ t.eng.faulted = [] ∧ t.eng.faultLog = [] ∧
      ∀ g, (t.tile g).spd = Tile.reset.spd ∧ (t.tile g).units = .reset ∧ (t.tile g).seq = Tile.reset.seq ∧
        (t.tile g).job = none) ∧
  (∀ s : State, lcState s ∈ [Lc.develop, Lc.secured, Lc.returned] → s.reg .sec SEC.SVN_CTR < 2 ^ SEC.SVN_CTR.width →
    let ea := classifyCopy s 0 false
    let eb := classifyCopy s 1 false
    answers .engineReset s fun t => t.reg .sec SEC.A_ERR = ea ∧ t.reg .sec SEC.B_ERR = eb ∧
      (ea = Err.none ∨ eb = Err.none → t.eng.bootWait = true ∧ t.eng.loader.running = false ∧
        t.eng.runCopy = t.reg .sec SEC.BOOT_COPY ∧
        t.reg .sec SEC.FW_VER_RUN = BundleH.fwVer (copyHeader s (t.reg .sec SEC.BOOT_COPY))) ∧
      (ea ≠ Err.none → eb ≠ Err.none → t.eng.loader.running = true ∧ t.reg .sec SEC.BOOT_RCV = 1)) ∧
  (∀ (s : State) (strap errA errB againA againB : Bool), s.reg .sec SEC.SVN_CTR < 2 ^ SEC.SVN_CTR.width →
    let ea := classifyCopy s 0 errA
    let eb := classifyCopy s 1 errB
    let va := BundleH.fwVer (copyHeader s 0)
    let vb := BundleH.fwVer (copyHeader s 1)
    (lcState s = Lc.blank → answers (.coldBoot strap errA errB againA againB) s fun t =>
      t.eng.loader.running = true ∧ t.eng.loader.staging = .empty ∧ t.reg .sec SEC.BOOT_RCV = 1 ∧ t.eng.inReset = true ∧
      t.reg .sec SEC.NONCE ≠ s.reg .sec SEC.NONCE % 2 ^ 64) ∧
    (lcState s = Lc.void → answers (.coldBoot strap errA errB againA againB) s fun t =>
      t.eng.inReset = true ∧ t.eng.loader.running = false ∧ t.reg .sec SEC.A_ERR = ea ∧ t.reg .sec SEC.B_ERR = eb) ∧
    (lcState s ∈ [Lc.develop, Lc.secured, Lc.returned] → strap = true →
      answers (.coldBoot strap errA errB againA againB) s fun t =>
      t.eng.inReset = true ∧ t.eng.loader.running = true ∧ t.eng.loader.staging = .empty ∧
      t.reg .sec SEC.BOOT_RCV = 1 ∧ t.reg .sec SEC.A_ERR = ea ∧ t.reg .sec SEC.B_ERR = eb) ∧
    (lcState s ∈ [Lc.develop, Lc.secured, Lc.returned] → strap = false →
      answers (.coldBoot strap errA errB againA againB) s fun t =>
      (ea = Err.none → (eb = Err.none → vb ≤ va) → againA = false →
          t.eng.inReset = true ∧ t.eng.bootWait = true ∧ t.reg .sec SEC.BOOT_COPY = 0 ∧ t.reg .sec SEC.BOOT_ALT = 0 ∧
          t.reg .sec SEC.BOOT_TIE = b2n (eb = Err.none && va = vb) ∧ t.reg .sec SEC.BOOT_RCV = 0 ∧
          t.reg .sec SEC.FW_VER_RUN = va ∧ t.reg .sec SEC.A_ERR = 0 ∧ t.reg .sec SEC.B_ERR = eb ∧
          t.eng.loader.running = false ∧ t.eng.runCopy = 0 ∧ t.eng.debug = debugIn (lcState s) ∧
          t.reg .sec SEC.DBG_OPEN = b2n (lcState s = Lc.develop) ∧
          t.reg .sec SEC.NONCE ≠ s.reg .sec SEC.NONCE % 2 ^ 64) ∧
      (eb = Err.none → (ea = Err.none → va < vb) → againB = false →
          t.eng.inReset = true ∧ t.eng.bootWait = true ∧ t.reg .sec SEC.BOOT_COPY = 1 ∧ t.reg .sec SEC.BOOT_ALT = 1 ∧
          t.reg .sec SEC.BOOT_TIE = 0 ∧ t.reg .sec SEC.BOOT_RCV = 0 ∧ t.reg .sec SEC.FW_VER_RUN = vb ∧
          t.reg .sec SEC.A_ERR = ea ∧ t.reg .sec SEC.B_ERR = 0 ∧ t.eng.loader.running = false ∧ t.eng.runCopy = 1) ∧
      (ea ≠ Err.none → eb ≠ Err.none →
          t.eng.inReset = true ∧ t.eng.bootWait = false ∧ t.eng.loader.running = true ∧ t.eng.loader.staging = .empty ∧
          t.reg .sec SEC.BOOT_RCV = 1 ∧ t.reg .sec SEC.A_ERR = ea ∧ t.reg .sec SEC.B_ERR = eb)))

/-- R435, R439 to R443, R446 to R449: each mailbox command that the life cycle state allows is carried out, with STATUS,
DONE and interrupt 0; one that comes while another runs only sets OVR. A package that passes every check goes into the
copy that is not running, and only there; where that is cut off, the copy holds the bundle as far as it was written and
no complete tag area, so that it fails check 1 or 2; one that fails writes nothing. Where these rules leave a point open
it follows the model's reading (log entries 4, 112, 147, 149, 150 and 173). -/
def Obligations.MailboxCommands : Prop :=
  (∀ (s : State) (pkg bundle : List Byte) (x : SigBlock), mbReached s = true → s.reg .sec SEC.BUSY = 0 → lcOpen s = true →
    s.eng.activating = none → package pkg = some (bundle, x) →
    answers (.install ⟨pkg, none⟩) s fun t => let k := 1 - s.eng.runCopy
    (installCheck s pkg = Err.none →
      t.reg .sec SEC.STATUS = 0 ∧ t.reg .sec SEC.DONE = 1 ∧ t.reg .sec SEC.BUSY = 0 ∧
      (t.reg .sec HDR.IRQ_STAT).testBit 0 = true ∧ t.reg .sec SEC.INST_VALID = 1 ∧ t.reg .sec SEC.INST_COPY = k ∧
      t.reg .sec SEC.INST_VER = BundleH.fwVer (leNat (bundle.take 256)) ∧
      (∀ a, a < bundle.length → t.eng.flash.get (copyBase k + a) = bundle.getD a 0) ∧
      (∀ a, a < copyBase k ∨ copyBase k + 0x800000 ≤ a → t.eng.flash.get a = s.eng.flash.get a)) ∧
    (installCheck s pkg ≠ Err.none →
      t.reg .sec SEC.STATUS = installCheck s pkg ∧ t.reg .sec SEC.DONE = 1 ∧ t.reg .sec SEC.BUSY = 0 ∧
      regsKept s t [(.sec, SEC.STATUS), (.sec, SEC.DONE), (.sec, SEC.BUSY), (.sec, HDR.IRQ_STAT)] ∧ onlyRegs s t)) ∧
  (∀ (s : State) (pkg : List Byte), mbReached s = true → s.reg .sec SEC.BUSY = 0 → lcOpen s = true →
    s.eng.activating ≠ none → answers (.install ⟨pkg, none⟩) s fun t =>
      t.reg .sec SEC.BUSY = 1 ∧ t.eng.heldMailbox = some pkg ∧ t.eng.flash = s.eng.flash ∧
      regsKept s t [(.sec, SEC.BUSY)]) ∧
  (∀ (s : State) (pkg bundle : List Byte) (x : SigBlock) (n : Nat), mbReached s = true → s.reg .sec SEC.BUSY = 0 →
    lcOpen s = true → s.eng.activating = none → package pkg = some (bundle, x) → n < bundle.length + 64 →
    answers (.install ⟨pkg, some n⟩) s fun t => let k := 1 - s.eng.runCopy
    (installCheck s pkg = Err.none →
      t.eng.inReset = true ∧ t.reg .sec SEC.INST_VALID = 0 ∧
      (∀ a, a < n → a < bundle.length → t.eng.flash.get (copyBase k + a) = bundle.getD a 0) ∧
      (copyTag t k).getD 63 0 ≠ (tagArea s bundle).getD 63 0 ∧
      (n ≤ bundle.length → tagAreaOk (copyTag t k) (BundleH.len (copyHeader t k)) = false) ∧
      (∀ a, a < copyBase k ∨ (copyBase k + n ≤ a ∧ a < copyBase k + 0x7FFFC0) ∨ copyBase k + 0x800000 ≤ a →
        t.eng.flash.get a = s.eng.flash.get a)) ∧
    (installCheck s pkg ≠ Err.none → t.reg .sec SEC.STATUS = installCheck s pkg ∧ t.eng.flash = s.eng.flash)) ∧
  (∀ (s : State) (i : Instr) (k : Package) (b : List Byte), i ∈ [Instr.install k, .commitSvn, .revoke b, .mbStatus] →
    mbReached s = true → s.reg .sec SEC.BUSY = 1 → answers i s fun t =>
      t.reg .sec SEC.OVR = 1 ∧ regsKept s t [(.sec, SEC.OVR)] ∧ onlyRegs s t) ∧
  (∀ s : State, mbReached s = true → s.reg .sec SEC.BUSY = 0 → lcOpen s = true → answers .commitSvn s fun t =>
      t.reg .sec SEC.STATUS = 0 ∧ t.reg .sec SEC.DONE = 1 ∧
      t.reg .sec SEC.SVN_CTR =
        (if s.reg .sec SEC.SVN_CTR < s.eng.runSvn ∧ s.eng.runSvn ≤ 64 then s.eng.runSvn else s.reg .sec SEC.SVN_CTR) ∧
      regsKept s t [(.sec, SEC.STATUS), (.sec, SEC.DONE), (.sec, SEC.BUSY), (.sec, HDR.IRQ_STAT), (.sec, SEC.SVN_CTR)] ∧
      onlyRegs s t) ∧
  (∀ (s : State) (req : List Byte), mbReached s = true → s.reg .sec SEC.BUSY = 0 → lcOpen s = true →
    let slot := s.reg .sec SEC.MB_SLOT
    let record := leBytes 4 0x56454B52 ++ leBytes 4 slot ++ leBytes 8 (s.reg .sec SEC.DEV_ID)
    let other := (List.range 16).any fun i => i ≠ slot && keyUsable s i
    answers (.revoke req) s fun t =>
      t.reg .sec SEC.STATUS =
        (if other = false then Err.lifecycle else if requestSigned s req record slot then Err.none else Err.sigInvalid) ∧
      t.reg .sec SEC.DONE = 1 ∧
      t.reg .sec SEC.KEY_REVOKED =
        (if other = true ∧ requestSigned s req record slot = true then (s.reg .sec SEC.KEY_REVOKED ||| 2 ^ slot) % 2 ^ 16
         else s.reg .sec SEC.KEY_REVOKED) ∧
      regsKept s t
        [(.sec, SEC.STATUS), (.sec, SEC.DONE), (.sec, SEC.BUSY), (.sec, HDR.IRQ_STAT), (.sec, SEC.KEY_REVOKED)] ∧
      onlyRegs s t) ∧
  (∀ s : State, mbReached s = true → s.reg .sec SEC.BUSY = 0 → lcState s ≠ Lc.blank → answers .mbStatus s fun t =>
      t.reg .sec SEC.STATUS = 0 ∧ t.reg .sec SEC.DONE = 1 ∧
      regsKept s t [(.sec, SEC.STATUS), (.sec, SEC.DONE), (.sec, SEC.BUSY), (.sec, HDR.IRQ_STAT)] ∧ onlyRegs s t)

/-- R446 to R448: LC_SECURE and LC_VOID move the device where the request is signed and the state allows it, a good
token erases the customer keys and resets the whole device; a request that matches no row leaves the state. NONCE
changes. Where these rules leave a point open it follows the model's reading (log entries 106, 108 and 112). -/
def Obligations.LifeCycleRequests : Prop :=
  (∀ (s : State) (req : List Byte) (i : Instr) (word target : Nat), mbReached s = true → s.reg .sec SEC.BUSY = 0 →
    (i, word, target) ∈ [(Instr.lcSecure req, 0x4345534C, Lc.secured), (.lcVoid req, 0x44494F56, Lc.void)] →
    lcState s = Lc.develop ∨ lcState s = Lc.secured →
    let allowed := lcState s = Lc.develop ∨ target = Lc.void
    let signed := requestSigned s req (lcRecord s word) 16
    answers i s fun t =>
      (allowed → signed = true → lcState t = target ∧ t.reg .sec SEC.STATUS = 0) ∧
      (allowed → signed = false → lcState t = lcState s ∧ t.reg .sec SEC.STATUS = Err.sigInvalid) ∧
      (¬allowed → lcState t = lcState s ∧ t.reg .sec SEC.STATUS = Err.lifecycle) ∧
      t.reg .sec SEC.DONE = 1 ∧ t.reg .sec SEC.NONCE ≠ s.reg .sec SEC.NONCE % 2 ^ 64 ∧
      regsKept s t [(.sec, SEC.LC_STATE), (.sec, SEC.STATUS), (.sec, SEC.DONE), (.sec, SEC.BUSY), (.sec, HDR.IRQ_STAT),
        (.sec, SEC.NONCE)]) ∧
  (∀ (s : State) (token : List Byte), mbReached s = true → s.reg .sec SEC.BUSY = 0 → lcOpen s = true →
    answers (.lcReturn token) s fun t =>
    (tokenGood s token = true →
      lcState t = Lc.returned ∧ t.reg .sec SEC.KEY_PROV = 0 ∧ t.eng.otp.hashes = [] ∧ t.eng.inReset = true ∧
      t.eng.dump = .empty ∧ (∀ p c, ((t.part p).ctl c).mem = .empty) ∧
      t.reg .sec SEC.NONCE ≠ s.reg .sec SEC.NONCE % 2 ^ 64) ∧
    (tokenGood s token = false →
      lcState t = lcState s ∧ t.reg .sec SEC.STATUS = Err.lifecycle ∧ t.eng.otp = s.eng.otp ∧
      t.eng.inReset = s.eng.inReset ∧ t.parts = s.parts ∧ t.tiles = s.tiles))

/-- R444, R445, R447: the recovery loader collects bytes until they complete a frame, and answers each good frame with
one response that begins with STATUS; the same frame again gets the same response and does nothing; STAGE fills the
staging buffer, INSTALL writes both copies, LC_REQUEST moves the life cycle state, REBOOT resets the device once it is
answered; a bad CRC or an unknown TYPE is answered with NAK's codes. A timeout discards the bytes of a partial frame.
Without the loader no byte has an effect. Where these rules leave a point open it follows the model's reading (log
entries 109, 110 and 111). -/
def Obligations.RecoveryLoader : Prop :=
  (∀ (s : State) (b rest : List Byte) (f : UartFrame), s.eng.loader.running = true →
    uartTake (s.eng.loader.rx ++ b) = some (f, rest) → frameGood f = true → (∀ r, s.eng.loader.prev ≠ some (f, r)) →
    let answered (t : State) (status : Nat) (more : List Byte) : Prop :=
      t.eng.loader.response = frameBytes (f.type ||| 0x80) f.seq (leBytes 2 status ++ more)
    (f.type = 1 → f.payload = [] → answers (.hello b) s fun t =>
      answered t Err.none (helloBytes s) ∧ t.eng.loader.rx = rest ∧ t.eng.flash = s.eng.flash ∧ regsKept s t [] ∧
      bytesKept s t) ∧
    (f.type = 1 → f.payload ≠ [] → answers (.hello b) s fun t => answered t Err.cmdField [] ∧ regsKept s t [] ∧ bytesKept s t) ∧
    (f.type = 2 → lcState s ≠ Lc.blank → 5 ≤ f.payload.length → f.payload.length ≤ 1020 →
      leNat (f.payload.take 4) + (f.payload.length - 4) ≤ stagingSize → answers (.stage b) s fun t =>
      answered t Err.none [] ∧
      (∀ k, k < f.payload.length - 4 →
        t.eng.loader.staging.get (leNat (f.payload.take 4) + k) = f.payload.getD (4 + k) 0) ∧
      (∀ a, a < leNat (f.payload.take 4) ∨ leNat (f.payload.take 4) + (f.payload.length - 4) ≤ a →
        t.eng.loader.staging.get a = s.eng.loader.staging.get a) ∧ t.eng.flash = s.eng.flash ∧ regsKept s t []) ∧
    (f.type = 2 → lcState s = Lc.blank → answers (.stage b) s fun t =>
      answered t Err.lifecycle [] ∧ t.eng.loader.staging = s.eng.loader.staging) ∧
    (f.type = 3 → lcState s ≠ Lc.blank → f.payload.length = 4 → leNat f.payload ≤ stagingSize →
      ∀ (bundle : List Byte) (x : SigBlock), package (s.eng.loader.staging.read 0 (leNat f.payload)) = some (bundle, x) →
      let code := installCheck s (s.eng.loader.staging.read 0 (leNat f.payload))
      let h := leNat (bundle.take 256)
      answers (.rcvInstall b) s fun t =>
        (code = Err.none → answered t Err.none (leBytes 4 (BundleH.fwVer h) ++ leBytes 1 (BundleH.svn h)) ∧
          ∀ k, k < 2 → ∀ a, a < bundle.length → t.eng.flash.get (copyBase k + a) = bundle.getD a 0) ∧
        (code ≠ Err.none → answered t code [] ∧ t.eng.flash = s.eng.flash) ∧ regsKept s t []) ∧
    (f.type = 4 → f.payload ≠ [] → f.payload.length ≤ 1024 →
      answers (.lcRequest b) s fun t =>
      (∀ lc : Nat, lcTarget s f.payload = some lc →
        answered t Err.none (leBytes 1 lc) ∧ lcState t = lc ∧
        (lc = Lc.develop → t.eng.otp.hashes = provSlots f.payload) ∧
        t.reg .sec SEC.NONCE ≠ s.reg .sec SEC.NONCE % 2 ^ 64) ∧
      (lcTarget s f.payload = none →
        answered t Err.lifecycle [] ∧ lcState t = lcState s ∧ t.eng.otp = s.eng.otp)) ∧
    (f.type = 5 → f.payload = [] → answers (.reboot b) s fun t =>
      answered t Err.none [] ∧ t.eng.inReset = true ∧ t.eng.flash = s.eng.flash ∧ (∀ i k, i ≠ .sec → t.reg i k = k.reset) ∧
      t.reg .sec SEC.NONCE ≠ s.reg .sec SEC.NONCE % 2 ^ 64) ∧
    (frameKnown f = false → answers (.nak b) s fun t =>
      answered t Err.fwCmd [] ∧ t.eng.flash = s.eng.flash ∧ regsKept s t [] ∧ bytesKept s t)) ∧
  (∀ (s : State) (b rest : List Byte) (f : UartFrame), s.eng.loader.running = true →
    uartTake (s.eng.loader.rx ++ b) = some (f, rest) → frameGood f = false → answers (.nak b) s fun t =>
      t.eng.loader.response = frameBytes 0xFF f.seq (leBytes 2 Err.rcvCrc) ∧ t.eng.loader.prev = s.eng.loader.prev ∧
      regsKept s t [] ∧ bytesKept s t) ∧
  (∀ (s : State) (b rest : List Byte) (f : UartFrame) (r : List Byte) (i : Instr), s.eng.loader.running = true →
    i ∈ [Instr.hello b, .stage b, .rcvInstall b, .lcRequest b, .reboot b] →
    uartTake (s.eng.loader.rx ++ b) = some (f, rest) → frameGood f = true → s.eng.loader.prev = some (f, r) →
    answers i s fun t => t.eng.loader = { s.eng.loader with response := r, rx := rest } ∧
      t.eng.flash = s.eng.flash ∧ t.eng.inReset = s.eng.inReset ∧ regsKept s t [] ∧ bytesKept s t) ∧
  (∀ (s : State) (b : List Byte) (i : Instr),
    i ∈ [Instr.hello b, .stage b, .rcvInstall b, .lcRequest b, .reboot b, .nak b] →
    (s.eng.loader.running = false → answers i s fun t => t = s) ∧
    (s.eng.loader.running = true → uartTake (s.eng.loader.rx ++ b) = none → answers i s fun t =>
      t = { s with eng := { s.eng with loader := { s.eng.loader with rx := s.eng.loader.rx ++ b } } })) ∧
  (∀ s : State, answers .uartFrameTimeout s fun t =>
    t = { s with eng := { s.eng with loader := { s.eng.loader with rx := [] } } })

/-- R15, R18 to R20, R154, R223, R446, R472, R475: a write of the register window changes the fields at its offset by
their access types and nothing else; a read answers the word and clears the RC counters that it returns; CNT_CLR clears
every RC counter of its page; IRQ_FORCE sets defined interrupt bits; ACC_ROW_RESET clears rows of an idle buffer;
INJ_ARM arms an injection. Misaligned accesses get a decode error, the debug port reaches DBG pages only and none once
it is locked; writes to absent or closed pages are discarded. Where these rules leave a point open it follows the
model's reading (log entries 64, 106, 115, 150 and 172). -/
def Obligations.RegisterWindow : Prop :=
  (∀ (s : State) (addr : Nat) (v : BitVec 64) (cls : SrcClass) (i : PageId), (∀ p, (s.part p).events = []) →
    addr % 4 = 0 → apertureAt addr = none → fittedPage s (addr / 0x1000) = some i → pageWritable s i = true →
    viaDebug cls = false ∨ debugReaches s cls (fittedPage s (addr / 0x1000)) = true →
    0x040 ≤ addr % 0x1000 → wideAt i (addr % 0x1000) = false → wideAt i (addr % 0x1000 - 4) = false →
    i = .eng ∨ (∃ p c, i = .mc p c) ∨ (∃ g, ∃ k ∈ [TPage.tl, .rot, .spd, .dbg], i = .tile g k) →
    answers (.registerWrite addr 4 v cls) s fun t =>
      (∀ f ∈ i.fields, f.off = addr % 0x1000 → t.reg i f =
        match f.acc with
        | .rw => bitsAt (v.toNat % 2 ^ 32) f.lo f.width
        | .rws => bitsAt (v.toNat % 2 ^ 32) f.lo f.width
        | .w1c => s.reg i f &&& (2 ^ f.width - 1 - bitsAt (v.toNat % 2 ^ 32) f.lo f.width)
        | _ => s.reg i f) ∧
      t.resp = ⟨Err.none, [], false⟩ ∧
      regsKept s t ((i.fields.filter fun f => f.off = addr % 0x1000).map fun f => (i, f)) ∧ onlyRegs (s.setResponse t.resp) t) ∧
  (∀ (s : State) (addr size : Nat) (v : BitVec 64) (cls : SrcClass), (∀ p, (s.part p).events = []) →
    (wellSized addr size = false → answers (.registerWrite addr size v cls) s fun t => t = s.setResponse ⟨Err.none, [], true⟩) ∧
    (wellSized addr size = false → answers (.rcCounterRead addr size cls) s fun t => t = s.setResponse ⟨Err.none, [], true⟩) ∧
    (wellSized addr size = true → viaDebug cls = true → debugReaches s cls (fittedPage s (addr / 0x1000)) = false →
      answers (.registerWrite addr size v cls) s (fun t => t = s.setResponse ⟨Err.none, [], true⟩) ∧
      answers (.rcCounterRead addr size cls) s fun t => t = s.setResponse ⟨Err.none, List.replicate size 0, true⟩) ∧
    (wellSized addr size = true → apertureAt addr = none → viaDebug cls = false →
      (∀ i, fittedPage s (addr / 0x1000) = some i → pageWritable s i = false) →
      answers (.registerWrite addr size v cls) s fun t => t = s.setResponse ⟨Err.none, [], false⟩)) ∧
  (∀ (s : State) (addr size : Nat) (cls : SrcClass) (i : PageId), wellSized addr size = true → apertureAt addr = none →
    fittedPage s (addr / 0x1000) = some i → pageAwake s i = true → viaDebug cls = false ∨ debugReaches s cls (fittedPage s (addr / 0x1000)) = true →
    answers (.rcCounterRead addr size cls) s fun t => let off := addr % 0x1000
      t.resp = ⟨Err.none, leBytes size (regWord s i cls off + if size = 8 then regWord s i cls (off + 4) * 2 ^ 32 else 0), false⟩ ∧
      (pageHidden s i = false → (∀ f ∈ clearedBy i off size, t.reg i f = 0) ∧
        regsKept s t ((clearedBy i off size).map fun f => (i, f))) ∧
      (pageHidden s i = true → regsKept s t []) ∧ onlyRegs (s.setResponse t.resp) (t.unreadAs s) ∧
      ∀ p, p < 4 → t.eng.tjUnread.testBit p = (s.eng.tjUnread.testBit p ||
        (decide (i = .pwr) && !pageHidden s i && decide (PWR.TJ_PEAK p ∈ clearedBy i off size)))) ∧
  (∀ (s : State) (n : Nat) (cls : SrcClass) (f : Fld), f ∈ [DLW.HANG_CNT, DLW.STALL_CNT, DLW.RESET_CNT] → viaDebug cls = false →
    fittedPage s n = some .dlw → apertureAt (n * 0x1000 + f.off) = none → s.eng.inReset = false →
    answers (.rcCounterRead (n * 0x1000 + f.off) 4 cls) s fun t =>
      t.resp = ⟨Err.none, leBytes 4 (s.reg .dlw f % 2 ^ 32), false⟩ ∧ t.reg .dlw f = 0 ∧ regsKept s t [(.dlw, f)]) ∧
  (∀ (s : State) (page : Nat) (i : PageId), fittedPage s page = some i → pageWritable s i = true →
    answers (.cntClr page) s fun t =>
      (∀ f ∈ i.counters, t.reg i f = 0) ∧ regsKept s t (i.counters.map fun f => (i, f)) ∧ onlyRegs s (t.unreadAs s) ∧
      (i ≠ .pwr → t.eng.tjUnread = s.eng.tjUnread)) ∧
  (∀ (s : State) (page : Nat) (bits : BitVec 32) (i : PageId), fittedPage s page = some i → pageWritable s i = true →
    answers (.irqForce page bits) s fun t =>
      t.reg i HDR.IRQ_STAT = (s.reg i HDR.IRQ_STAT ||| (bits.toNat &&& i.irqBits)) % 2 ^ 32 ∧
      regsKept s t [(i, HDR.IRQ_STAT)] ∧ onlyRegs s t) ∧
  (∀ (s : State) (page : Nat) (bits : BitVec 32), (∀ i, fittedPage s page = some i → pageWritable s i = false) →
    answers (.irqForce page bits) s (fun t => t = s) ∧ answers (.cntClr page) s fun t => t = s) ∧
  (∀ (s : State) (g : TileId) (v : BitVec 32), pageWritable s (.tile g .acc) = true → let b := bitsAt v.toNat 17 1
    ((s.tile g).bufState b = 0 → answers (.accRowReset g v) s fun t =>
      (∀ r, r < 256 → ((t.tile g).acc b).row r =
        (if bitsAt v.toNat 0 8 ≤ r ∧ r < bitsAt v.toNat 0 8 + bitsAt v.toNat 8 9 then
          { RowState.clear with s := bitsAt v.toNat 18 4 } else ((s.tile g).acc b).row r)) ∧
      ((t.tile g).acc b).mem = ((s.tile g).acc b).mem ∧ (t.tile g).acc (1 - b) = (s.tile g).acc (1 - b) ∧
      regsKept s t [] ∧ ∀ h, h ≠ g → t.tile h = s.tile h) ∧
    ((s.tile g).bufState b ≠ 0 → answers (.accRowReset g v) s fun t =>
      t.reg (.tile g .acc) ACC.ACC_ACCESS_ERR = 1 ∧ regsKept s t [(.tile g .acc, ACC.ACC_ACCESS_ERR)] ∧ onlyRegs s t)) ∧
  (∀ (s : State) (g : TileId) (v : BitVec 32), pageWritable s (.tile g .lut) = true → v.toNat.testBit 7 = true →
    answers (.injArm g v) s fun t =>
      (t.tile g).arr.inject = some (bitsAt v.toNat 0 7) ∧ regsKept s t [] ∧
      { t.tile g with arr := (s.tile g).arr } = s.tile g ∧ ∀ h, h ≠ g → t.tile h = s.tile h)
end

