-- ==== Sys2Proof/Laws/Assoc.lean ====
section
/-! SUPPORT. Laws of sparse data and of register banks: what reads as what after a change, and that a change keeps the
keys rising. -/
namespace Sys2Proof.Machine

variable {α : Type}

@[simp] theorem Assoc.look_nil (k : Nat) : Assoc.look ([] : Assoc α) k = none := rfl

theorem Assoc.look_drop (l : Assoc α) (k j : Nat) : (l.drop k).look j = if j = k then none else l.look j := by
  induction l with
  | nil => simp [Assoc.drop, Assoc.look]
  | cons e t ih =>
    obtain ⟨i, x⟩ := e
    simp only [Assoc.drop] at ih ⊢
    by_cases hik : i = k
    · subst hik
      rw [List.filter_cons_of_neg (by simp), ih]
      by_cases hj : j = i
      · simp [hj]
      · simp only [Assoc.look, if_neg hj, if_neg (Ne.symm hj)]
    · rw [List.filter_cons_of_pos (by simp [hik])]
      by_cases hj : j = i
      · subst hj; simp [Assoc.look, hik]
      · simp only [Assoc.look, if_neg (Ne.symm hj)]; exact ih

theorem Assoc.look_ins (l : Assoc α) (k j : Nat) (x : α) (h : l.look k = none) :
    (l.ins k x).look j = if j = k then some x else l.look j := by
  induction l with
  | nil =>
    by_cases hj : j = k
    · simp [Assoc.ins, Assoc.look, hj]
    · simp [Assoc.ins, Assoc.look, hj, Ne.symm hj]
  | cons e t ih =>
    obtain ⟨i, y⟩ := e
    have hik : i ≠ k := by
      intro hh; simp [Assoc.look, hh] at h
    have ht : Assoc.look t k = none := by simpa [Assoc.look, hik] using h
    simp only [Assoc.ins]
    split
    · by_cases hj : j = k
      · simp [Assoc.look, hj]
      · simp [Assoc.look, hj, Ne.symm hj]
    · by_cases hj : j = i
      · subst hj; simp [Assoc.look, hik]
      · simp [Assoc.look, Ne.symm hj, ih ht]

/-- A changed key reads as what it became, every other key as before. -/
theorem Assoc.look_put (l : Assoc α) (k j : Nat) (v : Option α) :
    (l.put k v).look j = if j = k then v else l.look j := by
  cases v with
  | none => exact l.look_drop k j
  | some x =>
    simp only [Assoc.put]
    rw [Assoc.look_ins _ _ _ _ (by simp [Assoc.look_drop]), Assoc.look_drop]
    by_cases hj : j = k <;> simp [hj]

@[simp] theorem Assoc.look_put_self (l : Assoc α) (k : Nat) (v : Option α) : (l.put k v).look k = v := by
  simp [Assoc.look_put]

theorem Assoc.look_put_ne (l : Assoc α) {k j : Nat} (v : Option α) (h : j ≠ k) : (l.put k v).look j = l.look j := by
  simp [Assoc.look_put, h]

/-! ### Keys stay rising -/

theorem Assoc.rising_iff (l : Assoc α) : l.rising = true ↔ l.Pairwise fun a b => a.1 < b.1 := by
  induction l with
  | nil => simp [Assoc.rising]
  | cons a t ih =>
    cases t with
    | nil => simp [Assoc.rising]
    | cons b t =>
      simp only [Assoc.rising, Bool.and_eq_true, decide_eq_true_eq, ih]
      constructor
      · rintro ⟨hab, hp⟩
        refine List.pairwise_cons.2 ⟨fun c hc => ?_, hp⟩
        rcases List.mem_cons.1 hc with rfl | hc
        · exact hab
        · exact Nat.lt_trans hab ((List.pairwise_cons.1 hp).1 c hc)
      · intro h
        exact ⟨(List.pairwise_cons.1 h).1 b (by simp), (List.pairwise_cons.1 h).2⟩

theorem Assoc.rising_drop (l : Assoc α) (k : Nat) (h : l.rising = true) : (l.drop k).rising = true := by
  rw [Assoc.rising_iff] at *
  exact h.sublist List.filter_sublist

theorem Assoc.mem_ins (l : Assoc α) (k : Nat) (x : α) (e : Nat × α) : e ∈ l.ins k x ↔ e = (k, x) ∨ e ∈ l := by
  induction l with
  | nil => simp [Assoc.ins]
  | cons b t ih =>
    obtain ⟨i, y⟩ := b
    simp only [Assoc.ins]
    split
    · simp
    · simp only [List.mem_cons, ih]
      exact or_left_comm

theorem Assoc.rising_ins (l : Assoc α) (k : Nat) (x : α) (h : l.rising = true) (hk : ∀ e ∈ l, e.1 ≠ k) :
    (l.ins k x).rising = true := by
  rw [Assoc.rising_iff] at *
  induction l with
  | nil => simp [Assoc.ins]
  | cons b t ih =>
    obtain ⟨i, y⟩ := b
    obtain ⟨h1, h2⟩ := List.pairwise_cons.1 h
    simp only [Assoc.ins]
    split
    · rename_i hlt
      refine List.pairwise_cons.2 ⟨fun c hc => ?_, h⟩
      rcases List.mem_cons.1 hc with rfl | hc
      · exact hlt
      · exact Nat.lt_trans hlt (h1 c hc)
    · rename_i hge
      have hne : i ≠ k := hk (i, y) (by simp)
      refine List.pairwise_cons.2 ⟨fun c hc => ?_, ih h2 (fun e he => hk e (by simp [he]))⟩
      rcases (Assoc.mem_ins t k x c).1 hc with rfl | hc
      · show i < k; omega
      · exact h1 c hc

/-- A change of one key keeps the keys rising. -/
theorem Assoc.rising_put (l : Assoc α) (k : Nat) (v : Option α) (h : l.rising = true) : (l.put k v).rising = true := by
  cases v with
  | none => exact l.rising_drop k h
  | some x =>
    exact Assoc.rising_ins _ _ _ (l.rising_drop k h) (fun e he => by simpa using (List.mem_filter.1 he).2)

theorem Assoc.mem_put (l : Assoc α) (k : Nat) (v : Option α) (e : Nat × α) (h : e ∈ l.put k v) :
    (e.1 = k ∧ v = some e.2) ∨ e ∈ l := by
  cases v with
  | none => exact .inr ((List.mem_filter.1 h).1)
  | some x =>
    rcases (Assoc.mem_ins _ _ _ _).1 h with rfl | h
    · exact .inl ⟨rfl, rfl⟩
    · exact .inr ((List.mem_filter.1 h).1)

/-! ### Banks -/

/-- A field that is written reads as the value cut to its width. -/
@[simp] theorem Bank.get_set_self (b : Bank) (f : Fld) (v : Nat) : (b.set f v).get f = v % 2 ^ f.width := by
  unfold Bank.get Bank.set
  rw [Assoc.look_put_self]
  by_cases h : v % 2 ^ f.width = f.reset <;> simp [h]

/-- A field at another place reads as before. -/
theorem Bank.get_set_ne (b : Bank) {f g : Fld} (v : Nat) (h : g.key ≠ f.key) : (b.set f v).get g = b.get g := by
  unfold Bank.get Bank.set
  rw [Assoc.look_put_ne _ _ h]

theorem Bank.get_set (b : Bank) (f g : Fld) (v : Nat) :
    (b.set f v).get g =
      if g.key = f.key then (if v % 2 ^ f.width = f.reset then g.reset else v % 2 ^ f.width) else b.get g := by
  by_cases h : g.key = f.key
  · unfold Bank.get Bank.set
    rw [h, Assoc.look_put_self]
    by_cases hr : v % 2 ^ f.width = f.reset <;> simp [hr]
  · rw [Bank.get_set_ne _ _ h, if_neg h]

@[simp] theorem Bank.get_nil (f : Fld) : Bank.get [] f = f.reset := rfl

theorem Bank.get_inc_self (b : Bank) (f : Fld) (n : Nat) : (b.inc f n).get f = satAdd f.width (b.get f) n % 2 ^ f.width := by
  unfold Bank.inc; rw [Bank.get_set_self]

/-- A counter rises by `n` and stops at its largest value. -/
@[simp] theorem Bank.get_inc (b : Bank) (f : Fld) (n : Nat) : (b.inc f n).get f = min (b.get f + n) (2 ^ f.width - 1) := by
  rw [Bank.get_inc_self]
  refine Nat.mod_eq_of_lt (Nat.lt_of_le_of_lt (Nat.min_le_right _ _) ?_)
  exact Nat.sub_lt (Nat.two_pow_pos _) Nat.one_pos

theorem Bank.get_inc_ne (b : Bank) {f g : Fld} (n : Nat) (h : g.key ≠ f.key) : (b.inc f n).get g = b.get g :=
  Bank.get_set_ne _ _ h

end Sys2Proof.Machine
end

