-- ==== Sys2Proof/Laws/State.lean ====
section
/-! SUPPORT. Laws of the state: one lemma for each field and each update, so that no proof unfolds a record update. -/
namespace Sys2Proof.Machine

/-! ### Names of the plain updates -/

/-- The engine-wide part becomes `e`. -/
def State.setEng (s : State) (e : Engine) : State := { s with eng := e }
/-- The response becomes `r`. -/
def State.setResp (s : State) (r : Response) : State := { s with resp := r }
/-- The number of the next occasion becomes `n`. -/
def State.setFresh (s : State) (n : Nat) : State := { s with fresh := n }
/-- What setting a flag bit leaves. -/
def State.setFlag (s : State) (i : PageId) (f : Fld) (b : Nat) : State := s.setReg i f (s.reg i f ||| 2 ^ b)
/-- What a counted error leaves (R472, R476). -/
def State.logged (s : State) (i : PageId) (code cls sub detail : Nat) : State :=
  let s1 := s.count i HDR.ERR_CNT 1
  if s1.reg i HDR.ERR_HOLD = 0 then
    (s1.setReg i HDR.ERR_REC
      (code % 2 ^ 16 + cls % 16 * 2 ^ 16 + sub % 16 * 2 ^ 20 + detail % 2 ^ 40 * 2 ^ 24)).setReg i HDR.ERR_VALID 1
  else s1

@[simp ↓] theorem State.eng_update (s : State) (e : Engine) : ({ s with eng := e } : State) = s.setEng e := rfl
@[simp ↓] theorem State.resp_update (s : State) (r : Response) : ({ s with resp := r } : State) = s.setResp r := rfl
@[simp ↓] theorem State.fresh_update (s : State) (n : Nat) : ({ s with fresh := n } : State) = s.setFresh n := rfl
@[simp ↓] theorem State.pending_update (s : State) (l : List Instr) : ({ s with pending := l } : State) = s.withPending l := rfl

theorem vec_get {α : Type} {n : Nat} (v : Vector α n) (i : Fin n) : v.get i = v[i.val] := rfl

/-! ### The fields of the state -/

@[simp] theorem State.variant_setTile (s : State) (g : TileId) (t : Tile) : (s.setTile g t).variant = s.variant := rfl
@[simp] theorem State.eng_setTile (s : State) (g : TileId) (t : Tile) : (s.setTile g t).eng = s.eng := rfl
@[simp] theorem State.resp_setTile (s : State) (g : TileId) (t : Tile) : (s.setTile g t).resp = s.resp := rfl
@[simp] theorem State.fresh_setTile (s : State) (g : TileId) (t : Tile) : (s.setTile g t).fresh = s.fresh := rfl
@[simp] theorem State.clock_setTile (s : State) (g : TileId) (t : Tile) : (s.setTile g t).clock = s.clock := rfl
@[simp] theorem State.pending_setTile (s : State) (g : TileId) (t : Tile) : (s.setTile g t).pending = s.pending := rfl
@[simp] theorem State.part_setTile (s : State) (g : TileId) (t : Tile) (q : PartId) : (s.setTile g t).part q = s.part q := rfl
@[simp] theorem State.port_setTile (s : State) (g : TileId) (t : Tile) (m : PortId) : (s.setTile g t).port m = s.port m := rfl
@[simp] theorem State.variant_setPart (s : State) (p : PartId) (x : Part) : (s.setPart p x).variant = s.variant := rfl
@[simp] theorem State.eng_setPart (s : State) (p : PartId) (x : Part) : (s.setPart p x).eng = s.eng := rfl
@[simp] theorem State.resp_setPart (s : State) (p : PartId) (x : Part) : (s.setPart p x).resp = s.resp := rfl
@[simp] theorem State.fresh_setPart (s : State) (p : PartId) (x : Part) : (s.setPart p x).fresh = s.fresh := rfl
@[simp] theorem State.clock_setPart (s : State) (p : PartId) (x : Part) : (s.setPart p x).clock = s.clock := rfl
@[simp] theorem State.pending_setPart (s : State) (p : PartId) (x : Part) : (s.setPart p x).pending = s.pending := rfl
@[simp] theorem State.tile_setPart (s : State) (p : PartId) (x : Part) (h : TileId) : (s.setPart p x).tile h = s.tile h := rfl
@[simp] theorem State.port_setPart (s : State) (p : PartId) (x : Part) (m : PortId) : (s.setPart p x).port m = s.port m := rfl
@[simp] theorem State.variant_setPort (s : State) (n : PortId) (x : Port) : (s.setPort n x).variant = s.variant := rfl
@[simp] theorem State.eng_setPort (s : State) (n : PortId) (x : Port) : (s.setPort n x).eng = s.eng := rfl
@[simp] theorem State.resp_setPort (s : State) (n : PortId) (x : Port) : (s.setPort n x).resp = s.resp := rfl
@[simp] theorem State.fresh_setPort (s : State) (n : PortId) (x : Port) : (s.setPort n x).fresh = s.fresh := rfl
@[simp] theorem State.clock_setPort (s : State) (n : PortId) (x : Port) : (s.setPort n x).clock = s.clock := rfl
@[simp] theorem State.pending_setPort (s : State) (n : PortId) (x : Port) : (s.setPort n x).pending = s.pending := rfl
@[simp] theorem State.tile_setPort (s : State) (n : PortId) (x : Port) (h : TileId) : (s.setPort n x).tile h = s.tile h := rfl
@[simp] theorem State.part_setPort (s : State) (n : PortId) (x : Port) (q : PartId) : (s.setPort n x).part q = s.part q := rfl
@[simp] theorem State.variant_setEng (s : State) (e : Engine) : (s.setEng e).variant = s.variant := rfl
@[simp] theorem State.eng_setEng (s : State) (e : Engine) : (s.setEng e).eng = e := rfl
@[simp] theorem State.resp_setEng (s : State) (e : Engine) : (s.setEng e).resp = s.resp := rfl
@[simp] theorem State.fresh_setEng (s : State) (e : Engine) : (s.setEng e).fresh = s.fresh := rfl
@[simp] theorem State.clock_setEng (s : State) (e : Engine) : (s.setEng e).clock = s.clock := rfl
@[simp] theorem State.pending_setEng (s : State) (e : Engine) : (s.setEng e).pending = s.pending := rfl
@[simp] theorem State.tile_setEng (s : State) (e : Engine) (h : TileId) : (s.setEng e).tile h = s.tile h := rfl
@[simp] theorem State.part_setEng (s : State) (e : Engine) (q : PartId) : (s.setEng e).part q = s.part q := rfl
@[simp] theorem State.port_setEng (s : State) (e : Engine) (m : PortId) : (s.setEng e).port m = s.port m := rfl
@[simp] theorem State.variant_setResp (s : State) (r : Response) : (s.setResp r).variant = s.variant := rfl
@[simp] theorem State.eng_setResp (s : State) (r : Response) : (s.setResp r).eng = s.eng := rfl
@[simp] theorem State.resp_setResp (s : State) (r : Response) : (s.setResp r).resp = r := rfl
@[simp] theorem State.fresh_setResp (s : State) (r : Response) : (s.setResp r).fresh = s.fresh := rfl
@[simp] theorem State.clock_setResp (s : State) (r : Response) : (s.setResp r).clock = s.clock := rfl
@[simp] theorem State.pending_setResp (s : State) (r : Response) : (s.setResp r).pending = s.pending := rfl
@[simp] theorem State.tile_setResp (s : State) (r : Response) (h : TileId) : (s.setResp r).tile h = s.tile h := rfl
@[simp] theorem State.part_setResp (s : State) (r : Response) (q : PartId) : (s.setResp r).part q = s.part q := rfl
@[simp] theorem State.port_setResp (s : State) (r : Response) (m : PortId) : (s.setResp r).port m = s.port m := rfl
@[simp] theorem State.variant_setFresh (s : State) (n : Nat) : (s.setFresh n).variant = s.variant := rfl
@[simp] theorem State.eng_setFresh (s : State) (n : Nat) : (s.setFresh n).eng = s.eng := rfl
@[simp] theorem State.resp_setFresh (s : State) (n : Nat) : (s.setFresh n).resp = s.resp := rfl
@[simp] theorem State.fresh_setFresh (s : State) (n : Nat) : (s.setFresh n).fresh = n := rfl
@[simp] theorem State.clock_setFresh (s : State) (n : Nat) : (s.setFresh n).clock = s.clock := rfl
@[simp] theorem State.pending_setFresh (s : State) (n : Nat) : (s.setFresh n).pending = s.pending := rfl
@[simp] theorem State.tile_setFresh (s : State) (n : Nat) (h : TileId) : (s.setFresh n).tile h = s.tile h := rfl
@[simp] theorem State.part_setFresh (s : State) (n : Nat) (q : PartId) : (s.setFresh n).part q = s.part q := rfl
@[simp] theorem State.port_setFresh (s : State) (n : Nat) (m : PortId) : (s.setFresh n).port m = s.port m := rfl
@[simp] theorem State.variant_withPending (s : State) (l : List Instr) : (s.withPending l).variant = s.variant := rfl
@[simp] theorem State.eng_withPending (s : State) (l : List Instr) : (s.withPending l).eng = s.eng := rfl
@[simp] theorem State.resp_withPending (s : State) (l : List Instr) : (s.withPending l).resp = s.resp := rfl
@[simp] theorem State.fresh_withPending (s : State) (l : List Instr) : (s.withPending l).fresh = s.fresh := rfl
@[simp] theorem State.clock_withPending (s : State) (l : List Instr) : (s.withPending l).clock = s.clock := rfl
@[simp] theorem State.pending_withPending (s : State) (l : List Instr) : (s.withPending l).pending = l := rfl
@[simp] theorem State.tile_withPending (s : State) (l : List Instr) (h : TileId) : (s.withPending l).tile h = s.tile h := rfl
@[simp] theorem State.part_withPending (s : State) (l : List Instr) (q : PartId) : (s.withPending l).part q = s.part q := rfl
@[simp] theorem State.port_withPending (s : State) (l : List Instr) (m : PortId) : (s.withPending l).port m = s.port m := rfl

theorem State.tile_setTile (s : State) (g h : TileId) (t : Tile) :
    (s.setTile g t).tile h = if h = g then t else s.tile h := by
  simp only [State.tile, State.setTile, vec_get, Vector.getElem_set]
  by_cases e : h = g
  · simp [e]
  · simp [e, Fin.val_ne_of_ne (Ne.symm e)]
@[simp] theorem State.tile_setTile_self (s : State) (g : TileId) (t : Tile) : (s.setTile g t).tile g = t := by
  simp [State.tile_setTile]
theorem State.tile_setTile_ne (s : State) {g h : TileId} (t : Tile) (e : h ≠ g) :
    (s.setTile g t).tile h = s.tile h := by
  simp [State.tile_setTile, e]

theorem State.part_setPart (s : State) (p q : PartId) (x : Part) :
    (s.setPart p x).part q = if q = p then x else s.part q := by
  simp only [State.part, State.setPart, vec_get, Vector.getElem_set]
  by_cases e : q = p
  · simp [e]
  · simp [e, Fin.val_ne_of_ne (Ne.symm e)]
@[simp] theorem State.part_setPart_self (s : State) (p : PartId) (x : Part) : (s.setPart p x).part p = x := by
  simp [State.part_setPart]
theorem State.part_setPart_ne (s : State) {p q : PartId} (x : Part) (e : q ≠ p) :
    (s.setPart p x).part q = s.part q := by
  simp [State.part_setPart, e]

theorem State.port_setPort (s : State) (n m : PortId) (x : Port) :
    (s.setPort n x).port m = if m = n then x else s.port m := by
  simp only [State.port, State.setPort, vec_get, Vector.getElem_set]
  by_cases e : m = n
  · simp [e]
  · simp [e, Fin.val_ne_of_ne (Ne.symm e)]
@[simp] theorem State.port_setPort_self (s : State) (n : PortId) (x : Port) : (s.setPort n x).port n = x := by
  simp [State.port_setPort]
theorem State.port_setPort_ne (s : State) {n m : PortId} (x : Port) (e : m ≠ n) :
    (s.setPort n x).port m = s.port m := by
  simp [State.port_setPort, e]

theorem Part.ctl_setCtl (x : Part) (c d : Fin 2) (m : MemCtl) : (x.setCtl c m).ctl d = if d = c then m else x.ctl d := by
  simp only [Part.ctl, Part.setCtl, vec_get, Vector.getElem_set]
  by_cases e : d = c
  · simp [e]
  · simp [e, Fin.val_ne_of_ne (Ne.symm e)]
@[simp] theorem Part.ctl_setCtl_self (x : Part) (c : Fin 2) (m : MemCtl) : (x.setCtl c m).ctl c = m := by
  simp [Part.ctl_setCtl]

@[simp] theorem Part.pctl_setCtl (x : Part) (c : Fin 2) (m : MemCtl) : (x.setCtl c m).pctl = x.pctl := rfl
@[simp] theorem Part.qmg_setCtl (x : Part) (c : Fin 2) (m : MemCtl) : (x.setCtl c m).qmg = x.qmg := rfl
@[simp] theorem Part.gates_setCtl (x : Part) (c : Fin 2) (m : MemCtl) : (x.setCtl c m).gates = x.gates := rfl
@[simp] theorem Part.jobs_setCtl (x : Part) (c : Fin 2) (m : MemCtl) : (x.setCtl c m).jobs = x.jobs := rfl
@[simp] theorem Part.chains_setCtl (x : Part) (c : Fin 2) (m : MemCtl) : (x.setCtl c m).chains = x.chains := rfl
@[simp] theorem Part.chainWrites_setCtl (x : Part) (c : Fin 2) (m : MemCtl) : (x.setCtl c m).chainWrites = x.chainWrites := rfl
@[simp] theorem Part.heads_setCtl (x : Part) (c : Fin 2) (m : MemCtl) : (x.setCtl c m).heads = x.heads := rfl
@[simp] theorem Part.lastQueue_setCtl (x : Part) (c : Fin 2) (m : MemCtl) : (x.setCtl c m).lastQueue = x.lastQueue := rfl
@[simp] theorem Part.nextJob_setCtl (x : Part) (c : Fin 2) (m : MemCtl) : (x.setCtl c m).nextJob = x.nextJob := rfl
@[simp] theorem Part.fw_setCtl (x : Part) (c : Fin 2) (m : MemCtl) : (x.setCtl c m).fw = x.fw := rfl
@[simp] theorem Part.replies_setCtl (x : Part) (c : Fin 2) (m : MemCtl) : (x.setCtl c m).replies = x.replies := rfl
@[simp] theorem Part.events_setCtl (x : Part) (c : Fin 2) (m : MemCtl) : (x.setCtl c m).events = x.events := rfl
@[simp] theorem Part.journal_setCtl (x : Part) (c : Fin 2) (m : MemCtl) : (x.setCtl c m).journal = x.journal := rfl
@[simp] theorem Part.rst_setCtl (x : Part) (c : Fin 2) (m : MemCtl) : (x.setCtl c m).rst = x.rst := rfl
@[simp] theorem Part.suspects_setCtl (x : Part) (c : Fin 2) (m : MemCtl) : (x.setCtl c m).suspects = x.suspects := rfl
@[simp] theorem Part.replaying_setCtl (x : Part) (c : Fin 2) (m : MemCtl) : (x.setCtl c m).replaying = x.replaying := rfl
@[simp] theorem Part.xfer_setCtl (x : Part) (c : Fin 2) (m : MemCtl) : (x.setCtl c m).xfer = x.xfer := rfl
@[simp] theorem Part.nextRid_setCtl (x : Part) (c : Fin 2) (m : MemCtl) : (x.setCtl c m).nextRid = x.nextRid := rfl
@[simp] theorem Part.grace_setCtl (x : Part) (c : Fin 2) (m : MemCtl) : (x.setCtl c m).grace = x.grace := rfl
@[simp] theorem Part.levelBnd_setCtl (x : Part) (c : Fin 2) (m : MemCtl) : (x.setCtl c m).levelBnd = x.levelBnd := rfl
@[simp] theorem Part.only2_setCtl (x : Part) (c : Fin 2) (m : MemCtl) : (x.setCtl c m).only2 = x.only2 := rfl
@[simp] theorem Part.actHold_setCtl (x : Part) (c : Fin 2) (m : MemCtl) : (x.setCtl c m).actHold = x.actHold := rfl
@[simp] theorem Part.bndAct_setCtl (x : Part) (c : Fin 2) (m : MemCtl) : (x.setCtl c m).bndAct = x.bndAct := rfl
@[simp] theorem Part.switchWait_setCtl (x : Part) (c : Fin 2) (m : MemCtl) : (x.setCtl c m).switchWait = x.switchWait := rfl
@[simp] theorem Part.gateErr_setCtl (x : Part) (c : Fin 2) (m : MemCtl) : (x.setCtl c m).gateErr = x.gateErr := rfl
@[simp] theorem Part.fenceOf_setCtl (x : Part) (c : Fin 2) (m : MemCtl) : (x.setCtl c m).fenceOf = x.fenceOf := rfl

theorem TilePages.get_set (t : TilePages) (k j : TPage) (b : Bank) : (t.set k b).get j = if j = k then b else t.get j := by
  cases k <;> cases j <;> rfl

/-! ### Pages and their fields -/

/-- A page that is written holds what was written, every other page what it held. -/
theorem State.bank_setBank (s : State) (i j : PageId) (b : Bank) : (s.setBank i b).bank j = if j = i then b else s.bank j := by
  cases i <;> cases j <;>
    simp only [State.bank, State.setBank, State.tile, State.setTile, State.part, State.setPart, State.port,
      State.setPort, Part.ctl, Part.setCtl, vec_get, Vector.getElem_set, PageId.tile.injEq, PageId.mc.injEq,
      PageId.pctl.injEq, PageId.qmg.injEq, PageId.link.injEq, PageId.peer.injEq, reduceCtorEq, if_false, if_true] <;>
    (repeat' split) <;> (first
      | (simp_all [TilePages.get_set, Fin.ext_iff]; done)
      | (simp_all [Fin.ext_iff, eq_comm]; done)
      | (rename_i h1 h2; exact absurd (Fin.ext_iff.1 h2.1).symm h1)
      | (rename_i h1 h2 h3; exact absurd (Fin.ext_iff.1 h2.1).symm h1))

@[simp] theorem State.bank_setBank_self (s : State) (i : PageId) (b : Bank) : (s.setBank i b).bank i = b := by
  simp [State.bank_setBank]

/-- Whether two fields are the same: page and place. -/
theorem State.reg_setReg_ne (s : State) {i j : PageId} {f g : Fld} (v : Nat) (h : j ≠ i ∨ g.key ≠ f.key) :
    (s.setReg i f v).reg j g = s.reg j g := by
  unfold State.reg State.setReg
  rw [State.bank_setBank]
  split
  · rename_i e; subst e
    exact Bank.get_set_ne _ _ (h.resolve_left (fun n => n rfl))
  · rfl

/-- A field that is written reads as the value cut to its width. -/
@[simp] theorem State.reg_setReg_self (s : State) (i : PageId) (f : Fld) (v : Nat) :
    (s.setReg i f v).reg i f = v % 2 ^ f.width := by
  unfold State.reg State.setReg
  rw [State.bank_setBank_self, Bank.get_set_self]

/-- A field after a write: the written one, or as before. -/
theorem State.reg_setReg (s : State) (i j : PageId) (f g : Fld) (v : Nat) (h : g.key = f.key → g = f) :
    (s.setReg i f v).reg j g = if j = i ∧ g = f then v % 2 ^ f.width else s.reg j g := by
  by_cases e : j = i ∧ g = f
  · obtain ⟨rfl, rfl⟩ := e
    simp
  · rw [if_neg e]
    apply State.reg_setReg_ne
    by_cases hj : j = i
    · exact .inr fun hk => e ⟨hj, h hk⟩
    · exact .inl hj

/-- A counter rises by `n` and stops at its largest value. -/
@[simp] theorem State.reg_count_self (s : State) (i : PageId) (f : Fld) (n : Nat) :
    (s.count i f n).reg i f = min (s.reg i f + n) (2 ^ f.width - 1) := by
  unfold State.reg State.count
  rw [State.bank_setBank_self, Bank.get_inc]

theorem State.reg_count_ne (s : State) {i j : PageId} {f g : Fld} (n : Nat) (h : j ≠ i ∨ g.key ≠ f.key) :
    (s.count i f n).reg j g = s.reg j g := by
  unfold State.reg State.count
  rw [State.bank_setBank]
  split
  · rename_i e; subst e
    exact Bank.get_inc_ne _ _ (h.resolve_left (fun n => n rfl))
  · rfl

theorem State.count_eq (s : State) (i : PageId) (f : Fld) (n : Nat) :
    s.count i f n = s.setReg i f (satAdd f.width (s.reg i f) n) := rfl

@[simp] theorem State.reg_setEng (s : State) (e : Engine) (i : PageId) (f : Fld)
    (h : e.eng = s.eng.eng ∧ e.dlw = s.eng.dlw ∧ e.sec = s.eng.sec ∧ e.pwr = s.eng.pwr) :
    (s.setEng e).reg i f = s.reg i f := by
  obtain ⟨h1, h2, h3, h4⟩ := h
  unfold State.reg
  congr 1
  cases i <;> simp [State.bank, h1, h2, h3, h4]
@[simp] theorem State.bank_setResp (s : State) (r : Response) (i : PageId) : (s.setResp r).bank i = s.bank i := rfl
@[simp] theorem State.reg_setResp (s : State) (r : Response) (i : PageId) (f : Fld) : (s.setResp r).reg i f = s.reg i f := rfl
@[simp] theorem State.bank_setFresh (s : State) (n : Nat) (i : PageId) : (s.setFresh n).bank i = s.bank i := rfl
@[simp] theorem State.reg_setFresh (s : State) (n : Nat) (i : PageId) (f : Fld) : (s.setFresh n).reg i f = s.reg i f := rfl
@[simp] theorem State.bank_withPending (s : State) (l : List Instr) (i : PageId) : (s.withPending l).bank i = s.bank i := rfl
@[simp] theorem State.reg_withPending (s : State) (l : List Instr) (i : PageId) (f : Fld) :
    (s.withPending l).reg i f = s.reg i f := rfl

/-- A tile whose pages are kept. -/
@[simp] theorem State.reg_setTile (s : State) (g : TileId) (t : Tile) (i : PageId) (f : Fld) (h : t.pg = (s.tile g).pg) :
    (s.setTile g t).reg i f = s.reg i f := by
  unfold State.reg
  congr 1
  cases i <;> simp [State.bank, State.tile_setTile]
  split
  · rename_i e; subst e; rw [h]
  · rfl
/-- A partition whose pages are kept. -/
@[simp] theorem State.reg_setPart (s : State) (p : PartId) (x : Part) (i : PageId) (f : Fld)
    (h : x.pctl = (s.part p).pctl ∧ x.qmg = (s.part p).qmg ∧ x.mc = (s.part p).mc) :
    (s.setPart p x).reg i f = s.reg i f := by
  obtain ⟨h1, h2, h3⟩ := h
  unfold State.reg
  congr 1
  cases i <;> simp [State.bank, State.part_setPart, Part.ctl] <;> (split <;> first | rfl | (rename_i e; subst e; simp [h1, h2, h3]))
/-- A port whose pages are kept. -/
@[simp] theorem State.reg_setPort (s : State) (n : PortId) (x : Port) (i : PageId) (f : Fld)
    (h : x.link = (s.port n).link ∧ x.peer = (s.port n).peer) : (s.setPort n x).reg i f = s.reg i f := by
  obtain ⟨h1, h2⟩ := h
  unfold State.reg
  congr 1
  cases i <;> simp [State.bank, State.port_setPort] <;> (split <;> first | rfl | (rename_i e; subst e; simp [h1, h2]))

/-! ### What a write of a page leaves alone -/

@[simp] theorem State.variant_setBank (s : State) (i : PageId) (b : Bank) : (s.setBank i b).variant = s.variant := by
  cases i <;> rfl
@[simp] theorem State.resp_setBank (s : State) (i : PageId) (b : Bank) : (s.setBank i b).resp = s.resp := by
  cases i <;> rfl
@[simp] theorem State.fresh_setBank (s : State) (i : PageId) (b : Bank) : (s.setBank i b).fresh = s.fresh := by
  cases i <;> rfl
@[simp] theorem State.pending_setBank (s : State) (i : PageId) (b : Bank) : (s.setBank i b).pending = s.pending := by
  cases i <;> rfl
@[simp] theorem State.tile_spd_setBank (s : State) (i : PageId) (b : Bank) (h : TileId) : ((s.setBank i b).tile h).spd = (s.tile h).spd := by
  cases i <;> first | rfl | (simp only [State.setBank, State.tile_setTile]; split <;> simp_all)
@[simp] theorem State.tile_acc0_setBank (s : State) (i : PageId) (b : Bank) (h : TileId) : ((s.setBank i b).tile h).acc0 = (s.tile h).acc0 := by
  cases i <;> first | rfl | (simp only [State.setBank, State.tile_setTile]; split <;> simp_all)
@[simp] theorem State.tile_acc1_setBank (s : State) (i : PageId) (b : Bank) (h : TileId) : ((s.setBank i b).tile h).acc1 = (s.tile h).acc1 := by
  cases i <;> first | rfl | (simp only [State.setBank, State.tile_setTile]; split <;> simp_all)
@[simp] theorem State.tile_arr_setBank (s : State) (i : PageId) (b : Bank) (h : TileId) : ((s.setBank i b).tile h).arr = (s.tile h).arr := by
  cases i <;> first | rfl | (simp only [State.setBank, State.tile_setTile]; split <;> simp_all)
@[simp] theorem State.tile_books_setBank (s : State) (i : PageId) (b : Bank) (h : TileId) : ((s.setBank i b).tile h).books = (s.tile h).books := by
  cases i <;> first | rfl | (simp only [State.setBank, State.tile_setTile]; split <;> simp_all)
@[simp] theorem State.tile_dither_setBank (s : State) (i : PageId) (b : Bank) (h : TileId) : ((s.setBank i b).tile h).dither = (s.tile h).dither := by
  cases i <;> first | rfl | (simp only [State.setBank, State.tile_setTile]; split <;> simp_all)
@[simp] theorem State.tile_seq_setBank (s : State) (i : PageId) (b : Bank) (h : TileId) : ((s.setBank i b).tile h).seq = (s.tile h).seq := by
  cases i <;> first | rfl | (simp only [State.setBank, State.tile_setTile]; split <;> simp_all)
@[simp] theorem State.tile_units_setBank (s : State) (i : PageId) (b : Bank) (h : TileId) : ((s.setBank i b).tile h).units = (s.tile h).units := by
  cases i <;> first | rfl | (simp only [State.setBank, State.tile_setTile]; split <;> simp_all)
@[simp] theorem State.tile_job_setBank (s : State) (i : PageId) (b : Bank) (h : TileId) : ((s.setBank i b).tile h).job = (s.tile h).job := by
  cases i <;> first | rfl | (simp only [State.setBank, State.tile_setTile]; split <;> simp_all)
@[simp] theorem State.tile_progress_setBank (s : State) (i : PageId) (b : Bank) (h : TileId) : ((s.setBank i b).tile h).progress = (s.tile h).progress := by
  cases i <;> first | rfl | (simp only [State.setBank, State.tile_setTile]; split <;> simp_all)
@[simp] theorem State.part_gates_setBank (s : State) (i : PageId) (b : Bank) (q : PartId) : ((s.setBank i b).part q).gates = (s.part q).gates := by
  cases i <;> first | rfl | (simp only [State.setBank, State.part_setPart]; split <;> simp_all)
@[simp] theorem State.part_jobs_setBank (s : State) (i : PageId) (b : Bank) (q : PartId) : ((s.setBank i b).part q).jobs = (s.part q).jobs := by
  cases i <;> first | rfl | (simp only [State.setBank, State.part_setPart]; split <;> simp_all)
@[simp] theorem State.part_chains_setBank (s : State) (i : PageId) (b : Bank) (q : PartId) : ((s.setBank i b).part q).chains = (s.part q).chains := by
  cases i <;> first | rfl | (simp only [State.setBank, State.part_setPart]; split <;> simp_all)
@[simp] theorem State.part_chainWrites_setBank (s : State) (i : PageId) (b : Bank) (q : PartId) : ((s.setBank i b).part q).chainWrites = (s.part q).chainWrites := by
  cases i <;> first | rfl | (simp only [State.setBank, State.part_setPart]; split <;> simp_all)
@[simp] theorem State.part_heads_setBank (s : State) (i : PageId) (b : Bank) (q : PartId) : ((s.setBank i b).part q).heads = (s.part q).heads := by
  cases i <;> first | rfl | (simp only [State.setBank, State.part_setPart]; split <;> simp_all)
@[simp] theorem State.part_lastQueue_setBank (s : State) (i : PageId) (b : Bank) (q : PartId) : ((s.setBank i b).part q).lastQueue = (s.part q).lastQueue := by
  cases i <;> first | rfl | (simp only [State.setBank, State.part_setPart]; split <;> simp_all)
@[simp] theorem State.part_nextJob_setBank (s : State) (i : PageId) (b : Bank) (q : PartId) : ((s.setBank i b).part q).nextJob = (s.part q).nextJob := by
  cases i <;> first | rfl | (simp only [State.setBank, State.part_setPart]; split <;> simp_all)
@[simp] theorem State.part_fw_setBank (s : State) (i : PageId) (b : Bank) (q : PartId) : ((s.setBank i b).part q).fw = (s.part q).fw := by
  cases i <;> first | rfl | (simp only [State.setBank, State.part_setPart]; split <;> simp_all)
@[simp] theorem State.part_replies_setBank (s : State) (i : PageId) (b : Bank) (q : PartId) : ((s.setBank i b).part q).replies = (s.part q).replies := by
  cases i <;> first | rfl | (simp only [State.setBank, State.part_setPart]; split <;> simp_all)
@[simp] theorem State.part_events_setBank (s : State) (i : PageId) (b : Bank) (q : PartId) : ((s.setBank i b).part q).events = (s.part q).events := by
  cases i <;> first | rfl | (simp only [State.setBank, State.part_setPart]; split <;> simp_all)
@[simp] theorem State.part_journal_setBank (s : State) (i : PageId) (b : Bank) (q : PartId) : ((s.setBank i b).part q).journal = (s.part q).journal := by
  cases i <;> first | rfl | (simp only [State.setBank, State.part_setPart]; split <;> simp_all)
@[simp] theorem State.part_rst_setBank (s : State) (i : PageId) (b : Bank) (q : PartId) : ((s.setBank i b).part q).rst = (s.part q).rst := by
  cases i <;> first | rfl | (simp only [State.setBank, State.part_setPart]; split <;> simp_all)
@[simp] theorem State.part_suspects_setBank (s : State) (i : PageId) (b : Bank) (q : PartId) : ((s.setBank i b).part q).suspects = (s.part q).suspects := by
  cases i <;> first | rfl | (simp only [State.setBank, State.part_setPart]; split <;> simp_all)
@[simp] theorem State.part_replaying_setBank (s : State) (i : PageId) (b : Bank) (q : PartId) : ((s.setBank i b).part q).replaying = (s.part q).replaying := by
  cases i <;> first | rfl | (simp only [State.setBank, State.part_setPart]; split <;> simp_all)
@[simp] theorem State.part_xfer_setBank (s : State) (i : PageId) (b : Bank) (q : PartId) : ((s.setBank i b).part q).xfer = (s.part q).xfer := by
  cases i <;> first | rfl | (simp only [State.setBank, State.part_setPart]; split <;> simp_all)
@[simp] theorem State.part_nextRid_setBank (s : State) (i : PageId) (b : Bank) (q : PartId) : ((s.setBank i b).part q).nextRid = (s.part q).nextRid := by
  cases i <;> first | rfl | (simp only [State.setBank, State.part_setPart]; split <;> simp_all)
@[simp] theorem State.part_grace_setBank (s : State) (i : PageId) (b : Bank) (q : PartId) : ((s.setBank i b).part q).grace = (s.part q).grace := by
  cases i <;> first | rfl | (simp only [State.setBank, State.part_setPart]; split <;> simp_all)
@[simp] theorem State.part_levelBnd_setBank (s : State) (i : PageId) (b : Bank) (q : PartId) : ((s.setBank i b).part q).levelBnd = (s.part q).levelBnd := by
  cases i <;> first | rfl | (simp only [State.setBank, State.part_setPart]; split <;> simp_all)
@[simp] theorem State.part_only2_setBank (s : State) (i : PageId) (b : Bank) (q : PartId) : ((s.setBank i b).part q).only2 = (s.part q).only2 := by
  cases i <;> first | rfl | (simp only [State.setBank, State.part_setPart]; split <;> simp_all)
@[simp] theorem State.part_actHold_setBank (s : State) (i : PageId) (b : Bank) (q : PartId) : ((s.setBank i b).part q).actHold = (s.part q).actHold := by
  cases i <;> first | rfl | (simp only [State.setBank, State.part_setPart]; split <;> simp_all)
@[simp] theorem State.part_bndAct_setBank (s : State) (i : PageId) (b : Bank) (q : PartId) : ((s.setBank i b).part q).bndAct = (s.part q).bndAct := by
  cases i <;> first | rfl | (simp only [State.setBank, State.part_setPart]; split <;> simp_all)
@[simp] theorem State.part_switchWait_setBank (s : State) (i : PageId) (b : Bank) (q : PartId) : ((s.setBank i b).part q).switchWait = (s.part q).switchWait := by
  cases i <;> first | rfl | (simp only [State.setBank, State.part_setPart]; split <;> simp_all)
@[simp] theorem State.part_gateErr_setBank (s : State) (i : PageId) (b : Bank) (q : PartId) : ((s.setBank i b).part q).gateErr = (s.part q).gateErr := by
  cases i <;> first | rfl | (simp only [State.setBank, State.part_setPart]; split <;> simp_all)
@[simp] theorem State.part_fenceOf_setBank (s : State) (i : PageId) (b : Bank) (q : PartId) : ((s.setBank i b).part q).fenceOf = (s.part q).fenceOf := by
  cases i <;> first | rfl | (simp only [State.setBank, State.part_setPart]; split <;> simp_all)
@[simp] theorem State.ctl_mem_setBank (s : State) (i : PageId) (b : Bank) (q : PartId) (d : Fin 2) : (((s.setBank i b).part q).ctl d).mem = ((s.part q).ctl d).mem := by
  cases i <;> first | rfl | (simp only [State.setBank, State.part_setPart]; split <;> simp_all [Part.ctl, Part.setCtl, vec_get, Vector.getElem_set]; try (split <;> simp_all))
@[simp] theorem State.ctl_cache_setBank (s : State) (i : PageId) (b : Bank) (q : PartId) (d : Fin 2) : (((s.setBank i b).part q).ctl d).cache = ((s.part q).ctl d).cache := by
  cases i <;> first | rfl | (simp only [State.setBank, State.part_setPart]; split <;> simp_all [Part.ctl, Part.setCtl, vec_get, Vector.getElem_set]; try (split <;> simp_all))
@[simp] theorem State.ctl_merge_setBank (s : State) (i : PageId) (b : Bank) (q : PartId) (d : Fin 2) : (((s.setBank i b).part q).ctl d).merge = ((s.part q).ctl d).merge := by
  cases i <;> first | rfl | (simp only [State.setBank, State.part_setPart]; split <;> simp_all [Part.ctl, Part.setCtl, vec_get, Vector.getElem_set]; try (split <;> simp_all))
@[simp] theorem State.ctl_fixups_setBank (s : State) (i : PageId) (b : Bank) (q : PartId) (d : Fin 2) : (((s.setBank i b).part q).ctl d).fixups = ((s.part q).ctl d).fixups := by
  cases i <;> first | rfl | (simp only [State.setBank, State.part_setPart]; split <;> simp_all [Part.ctl, Part.setCtl, vec_get, Vector.getElem_set]; try (split <;> simp_all))
@[simp] theorem State.port_keyCur_setBank (s : State) (i : PageId) (b : Bank) (m : PortId) : ((s.setBank i b).port m).keyCur = (s.port m).keyCur := by
  cases i <;> first | rfl | (simp only [State.setBank, State.port_setPort]; split <;> simp_all)
@[simp] theorem State.port_keyNext_setBank (s : State) (i : PageId) (b : Bank) (m : PortId) : ((s.setBank i b).port m).keyNext = (s.port m).keyNext := by
  cases i <;> first | rfl | (simp only [State.setBank, State.port_setPort]; split <;> simp_all)
@[simp] theorem State.port_sealed_setBank (s : State) (i : PageId) (b : Bank) (m : PortId) : ((s.setBank i b).port m).sealed = (s.port m).sealed := by
  cases i <;> first | rfl | (simp only [State.setBank, State.port_setPort]; split <;> simp_all)
@[simp] theorem State.port_sealedNext_setBank (s : State) (i : PageId) (b : Bank) (m : PortId) : ((s.setBank i b).port m).sealedNext = (s.port m).sealedNext := by
  cases i <;> first | rfl | (simp only [State.setBank, State.port_setPort]; split <;> simp_all)
@[simp] theorem State.port_slot_setBank (s : State) (i : PageId) (b : Bank) (m : PortId) : ((s.setBank i b).port m).slot = (s.port m).slot := by
  cases i <;> first | rfl | (simp only [State.setBank, State.port_setPort]; split <;> simp_all)
@[simp] theorem State.port_tx_setBank (s : State) (i : PageId) (b : Bank) (m : PortId) : ((s.setBank i b).port m).tx = (s.port m).tx := by
  cases i <;> first | rfl | (simp only [State.setBank, State.port_setPort]; split <;> simp_all)
@[simp] theorem State.port_held_setBank (s : State) (i : PageId) (b : Bank) (m : PortId) : ((s.setBank i b).port m).held = (s.port m).held := by
  cases i <;> first | rfl | (simp only [State.setBank, State.port_setPort]; split <;> simp_all)
@[simp] theorem State.port_out_setBank (s : State) (i : PageId) (b : Bank) (m : PortId) : ((s.setBank i b).port m).out = (s.port m).out := by
  cases i <;> first | rfl | (simp only [State.setBank, State.port_setPort]; split <;> simp_all)
@[simp] theorem State.port_heard_setBank (s : State) (i : PageId) (b : Bank) (m : PortId) : ((s.setBank i b).port m).heard = (s.port m).heard := by
  cases i <;> first | rfl | (simp only [State.setBank, State.port_setPort]; split <;> simp_all)
@[simp] theorem State.port_downLaps_setBank (s : State) (i : PageId) (b : Bank) (m : PortId) : ((s.setBank i b).port m).downLaps = (s.port m).downLaps := by
  cases i <;> first | rfl | (simp only [State.setBank, State.port_setPort]; split <;> simp_all)
@[simp] theorem State.port_echoBad_setBank (s : State) (i : PageId) (b : Bank) (m : PortId) : ((s.setBank i b).port m).echoBad = (s.port m).echoBad := by
  cases i <;> first | rfl | (simp only [State.setBank, State.port_setPort]; split <;> simp_all)
@[simp] theorem State.port_badLaps_setBank (s : State) (i : PageId) (b : Bank) (m : PortId) : ((s.setBank i b).port m).badLaps = (s.port m).badLaps := by
  cases i <;> first | rfl | (simp only [State.setBank, State.port_setPort]; split <;> simp_all)
@[simp] theorem State.port_dark_setBank (s : State) (i : PageId) (b : Bank) (m : PortId) : ((s.setBank i b).port m).dark = (s.port m).dark := by
  cases i <;> first | rfl | (simp only [State.setBank, State.port_setPort]; split <;> simp_all)
@[simp] theorem State.port_slotBad_setBank (s : State) (i : PageId) (b : Bank) (m : PortId) : ((s.setBank i b).port m).slotBad = (s.port m).slotBad := by
  cases i <;> first | rfl | (simp only [State.setBank, State.port_setPort]; split <;> simp_all)
@[simp] theorem State.port_alarmLaps_setBank (s : State) (i : PageId) (b : Bank) (m : PortId) : ((s.setBank i b).port m).alarmLaps = (s.port m).alarmLaps := by
  cases i <;> first | rfl | (simp only [State.setBank, State.port_setPort]; split <;> simp_all)
@[simp] theorem State.port_collisions_setBank (s : State) (i : PageId) (b : Bank) (m : PortId) : ((s.setBank i b).port m).collisions = (s.port m).collisions := by
  cases i <;> first | rfl | (simp only [State.setBank, State.port_setPort]; split <;> simp_all)
@[simp] theorem State.port_backoff_setBank (s : State) (i : PageId) (b : Bank) (m : PortId) : ((s.setBank i b).port m).backoff = (s.port m).backoff := by
  cases i <;> first | rfl | (simp only [State.setBank, State.port_setPort]; split <;> simp_all)
@[simp] theorem State.port_contended_setBank (s : State) (i : PageId) (b : Bank) (m : PortId) : ((s.setBank i b).port m).contended = (s.port m).contended := by
  cases i <;> first | rfl | (simp only [State.setBank, State.port_setPort]; split <;> simp_all)
@[simp] theorem State.port_newMap_setBank (s : State) (i : PageId) (b : Bank) (m : PortId) : ((s.setBank i b).port m).newMap = (s.port m).newMap := by
  cases i <;> first | rfl | (simp only [State.setBank, State.port_setPort]; split <;> simp_all)
@[simp] theorem State.port_muted_setBank (s : State) (i : PageId) (b : Bank) (m : PortId) : ((s.setBank i b).port m).muted = (s.port m).muted := by
  cases i <;> first | rfl | (simp only [State.setBank, State.port_setPort]; split <;> simp_all)
@[simp] theorem State.port_joinAcks_setBank (s : State) (i : PageId) (b : Bank) (m : PortId) : ((s.setBank i b).port m).joinAcks = (s.port m).joinAcks := by
  cases i <;> first | rfl | (simp only [State.setBank, State.port_setPort]; split <;> simp_all)
@[simp] theorem State.port_joinAcked_setBank (s : State) (i : PageId) (b : Bank) (m : PortId) : ((s.setBank i b).port m).joinAcked = (s.port m).joinAcked := by
  cases i <;> first | rfl | (simp only [State.setBank, State.port_setPort]; split <;> simp_all)
@[simp] theorem State.port_depochUsed_setBank (s : State) (i : PageId) (b : Bank) (m : PortId) : ((s.setBank i b).port m).depochUsed = (s.port m).depochUsed := by
  cases i <;> first | rfl | (simp only [State.setBank, State.port_setPort]; split <;> simp_all)
@[simp] theorem State.port_leaveSlots_setBank (s : State) (i : PageId) (b : Bank) (m : PortId) : ((s.setBank i b).port m).leaveSlots = (s.port m).leaveSlots := by
  cases i <;> first | rfl | (simp only [State.setBank, State.port_setPort]; split <;> simp_all)
@[simp] theorem State.port_epochsEnded_setBank (s : State) (i : PageId) (b : Bank) (m : PortId) : ((s.setBank i b).port m).epochsEnded = (s.port m).epochsEnded := by
  cases i <;> first | rfl | (simp only [State.setBank, State.port_setPort]; split <;> simp_all)
@[simp] theorem State.port_peerState_setBank (s : State) (i : PageId) (b : Bank) (m : PortId) : ((s.setBank i b).port m).peerState = (s.port m).peerState := by
  cases i <;> first | rfl | (simp only [State.setBank, State.port_setPort]; split <;> simp_all)
@[simp] theorem State.eng_ggates_setBank (s : State) (i : PageId) (b : Bank) : (s.setBank i b).eng.ggates = s.eng.ggates := by
  cases i <;> rfl
@[simp] theorem State.eng_sys_setBank (s : State) (i : PageId) (b : Bank) : (s.setBank i b).eng.sys = s.eng.sys := by
  cases i <;> rfl
@[simp] theorem State.eng_arbLast_setBank (s : State) (i : PageId) (b : Bank) : (s.setBank i b).eng.arbLast = s.eng.arbLast := by
  cases i <;> rfl
@[simp] theorem State.eng_dump_setBank (s : State) (i : PageId) (b : Bank) : (s.setBank i b).eng.dump = s.eng.dump := by
  cases i <;> rfl
@[simp] theorem State.eng_gateSave_setBank (s : State) (i : PageId) (b : Bank) : (s.setBank i b).eng.gateSave = s.eng.gateSave := by
  cases i <;> rfl
@[simp] theorem State.eng_windows_setBank (s : State) (i : PageId) (b : Bank) : (s.setBank i b).eng.windows = s.eng.windows := by
  cases i <;> rfl
@[simp] theorem State.eng_faultLog_setBank (s : State) (i : PageId) (b : Bank) : (s.setBank i b).eng.faultLog = s.eng.faultLog := by
  cases i <;> rfl
@[simp] theorem State.eng_faulted_setBank (s : State) (i : PageId) (b : Bank) : (s.setBank i b).eng.faulted = s.eng.faulted := by
  cases i <;> rfl
@[simp] theorem State.eng_models_setBank (s : State) (i : PageId) (b : Bank) : (s.setBank i b).eng.models = s.eng.models := by
  cases i <;> rfl
@[simp] theorem State.eng_nextHandle_setBank (s : State) (i : PageId) (b : Bank) : (s.setBank i b).eng.nextHandle = s.eng.nextHandle := by
  cases i <;> rfl
@[simp] theorem State.eng_otp_setBank (s : State) (i : PageId) (b : Bank) : (s.setBank i b).eng.otp = s.eng.otp := by
  cases i <;> rfl
@[simp] theorem State.eng_flash_setBank (s : State) (i : PageId) (b : Bank) : (s.setBank i b).eng.flash = s.eng.flash := by
  cases i <;> rfl
@[simp] theorem State.eng_loader_setBank (s : State) (i : PageId) (b : Bank) : (s.setBank i b).eng.loader = s.eng.loader := by
  cases i <;> rfl
@[simp] theorem State.eng_inReset_setBank (s : State) (i : PageId) (b : Bank) : (s.setBank i b).eng.inReset = s.eng.inReset := by
  cases i <;> rfl
@[simp] theorem State.eng_bootWait_setBank (s : State) (i : PageId) (b : Bank) : (s.setBank i b).eng.bootWait = s.eng.bootWait := by
  cases i <;> rfl
@[simp] theorem State.eng_runSvn_setBank (s : State) (i : PageId) (b : Bank) : (s.setBank i b).eng.runSvn = s.eng.runSvn := by
  cases i <;> rfl
@[simp] theorem State.eng_runCopy_setBank (s : State) (i : PageId) (b : Bank) : (s.setBank i b).eng.runCopy = s.eng.runCopy := by
  cases i <;> rfl
@[simp] theorem State.eng_emcMem_setBank (s : State) (i : PageId) (b : Bank) : (s.setBank i b).eng.emcMem = s.eng.emcMem := by
  cases i <;> rfl
@[simp] theorem State.eng_pccMem_setBank (s : State) (i : PageId) (b : Bank) : (s.setBank i b).eng.pccMem = s.eng.pccMem := by
  cases i <;> rfl
@[simp] theorem State.eng_activating_setBank (s : State) (i : PageId) (b : Bank) : (s.setBank i b).eng.activating = s.eng.activating := by
  cases i <;> rfl
@[simp] theorem State.eng_heldMailbox_setBank (s : State) (i : PageId) (b : Bank) : (s.setBank i b).eng.heldMailbox = s.eng.heldMailbox := by
  cases i <;> rfl
@[simp] theorem State.eng_debug_setBank (s : State) (i : PageId) (b : Bank) : (s.setBank i b).eng.debug = s.eng.debug := by
  cases i <;> rfl

@[simp] theorem State.eng_tjUnread_setBank (s : State) (i : PageId) (b : Bank) : (s.setBank i b).eng.tjUnread = s.eng.tjUnread := by
  cases i <;> rfl

@[simp] theorem State.variant_setReg (s : State) (i : PageId) (f : Fld) (v : Nat) : (s.setReg i f v).variant = s.variant :=
  State.variant_setBank ..
@[simp] theorem State.variant_count (s : State) (i : PageId) (f : Fld) (v : Nat) : (s.count i f v).variant = s.variant :=
  State.variant_setBank ..
@[simp] theorem State.variant_setFlag (s : State) (i : PageId) (f : Fld) (v : Nat) : (s.setFlag i f v).variant = s.variant :=
  State.variant_setBank ..
@[simp] theorem State.resp_setReg (s : State) (i : PageId) (f : Fld) (v : Nat) : (s.setReg i f v).resp = s.resp :=
  State.resp_setBank ..
@[simp] theorem State.resp_count (s : State) (i : PageId) (f : Fld) (v : Nat) : (s.count i f v).resp = s.resp :=
  State.resp_setBank ..
@[simp] theorem State.resp_setFlag (s : State) (i : PageId) (f : Fld) (v : Nat) : (s.setFlag i f v).resp = s.resp :=
  State.resp_setBank ..
@[simp] theorem State.fresh_setReg (s : State) (i : PageId) (f : Fld) (v : Nat) : (s.setReg i f v).fresh = s.fresh :=
  State.fresh_setBank ..
@[simp] theorem State.fresh_count (s : State) (i : PageId) (f : Fld) (v : Nat) : (s.count i f v).fresh = s.fresh :=
  State.fresh_setBank ..
@[simp] theorem State.fresh_setFlag (s : State) (i : PageId) (f : Fld) (v : Nat) : (s.setFlag i f v).fresh = s.fresh :=
  State.fresh_setBank ..
@[simp] theorem State.pending_setReg (s : State) (i : PageId) (f : Fld) (v : Nat) : (s.setReg i f v).pending = s.pending :=
  State.pending_setBank ..
@[simp] theorem State.pending_count (s : State) (i : PageId) (f : Fld) (v : Nat) : (s.count i f v).pending = s.pending :=
  State.pending_setBank ..
@[simp] theorem State.pending_setFlag (s : State) (i : PageId) (f : Fld) (v : Nat) : (s.setFlag i f v).pending = s.pending :=
  State.pending_setBank ..
@[simp] theorem State.tile_spd_setReg (s : State) (i : PageId) (f : Fld) (v : Nat) (h : TileId) : ((s.setReg i f v).tile h).spd = (s.tile h).spd :=
  State.tile_spd_setBank ..
@[simp] theorem State.tile_spd_count (s : State) (i : PageId) (f : Fld) (v : Nat) (h : TileId) : ((s.count i f v).tile h).spd = (s.tile h).spd :=
  State.tile_spd_setBank ..
@[simp] theorem State.tile_spd_setFlag (s : State) (i : PageId) (f : Fld) (v : Nat) (h : TileId) : ((s.setFlag i f v).tile h).spd = (s.tile h).spd :=
  State.tile_spd_setBank ..
@[simp] theorem State.tile_acc0_setReg (s : State) (i : PageId) (f : Fld) (v : Nat) (h : TileId) : ((s.setReg i f v).tile h).acc0 = (s.tile h).acc0 :=
  State.tile_acc0_setBank ..
@[simp] theorem State.tile_acc0_count (s : State) (i : PageId) (f : Fld) (v : Nat) (h : TileId) : ((s.count i f v).tile h).acc0 = (s.tile h).acc0 :=
  State.tile_acc0_setBank ..
@[simp] theorem State.tile_acc0_setFlag (s : State) (i : PageId) (f : Fld) (v : Nat) (h : TileId) : ((s.setFlag i f v).tile h).acc0 = (s.tile h).acc0 :=
  State.tile_acc0_setBank ..
@[simp] theorem State.tile_acc1_setReg (s : State) (i : PageId) (f : Fld) (v : Nat) (h : TileId) : ((s.setReg i f v).tile h).acc1 = (s.tile h).acc1 :=
  State.tile_acc1_setBank ..
@[simp] theorem State.tile_acc1_count (s : State) (i : PageId) (f : Fld) (v : Nat) (h : TileId) : ((s.count i f v).tile h).acc1 = (s.tile h).acc1 :=
  State.tile_acc1_setBank ..
@[simp] theorem State.tile_acc1_setFlag (s : State) (i : PageId) (f : Fld) (v : Nat) (h : TileId) : ((s.setFlag i f v).tile h).acc1 = (s.tile h).acc1 :=
  State.tile_acc1_setBank ..
@[simp] theorem State.tile_arr_setReg (s : State) (i : PageId) (f : Fld) (v : Nat) (h : TileId) : ((s.setReg i f v).tile h).arr = (s.tile h).arr :=
  State.tile_arr_setBank ..
@[simp] theorem State.tile_arr_count (s : State) (i : PageId) (f : Fld) (v : Nat) (h : TileId) : ((s.count i f v).tile h).arr = (s.tile h).arr :=
  State.tile_arr_setBank ..
@[simp] theorem State.tile_arr_setFlag (s : State) (i : PageId) (f : Fld) (v : Nat) (h : TileId) : ((s.setFlag i f v).tile h).arr = (s.tile h).arr :=
  State.tile_arr_setBank ..
@[simp] theorem State.tile_books_setReg (s : State) (i : PageId) (f : Fld) (v : Nat) (h : TileId) : ((s.setReg i f v).tile h).books = (s.tile h).books :=
  State.tile_books_setBank ..
@[simp] theorem State.tile_books_count (s : State) (i : PageId) (f : Fld) (v : Nat) (h : TileId) : ((s.count i f v).tile h).books = (s.tile h).books :=
  State.tile_books_setBank ..
@[simp] theorem State.tile_books_setFlag (s : State) (i : PageId) (f : Fld) (v : Nat) (h : TileId) : ((s.setFlag i f v).tile h).books = (s.tile h).books :=
  State.tile_books_setBank ..
@[simp] theorem State.tile_dither_setReg (s : State) (i : PageId) (f : Fld) (v : Nat) (h : TileId) : ((s.setReg i f v).tile h).dither = (s.tile h).dither :=
  State.tile_dither_setBank ..
@[simp] theorem State.tile_dither_count (s : State) (i : PageId) (f : Fld) (v : Nat) (h : TileId) : ((s.count i f v).tile h).dither = (s.tile h).dither :=
  State.tile_dither_setBank ..
@[simp] theorem State.tile_dither_setFlag (s : State) (i : PageId) (f : Fld) (v : Nat) (h : TileId) : ((s.setFlag i f v).tile h).dither = (s.tile h).dither :=
  State.tile_dither_setBank ..
@[simp] theorem State.tile_seq_setReg (s : State) (i : PageId) (f : Fld) (v : Nat) (h : TileId) : ((s.setReg i f v).tile h).seq = (s.tile h).seq :=
  State.tile_seq_setBank ..
@[simp] theorem State.tile_seq_count (s : State) (i : PageId) (f : Fld) (v : Nat) (h : TileId) : ((s.count i f v).tile h).seq = (s.tile h).seq :=
  State.tile_seq_setBank ..
@[simp] theorem State.tile_seq_setFlag (s : State) (i : PageId) (f : Fld) (v : Nat) (h : TileId) : ((s.setFlag i f v).tile h).seq = (s.tile h).seq :=
  State.tile_seq_setBank ..
@[simp] theorem State.tile_units_setReg (s : State) (i : PageId) (f : Fld) (v : Nat) (h : TileId) : ((s.setReg i f v).tile h).units = (s.tile h).units :=
  State.tile_units_setBank ..
@[simp] theorem State.tile_units_count (s : State) (i : PageId) (f : Fld) (v : Nat) (h : TileId) : ((s.count i f v).tile h).units = (s.tile h).units :=
  State.tile_units_setBank ..
@[simp] theorem State.tile_units_setFlag (s : State) (i : PageId) (f : Fld) (v : Nat) (h : TileId) : ((s.setFlag i f v).tile h).units = (s.tile h).units :=
  State.tile_units_setBank ..
@[simp] theorem State.tile_job_setReg (s : State) (i : PageId) (f : Fld) (v : Nat) (h : TileId) : ((s.setReg i f v).tile h).job = (s.tile h).job :=
  State.tile_job_setBank ..
@[simp] theorem State.tile_job_count (s : State) (i : PageId) (f : Fld) (v : Nat) (h : TileId) : ((s.count i f v).tile h).job = (s.tile h).job :=
  State.tile_job_setBank ..
@[simp] theorem State.tile_job_setFlag (s : State) (i : PageId) (f : Fld) (v : Nat) (h : TileId) : ((s.setFlag i f v).tile h).job = (s.tile h).job :=
  State.tile_job_setBank ..
@[simp] theorem State.tile_progress_setReg (s : State) (i : PageId) (f : Fld) (v : Nat) (h : TileId) : ((s.setReg i f v).tile h).progress = (s.tile h).progress :=
  State.tile_progress_setBank ..
@[simp] theorem State.tile_progress_count (s : State) (i : PageId) (f : Fld) (v : Nat) (h : TileId) : ((s.count i f v).tile h).progress = (s.tile h).progress :=
  State.tile_progress_setBank ..
@[simp] theorem State.tile_progress_setFlag (s : State) (i : PageId) (f : Fld) (v : Nat) (h : TileId) : ((s.setFlag i f v).tile h).progress = (s.tile h).progress :=
  State.tile_progress_setBank ..
@[simp] theorem State.part_gates_setReg (s : State) (i : PageId) (f : Fld) (v : Nat) (q : PartId) : ((s.setReg i f v).part q).gates = (s.part q).gates :=
  State.part_gates_setBank ..
@[simp] theorem State.part_gates_count (s : State) (i : PageId) (f : Fld) (v : Nat) (q : PartId) : ((s.count i f v).part q).gates = (s.part q).gates :=
  State.part_gates_setBank ..
@[simp] theorem State.part_gates_setFlag (s : State) (i : PageId) (f : Fld) (v : Nat) (q : PartId) : ((s.setFlag i f v).part q).gates = (s.part q).gates :=
  State.part_gates_setBank ..
@[simp] theorem State.part_jobs_setReg (s : State) (i : PageId) (f : Fld) (v : Nat) (q : PartId) : ((s.setReg i f v).part q).jobs = (s.part q).jobs :=
  State.part_jobs_setBank ..
@[simp] theorem State.part_jobs_count (s : State) (i : PageId) (f : Fld) (v : Nat) (q : PartId) : ((s.count i f v).part q).jobs = (s.part q).jobs :=
  State.part_jobs_setBank ..
@[simp] theorem State.part_jobs_setFlag (s : State) (i : PageId) (f : Fld) (v : Nat) (q : PartId) : ((s.setFlag i f v).part q).jobs = (s.part q).jobs :=
  State.part_jobs_setBank ..
@[simp] theorem State.part_chains_setReg (s : State) (i : PageId) (f : Fld) (v : Nat) (q : PartId) : ((s.setReg i f v).part q).chains = (s.part q).chains :=
  State.part_chains_setBank ..
@[simp] theorem State.part_chains_count (s : State) (i : PageId) (f : Fld) (v : Nat) (q : PartId) : ((s.count i f v).part q).chains = (s.part q).chains :=
  State.part_chains_setBank ..
@[simp] theorem State.part_chains_setFlag (s : State) (i : PageId) (f : Fld) (v : Nat) (q : PartId) : ((s.setFlag i f v).part q).chains = (s.part q).chains :=
  State.part_chains_setBank ..
@[simp] theorem State.part_chainWrites_setReg (s : State) (i : PageId) (f : Fld) (v : Nat) (q : PartId) : ((s.setReg i f v).part q).chainWrites = (s.part q).chainWrites :=
  State.part_chainWrites_setBank ..
@[simp] theorem State.part_chainWrites_count (s : State) (i : PageId) (f : Fld) (v : Nat) (q : PartId) : ((s.count i f v).part q).chainWrites = (s.part q).chainWrites :=
  State.part_chainWrites_setBank ..
@[simp] theorem State.part_chainWrites_setFlag (s : State) (i : PageId) (f : Fld) (v : Nat) (q : PartId) : ((s.setFlag i f v).part q).chainWrites = (s.part q).chainWrites :=
  State.part_chainWrites_setBank ..
@[simp] theorem State.part_heads_setReg (s : State) (i : PageId) (f : Fld) (v : Nat) (q : PartId) : ((s.setReg i f v).part q).heads = (s.part q).heads :=
  State.part_heads_setBank ..
@[simp] theorem State.part_heads_count (s : State) (i : PageId) (f : Fld) (v : Nat) (q : PartId) : ((s.count i f v).part q).heads = (s.part q).heads :=
  State.part_heads_setBank ..
@[simp] theorem State.part_heads_setFlag (s : State) (i : PageId) (f : Fld) (v : Nat) (q : PartId) : ((s.setFlag i f v).part q).heads = (s.part q).heads :=
  State.part_heads_setBank ..
@[simp] theorem State.part_lastQueue_setReg (s : State) (i : PageId) (f : Fld) (v : Nat) (q : PartId) : ((s.setReg i f v).part q).lastQueue = (s.part q).lastQueue :=
  State.part_lastQueue_setBank ..
@[simp] theorem State.part_lastQueue_count (s : State) (i : PageId) (f : Fld) (v : Nat) (q : PartId) : ((s.count i f v).part q).lastQueue = (s.part q).lastQueue :=
  State.part_lastQueue_setBank ..
@[simp] theorem State.part_lastQueue_setFlag (s : State) (i : PageId) (f : Fld) (v : Nat) (q : PartId) : ((s.setFlag i f v).part q).lastQueue = (s.part q).lastQueue :=
  State.part_lastQueue_setBank ..
@[simp] theorem State.part_nextJob_setReg (s : State) (i : PageId) (f : Fld) (v : Nat) (q : PartId) : ((s.setReg i f v).part q).nextJob = (s.part q).nextJob :=
  State.part_nextJob_setBank ..
@[simp] theorem State.part_nextJob_count (s : State) (i : PageId) (f : Fld) (v : Nat) (q : PartId) : ((s.count i f v).part q).nextJob = (s.part q).nextJob :=
  State.part_nextJob_setBank ..
@[simp] theorem State.part_nextJob_setFlag (s : State) (i : PageId) (f : Fld) (v : Nat) (q : PartId) : ((s.setFlag i f v).part q).nextJob = (s.part q).nextJob :=
  State.part_nextJob_setBank ..
@[simp] theorem State.part_fw_setReg (s : State) (i : PageId) (f : Fld) (v : Nat) (q : PartId) : ((s.setReg i f v).part q).fw = (s.part q).fw :=
  State.part_fw_setBank ..
@[simp] theorem State.part_fw_count (s : State) (i : PageId) (f : Fld) (v : Nat) (q : PartId) : ((s.count i f v).part q).fw = (s.part q).fw :=
  State.part_fw_setBank ..
@[simp] theorem State.part_fw_setFlag (s : State) (i : PageId) (f : Fld) (v : Nat) (q : PartId) : ((s.setFlag i f v).part q).fw = (s.part q).fw :=
  State.part_fw_setBank ..
@[simp] theorem State.part_replies_setReg (s : State) (i : PageId) (f : Fld) (v : Nat) (q : PartId) : ((s.setReg i f v).part q).replies = (s.part q).replies :=
  State.part_replies_setBank ..
@[simp] theorem State.part_replies_count (s : State) (i : PageId) (f : Fld) (v : Nat) (q : PartId) : ((s.count i f v).part q).replies = (s.part q).replies :=
  State.part_replies_setBank ..
@[simp] theorem State.part_replies_setFlag (s : State) (i : PageId) (f : Fld) (v : Nat) (q : PartId) : ((s.setFlag i f v).part q).replies = (s.part q).replies :=
  State.part_replies_setBank ..
@[simp] theorem State.part_events_setReg (s : State) (i : PageId) (f : Fld) (v : Nat) (q : PartId) : ((s.setReg i f v).part q).events = (s.part q).events :=
  State.part_events_setBank ..
@[simp] theorem State.part_events_count (s : State) (i : PageId) (f : Fld) (v : Nat) (q : PartId) : ((s.count i f v).part q).events = (s.part q).events :=
  State.part_events_setBank ..
@[simp] theorem State.part_events_setFlag (s : State) (i : PageId) (f : Fld) (v : Nat) (q : PartId) : ((s.setFlag i f v).part q).events = (s.part q).events :=
  State.part_events_setBank ..
@[simp] theorem State.part_journal_setReg (s : State) (i : PageId) (f : Fld) (v : Nat) (q : PartId) : ((s.setReg i f v).part q).journal = (s.part q).journal :=
  State.part_journal_setBank ..
@[simp] theorem State.part_journal_count (s : State) (i : PageId) (f : Fld) (v : Nat) (q : PartId) : ((s.count i f v).part q).journal = (s.part q).journal :=
  State.part_journal_setBank ..
@[simp] theorem State.part_journal_setFlag (s : State) (i : PageId) (f : Fld) (v : Nat) (q : PartId) : ((s.setFlag i f v).part q).journal = (s.part q).journal :=
  State.part_journal_setBank ..
@[simp] theorem State.part_rst_setReg (s : State) (i : PageId) (f : Fld) (v : Nat) (q : PartId) : ((s.setReg i f v).part q).rst = (s.part q).rst :=
  State.part_rst_setBank ..
@[simp] theorem State.part_rst_count (s : State) (i : PageId) (f : Fld) (v : Nat) (q : PartId) : ((s.count i f v).part q).rst = (s.part q).rst :=
  State.part_rst_setBank ..
@[simp] theorem State.part_rst_setFlag (s : State) (i : PageId) (f : Fld) (v : Nat) (q : PartId) : ((s.setFlag i f v).part q).rst = (s.part q).rst :=
  State.part_rst_setBank ..
@[simp] theorem State.part_suspects_setReg (s : State) (i : PageId) (f : Fld) (v : Nat) (q : PartId) : ((s.setReg i f v).part q).suspects = (s.part q).suspects :=
  State.part_suspects_setBank ..
@[simp] theorem State.part_suspects_count (s : State) (i : PageId) (f : Fld) (v : Nat) (q : PartId) : ((s.count i f v).part q).suspects = (s.part q).suspects :=
  State.part_suspects_setBank ..
@[simp] theorem State.part_suspects_setFlag (s : State) (i : PageId) (f : Fld) (v : Nat) (q : PartId) : ((s.setFlag i f v).part q).suspects = (s.part q).suspects :=
  State.part_suspects_setBank ..
@[simp] theorem State.part_replaying_setReg (s : State) (i : PageId) (f : Fld) (v : Nat) (q : PartId) : ((s.setReg i f v).part q).replaying = (s.part q).replaying :=
  State.part_replaying_setBank ..
@[simp] theorem State.part_replaying_count (s : State) (i : PageId) (f : Fld) (v : Nat) (q : PartId) : ((s.count i f v).part q).replaying = (s.part q).replaying :=
  State.part_replaying_setBank ..
@[simp] theorem State.part_replaying_setFlag (s : State) (i : PageId) (f : Fld) (v : Nat) (q : PartId) : ((s.setFlag i f v).part q).replaying = (s.part q).replaying :=
  State.part_replaying_setBank ..
@[simp] theorem State.part_xfer_setReg (s : State) (i : PageId) (f : Fld) (v : Nat) (q : PartId) : ((s.setReg i f v).part q).xfer = (s.part q).xfer :=
  State.part_xfer_setBank ..
@[simp] theorem State.part_xfer_count (s : State) (i : PageId) (f : Fld) (v : Nat) (q : PartId) : ((s.count i f v).part q).xfer = (s.part q).xfer :=
  State.part_xfer_setBank ..
@[simp] theorem State.part_xfer_setFlag (s : State) (i : PageId) (f : Fld) (v : Nat) (q : PartId) : ((s.setFlag i f v).part q).xfer = (s.part q).xfer :=
  State.part_xfer_setBank ..
@[simp] theorem State.part_nextRid_setReg (s : State) (i : PageId) (f : Fld) (v : Nat) (q : PartId) : ((s.setReg i f v).part q).nextRid = (s.part q).nextRid :=
  State.part_nextRid_setBank ..
@[simp] theorem State.part_nextRid_count (s : State) (i : PageId) (f : Fld) (v : Nat) (q : PartId) : ((s.count i f v).part q).nextRid = (s.part q).nextRid :=
  State.part_nextRid_setBank ..
@[simp] theorem State.part_nextRid_setFlag (s : State) (i : PageId) (f : Fld) (v : Nat) (q : PartId) : ((s.setFlag i f v).part q).nextRid = (s.part q).nextRid :=
  State.part_nextRid_setBank ..
@[simp] theorem State.part_grace_setReg (s : State) (i : PageId) (f : Fld) (v : Nat) (q : PartId) : ((s.setReg i f v).part q).grace = (s.part q).grace :=
  State.part_grace_setBank ..
@[simp] theorem State.part_grace_count (s : State) (i : PageId) (f : Fld) (v : Nat) (q : PartId) : ((s.count i f v).part q).grace = (s.part q).grace :=
  State.part_grace_setBank ..
@[simp] theorem State.part_grace_setFlag (s : State) (i : PageId) (f : Fld) (v : Nat) (q : PartId) : ((s.setFlag i f v).part q).grace = (s.part q).grace :=
  State.part_grace_setBank ..
@[simp] theorem State.part_levelBnd_setReg (s : State) (i : PageId) (f : Fld) (v : Nat) (q : PartId) : ((s.setReg i f v).part q).levelBnd = (s.part q).levelBnd :=
  State.part_levelBnd_setBank ..
@[simp] theorem State.part_levelBnd_count (s : State) (i : PageId) (f : Fld) (v : Nat) (q : PartId) : ((s.count i f v).part q).levelBnd = (s.part q).levelBnd :=
  State.part_levelBnd_setBank ..
@[simp] theorem State.part_levelBnd_setFlag (s : State) (i : PageId) (f : Fld) (v : Nat) (q : PartId) : ((s.setFlag i f v).part q).levelBnd = (s.part q).levelBnd :=
  State.part_levelBnd_setBank ..
@[simp] theorem State.part_only2_setReg (s : State) (i : PageId) (f : Fld) (v : Nat) (q : PartId) : ((s.setReg i f v).part q).only2 = (s.part q).only2 :=
  State.part_only2_setBank ..
@[simp] theorem State.part_only2_count (s : State) (i : PageId) (f : Fld) (v : Nat) (q : PartId) : ((s.count i f v).part q).only2 = (s.part q).only2 :=
  State.part_only2_setBank ..
@[simp] theorem State.part_only2_setFlag (s : State) (i : PageId) (f : Fld) (v : Nat) (q : PartId) : ((s.setFlag i f v).part q).only2 = (s.part q).only2 :=
  State.part_only2_setBank ..
@[simp] theorem State.part_actHold_setReg (s : State) (i : PageId) (f : Fld) (v : Nat) (q : PartId) : ((s.setReg i f v).part q).actHold = (s.part q).actHold :=
  State.part_actHold_setBank ..
@[simp] theorem State.part_bndAct_setReg (s : State) (i : PageId) (f : Fld) (v : Nat) (q : PartId) : ((s.setReg i f v).part q).bndAct = (s.part q).bndAct :=
  State.part_bndAct_setBank ..
@[simp] theorem State.part_actHold_count (s : State) (i : PageId) (f : Fld) (v : Nat) (q : PartId) : ((s.count i f v).part q).actHold = (s.part q).actHold :=
  State.part_actHold_setBank ..
@[simp] theorem State.part_bndAct_count (s : State) (i : PageId) (f : Fld) (v : Nat) (q : PartId) : ((s.count i f v).part q).bndAct = (s.part q).bndAct :=
  State.part_bndAct_setBank ..
@[simp] theorem State.part_actHold_setFlag (s : State) (i : PageId) (f : Fld) (v : Nat) (q : PartId) : ((s.setFlag i f v).part q).actHold = (s.part q).actHold :=
  State.part_actHold_setBank ..
@[simp] theorem State.part_bndAct_setFlag (s : State) (i : PageId) (f : Fld) (v : Nat) (q : PartId) : ((s.setFlag i f v).part q).bndAct = (s.part q).bndAct :=
  State.part_bndAct_setBank ..
@[simp] theorem State.part_switchWait_setReg (s : State) (i : PageId) (f : Fld) (v : Nat) (q : PartId) : ((s.setReg i f v).part q).switchWait = (s.part q).switchWait :=
  State.part_switchWait_setBank ..
@[simp] theorem State.part_switchWait_count (s : State) (i : PageId) (f : Fld) (v : Nat) (q : PartId) : ((s.count i f v).part q).switchWait = (s.part q).switchWait :=
  State.part_switchWait_setBank ..
@[simp] theorem State.part_switchWait_setFlag (s : State) (i : PageId) (f : Fld) (v : Nat) (q : PartId) : ((s.setFlag i f v).part q).switchWait = (s.part q).switchWait :=
  State.part_switchWait_setBank ..
@[simp] theorem State.part_gateErr_setReg (s : State) (i : PageId) (f : Fld) (v : Nat) (q : PartId) : ((s.setReg i f v).part q).gateErr = (s.part q).gateErr :=
  State.part_gateErr_setBank ..
@[simp] theorem State.part_gateErr_count (s : State) (i : PageId) (f : Fld) (v : Nat) (q : PartId) : ((s.count i f v).part q).gateErr = (s.part q).gateErr :=
  State.part_gateErr_setBank ..
@[simp] theorem State.part_gateErr_setFlag (s : State) (i : PageId) (f : Fld) (v : Nat) (q : PartId) : ((s.setFlag i f v).part q).gateErr = (s.part q).gateErr :=
  State.part_gateErr_setBank ..
@[simp] theorem State.part_fenceOf_setReg (s : State) (i : PageId) (f : Fld) (v : Nat) (q : PartId) : ((s.setReg i f v).part q).fenceOf = (s.part q).fenceOf :=
  State.part_fenceOf_setBank ..
@[simp] theorem State.part_fenceOf_count (s : State) (i : PageId) (f : Fld) (v : Nat) (q : PartId) : ((s.count i f v).part q).fenceOf = (s.part q).fenceOf :=
  State.part_fenceOf_setBank ..
@[simp] theorem State.part_fenceOf_setFlag (s : State) (i : PageId) (f : Fld) (v : Nat) (q : PartId) : ((s.setFlag i f v).part q).fenceOf = (s.part q).fenceOf :=
  State.part_fenceOf_setBank ..
@[simp] theorem State.ctl_mem_setReg (s : State) (i : PageId) (f : Fld) (v : Nat) (q : PartId) (d : Fin 2) : (((s.setReg i f v).part q).ctl d).mem = ((s.part q).ctl d).mem :=
  State.ctl_mem_setBank ..
@[simp] theorem State.ctl_mem_count (s : State) (i : PageId) (f : Fld) (v : Nat) (q : PartId) (d : Fin 2) : (((s.count i f v).part q).ctl d).mem = ((s.part q).ctl d).mem :=
  State.ctl_mem_setBank ..
@[simp] theorem State.ctl_mem_setFlag (s : State) (i : PageId) (f : Fld) (v : Nat) (q : PartId) (d : Fin 2) : (((s.setFlag i f v).part q).ctl d).mem = ((s.part q).ctl d).mem :=
  State.ctl_mem_setBank ..
@[simp] theorem State.ctl_cache_setReg (s : State) (i : PageId) (f : Fld) (v : Nat) (q : PartId) (d : Fin 2) : (((s.setReg i f v).part q).ctl d).cache = ((s.part q).ctl d).cache :=
  State.ctl_cache_setBank ..
@[simp] theorem State.ctl_cache_count (s : State) (i : PageId) (f : Fld) (v : Nat) (q : PartId) (d : Fin 2) : (((s.count i f v).part q).ctl d).cache = ((s.part q).ctl d).cache :=
  State.ctl_cache_setBank ..
@[simp] theorem State.ctl_cache_setFlag (s : State) (i : PageId) (f : Fld) (v : Nat) (q : PartId) (d : Fin 2) : (((s.setFlag i f v).part q).ctl d).cache = ((s.part q).ctl d).cache :=
  State.ctl_cache_setBank ..
@[simp] theorem State.ctl_merge_setReg (s : State) (i : PageId) (f : Fld) (v : Nat) (q : PartId) (d : Fin 2) : (((s.setReg i f v).part q).ctl d).merge = ((s.part q).ctl d).merge :=
  State.ctl_merge_setBank ..
@[simp] theorem State.ctl_merge_count (s : State) (i : PageId) (f : Fld) (v : Nat) (q : PartId) (d : Fin 2) : (((s.count i f v).part q).ctl d).merge = ((s.part q).ctl d).merge :=
  State.ctl_merge_setBank ..
@[simp] theorem State.ctl_merge_setFlag (s : State) (i : PageId) (f : Fld) (v : Nat) (q : PartId) (d : Fin 2) : (((s.setFlag i f v).part q).ctl d).merge = ((s.part q).ctl d).merge :=
  State.ctl_merge_setBank ..
@[simp] theorem State.ctl_fixups_setReg (s : State) (i : PageId) (f : Fld) (v : Nat) (q : PartId) (d : Fin 2) : (((s.setReg i f v).part q).ctl d).fixups = ((s.part q).ctl d).fixups :=
  State.ctl_fixups_setBank ..
@[simp] theorem State.ctl_fixups_count (s : State) (i : PageId) (f : Fld) (v : Nat) (q : PartId) (d : Fin 2) : (((s.count i f v).part q).ctl d).fixups = ((s.part q).ctl d).fixups :=
  State.ctl_fixups_setBank ..
@[simp] theorem State.ctl_fixups_setFlag (s : State) (i : PageId) (f : Fld) (v : Nat) (q : PartId) (d : Fin 2) : (((s.setFlag i f v).part q).ctl d).fixups = ((s.part q).ctl d).fixups :=
  State.ctl_fixups_setBank ..
@[simp] theorem State.port_keyCur_setReg (s : State) (i : PageId) (f : Fld) (v : Nat) (m : PortId) : ((s.setReg i f v).port m).keyCur = (s.port m).keyCur :=
  State.port_keyCur_setBank ..
@[simp] theorem State.port_keyCur_count (s : State) (i : PageId) (f : Fld) (v : Nat) (m : PortId) : ((s.count i f v).port m).keyCur = (s.port m).keyCur :=
  State.port_keyCur_setBank ..
@[simp] theorem State.port_keyCur_setFlag (s : State) (i : PageId) (f : Fld) (v : Nat) (m : PortId) : ((s.setFlag i f v).port m).keyCur = (s.port m).keyCur :=
  State.port_keyCur_setBank ..
@[simp] theorem State.port_keyNext_setReg (s : State) (i : PageId) (f : Fld) (v : Nat) (m : PortId) : ((s.setReg i f v).port m).keyNext = (s.port m).keyNext :=
  State.port_keyNext_setBank ..
@[simp] theorem State.port_keyNext_count (s : State) (i : PageId) (f : Fld) (v : Nat) (m : PortId) : ((s.count i f v).port m).keyNext = (s.port m).keyNext :=
  State.port_keyNext_setBank ..
@[simp] theorem State.port_keyNext_setFlag (s : State) (i : PageId) (f : Fld) (v : Nat) (m : PortId) : ((s.setFlag i f v).port m).keyNext = (s.port m).keyNext :=
  State.port_keyNext_setBank ..
@[simp] theorem State.port_sealed_setReg (s : State) (i : PageId) (f : Fld) (v : Nat) (m : PortId) : ((s.setReg i f v).port m).sealed = (s.port m).sealed :=
  State.port_sealed_setBank ..
@[simp] theorem State.port_sealed_count (s : State) (i : PageId) (f : Fld) (v : Nat) (m : PortId) : ((s.count i f v).port m).sealed = (s.port m).sealed :=
  State.port_sealed_setBank ..
@[simp] theorem State.port_sealed_setFlag (s : State) (i : PageId) (f : Fld) (v : Nat) (m : PortId) : ((s.setFlag i f v).port m).sealed = (s.port m).sealed :=
  State.port_sealed_setBank ..
@[simp] theorem State.port_sealedNext_setReg (s : State) (i : PageId) (f : Fld) (v : Nat) (m : PortId) : ((s.setReg i f v).port m).sealedNext = (s.port m).sealedNext :=
  State.port_sealedNext_setBank ..
@[simp] theorem State.port_sealedNext_count (s : State) (i : PageId) (f : Fld) (v : Nat) (m : PortId) : ((s.count i f v).port m).sealedNext = (s.port m).sealedNext :=
  State.port_sealedNext_setBank ..
@[simp] theorem State.port_sealedNext_setFlag (s : State) (i : PageId) (f : Fld) (v : Nat) (m : PortId) : ((s.setFlag i f v).port m).sealedNext = (s.port m).sealedNext :=
  State.port_sealedNext_setBank ..
@[simp] theorem State.port_slot_setReg (s : State) (i : PageId) (f : Fld) (v : Nat) (m : PortId) : ((s.setReg i f v).port m).slot = (s.port m).slot :=
  State.port_slot_setBank ..
@[simp] theorem State.port_slot_count (s : State) (i : PageId) (f : Fld) (v : Nat) (m : PortId) : ((s.count i f v).port m).slot = (s.port m).slot :=
  State.port_slot_setBank ..
@[simp] theorem State.port_slot_setFlag (s : State) (i : PageId) (f : Fld) (v : Nat) (m : PortId) : ((s.setFlag i f v).port m).slot = (s.port m).slot :=
  State.port_slot_setBank ..
@[simp] theorem State.port_tx_setReg (s : State) (i : PageId) (f : Fld) (v : Nat) (m : PortId) : ((s.setReg i f v).port m).tx = (s.port m).tx :=
  State.port_tx_setBank ..
@[simp] theorem State.port_tx_count (s : State) (i : PageId) (f : Fld) (v : Nat) (m : PortId) : ((s.count i f v).port m).tx = (s.port m).tx :=
  State.port_tx_setBank ..
@[simp] theorem State.port_tx_setFlag (s : State) (i : PageId) (f : Fld) (v : Nat) (m : PortId) : ((s.setFlag i f v).port m).tx = (s.port m).tx :=
  State.port_tx_setBank ..
@[simp] theorem State.port_held_setReg (s : State) (i : PageId) (f : Fld) (v : Nat) (m : PortId) : ((s.setReg i f v).port m).held = (s.port m).held :=
  State.port_held_setBank ..
@[simp] theorem State.port_held_count (s : State) (i : PageId) (f : Fld) (v : Nat) (m : PortId) : ((s.count i f v).port m).held = (s.port m).held :=
  State.port_held_setBank ..
@[simp] theorem State.port_held_setFlag (s : State) (i : PageId) (f : Fld) (v : Nat) (m : PortId) : ((s.setFlag i f v).port m).held = (s.port m).held :=
  State.port_held_setBank ..
@[simp] theorem State.port_out_setReg (s : State) (i : PageId) (f : Fld) (v : Nat) (m : PortId) : ((s.setReg i f v).port m).out = (s.port m).out :=
  State.port_out_setBank ..
@[simp] theorem State.port_out_count (s : State) (i : PageId) (f : Fld) (v : Nat) (m : PortId) : ((s.count i f v).port m).out = (s.port m).out :=
  State.port_out_setBank ..
@[simp] theorem State.port_out_setFlag (s : State) (i : PageId) (f : Fld) (v : Nat) (m : PortId) : ((s.setFlag i f v).port m).out = (s.port m).out :=
  State.port_out_setBank ..
@[simp] theorem State.port_heard_setReg (s : State) (i : PageId) (f : Fld) (v : Nat) (m : PortId) : ((s.setReg i f v).port m).heard = (s.port m).heard :=
  State.port_heard_setBank ..
@[simp] theorem State.port_heard_count (s : State) (i : PageId) (f : Fld) (v : Nat) (m : PortId) : ((s.count i f v).port m).heard = (s.port m).heard :=
  State.port_heard_setBank ..
@[simp] theorem State.port_heard_setFlag (s : State) (i : PageId) (f : Fld) (v : Nat) (m : PortId) : ((s.setFlag i f v).port m).heard = (s.port m).heard :=
  State.port_heard_setBank ..
@[simp] theorem State.port_downLaps_setReg (s : State) (i : PageId) (f : Fld) (v : Nat) (m : PortId) : ((s.setReg i f v).port m).downLaps = (s.port m).downLaps :=
  State.port_downLaps_setBank ..
@[simp] theorem State.port_downLaps_count (s : State) (i : PageId) (f : Fld) (v : Nat) (m : PortId) : ((s.count i f v).port m).downLaps = (s.port m).downLaps :=
  State.port_downLaps_setBank ..
@[simp] theorem State.port_downLaps_setFlag (s : State) (i : PageId) (f : Fld) (v : Nat) (m : PortId) : ((s.setFlag i f v).port m).downLaps = (s.port m).downLaps :=
  State.port_downLaps_setBank ..
@[simp] theorem State.port_echoBad_setReg (s : State) (i : PageId) (f : Fld) (v : Nat) (m : PortId) : ((s.setReg i f v).port m).echoBad = (s.port m).echoBad :=
  State.port_echoBad_setBank ..
@[simp] theorem State.port_echoBad_count (s : State) (i : PageId) (f : Fld) (v : Nat) (m : PortId) : ((s.count i f v).port m).echoBad = (s.port m).echoBad :=
  State.port_echoBad_setBank ..
@[simp] theorem State.port_echoBad_setFlag (s : State) (i : PageId) (f : Fld) (v : Nat) (m : PortId) : ((s.setFlag i f v).port m).echoBad = (s.port m).echoBad :=
  State.port_echoBad_setBank ..
@[simp] theorem State.port_badLaps_setReg (s : State) (i : PageId) (f : Fld) (v : Nat) (m : PortId) : ((s.setReg i f v).port m).badLaps = (s.port m).badLaps :=
  State.port_badLaps_setBank ..
@[simp] theorem State.port_badLaps_count (s : State) (i : PageId) (f : Fld) (v : Nat) (m : PortId) : ((s.count i f v).port m).badLaps = (s.port m).badLaps :=
  State.port_badLaps_setBank ..
@[simp] theorem State.port_badLaps_setFlag (s : State) (i : PageId) (f : Fld) (v : Nat) (m : PortId) : ((s.setFlag i f v).port m).badLaps = (s.port m).badLaps :=
  State.port_badLaps_setBank ..
@[simp] theorem State.port_dark_setReg (s : State) (i : PageId) (f : Fld) (v : Nat) (m : PortId) : ((s.setReg i f v).port m).dark = (s.port m).dark :=
  State.port_dark_setBank ..
@[simp] theorem State.port_dark_count (s : State) (i : PageId) (f : Fld) (v : Nat) (m : PortId) : ((s.count i f v).port m).dark = (s.port m).dark :=
  State.port_dark_setBank ..
@[simp] theorem State.port_dark_setFlag (s : State) (i : PageId) (f : Fld) (v : Nat) (m : PortId) : ((s.setFlag i f v).port m).dark = (s.port m).dark :=
  State.port_dark_setBank ..
@[simp] theorem State.port_slotBad_setReg (s : State) (i : PageId) (f : Fld) (v : Nat) (m : PortId) : ((s.setReg i f v).port m).slotBad = (s.port m).slotBad :=
  State.port_slotBad_setBank ..
@[simp] theorem State.port_slotBad_count (s : State) (i : PageId) (f : Fld) (v : Nat) (m : PortId) : ((s.count i f v).port m).slotBad = (s.port m).slotBad :=
  State.port_slotBad_setBank ..
@[simp] theorem State.port_slotBad_setFlag (s : State) (i : PageId) (f : Fld) (v : Nat) (m : PortId) : ((s.setFlag i f v).port m).slotBad = (s.port m).slotBad :=
  State.port_slotBad_setBank ..
@[simp] theorem State.port_alarmLaps_setReg (s : State) (i : PageId) (f : Fld) (v : Nat) (m : PortId) : ((s.setReg i f v).port m).alarmLaps = (s.port m).alarmLaps :=
  State.port_alarmLaps_setBank ..
@[simp] theorem State.port_alarmLaps_count (s : State) (i : PageId) (f : Fld) (v : Nat) (m : PortId) : ((s.count i f v).port m).alarmLaps = (s.port m).alarmLaps :=
  State.port_alarmLaps_setBank ..
@[simp] theorem State.port_alarmLaps_setFlag (s : State) (i : PageId) (f : Fld) (v : Nat) (m : PortId) : ((s.setFlag i f v).port m).alarmLaps = (s.port m).alarmLaps :=
  State.port_alarmLaps_setBank ..
@[simp] theorem State.port_collisions_setReg (s : State) (i : PageId) (f : Fld) (v : Nat) (m : PortId) : ((s.setReg i f v).port m).collisions = (s.port m).collisions :=
  State.port_collisions_setBank ..
@[simp] theorem State.port_collisions_count (s : State) (i : PageId) (f : Fld) (v : Nat) (m : PortId) : ((s.count i f v).port m).collisions = (s.port m).collisions :=
  State.port_collisions_setBank ..
@[simp] theorem State.port_collisions_setFlag (s : State) (i : PageId) (f : Fld) (v : Nat) (m : PortId) : ((s.setFlag i f v).port m).collisions = (s.port m).collisions :=
  State.port_collisions_setBank ..
@[simp] theorem State.port_backoff_setReg (s : State) (i : PageId) (f : Fld) (v : Nat) (m : PortId) : ((s.setReg i f v).port m).backoff = (s.port m).backoff :=
  State.port_backoff_setBank ..
@[simp] theorem State.port_backoff_count (s : State) (i : PageId) (f : Fld) (v : Nat) (m : PortId) : ((s.count i f v).port m).backoff = (s.port m).backoff :=
  State.port_backoff_setBank ..
@[simp] theorem State.port_backoff_setFlag (s : State) (i : PageId) (f : Fld) (v : Nat) (m : PortId) : ((s.setFlag i f v).port m).backoff = (s.port m).backoff :=
  State.port_backoff_setBank ..
@[simp] theorem State.port_contended_setReg (s : State) (i : PageId) (f : Fld) (v : Nat) (m : PortId) : ((s.setReg i f v).port m).contended = (s.port m).contended :=
  State.port_contended_setBank ..
@[simp] theorem State.port_contended_count (s : State) (i : PageId) (f : Fld) (v : Nat) (m : PortId) : ((s.count i f v).port m).contended = (s.port m).contended :=
  State.port_contended_setBank ..
@[simp] theorem State.port_contended_setFlag (s : State) (i : PageId) (f : Fld) (v : Nat) (m : PortId) : ((s.setFlag i f v).port m).contended = (s.port m).contended :=
  State.port_contended_setBank ..
@[simp] theorem State.port_newMap_setReg (s : State) (i : PageId) (f : Fld) (v : Nat) (m : PortId) : ((s.setReg i f v).port m).newMap = (s.port m).newMap :=
  State.port_newMap_setBank ..
@[simp] theorem State.port_newMap_count (s : State) (i : PageId) (f : Fld) (v : Nat) (m : PortId) : ((s.count i f v).port m).newMap = (s.port m).newMap :=
  State.port_newMap_setBank ..
@[simp] theorem State.port_newMap_setFlag (s : State) (i : PageId) (f : Fld) (v : Nat) (m : PortId) : ((s.setFlag i f v).port m).newMap = (s.port m).newMap :=
  State.port_newMap_setBank ..
@[simp] theorem State.port_muted_setReg (s : State) (i : PageId) (f : Fld) (v : Nat) (m : PortId) : ((s.setReg i f v).port m).muted = (s.port m).muted :=
  State.port_muted_setBank ..
@[simp] theorem State.port_muted_count (s : State) (i : PageId) (f : Fld) (v : Nat) (m : PortId) : ((s.count i f v).port m).muted = (s.port m).muted :=
  State.port_muted_setBank ..
@[simp] theorem State.port_muted_setFlag (s : State) (i : PageId) (f : Fld) (v : Nat) (m : PortId) : ((s.setFlag i f v).port m).muted = (s.port m).muted :=
  State.port_muted_setBank ..
@[simp] theorem State.port_joinAcks_setReg (s : State) (i : PageId) (f : Fld) (v : Nat) (m : PortId) : ((s.setReg i f v).port m).joinAcks = (s.port m).joinAcks :=
  State.port_joinAcks_setBank ..
@[simp] theorem State.port_joinAcks_count (s : State) (i : PageId) (f : Fld) (v : Nat) (m : PortId) : ((s.count i f v).port m).joinAcks = (s.port m).joinAcks :=
  State.port_joinAcks_setBank ..
@[simp] theorem State.port_joinAcks_setFlag (s : State) (i : PageId) (f : Fld) (v : Nat) (m : PortId) : ((s.setFlag i f v).port m).joinAcks = (s.port m).joinAcks :=
  State.port_joinAcks_setBank ..
@[simp] theorem State.port_joinAcked_setReg (s : State) (i : PageId) (f : Fld) (v : Nat) (m : PortId) : ((s.setReg i f v).port m).joinAcked = (s.port m).joinAcked :=
  State.port_joinAcked_setBank ..
@[simp] theorem State.port_joinAcked_count (s : State) (i : PageId) (f : Fld) (v : Nat) (m : PortId) : ((s.count i f v).port m).joinAcked = (s.port m).joinAcked :=
  State.port_joinAcked_setBank ..
@[simp] theorem State.port_joinAcked_setFlag (s : State) (i : PageId) (f : Fld) (v : Nat) (m : PortId) : ((s.setFlag i f v).port m).joinAcked = (s.port m).joinAcked :=
  State.port_joinAcked_setBank ..
@[simp] theorem State.port_depochUsed_setReg (s : State) (i : PageId) (f : Fld) (v : Nat) (m : PortId) : ((s.setReg i f v).port m).depochUsed = (s.port m).depochUsed :=
  State.port_depochUsed_setBank ..
@[simp] theorem State.port_depochUsed_count (s : State) (i : PageId) (f : Fld) (v : Nat) (m : PortId) : ((s.count i f v).port m).depochUsed = (s.port m).depochUsed :=
  State.port_depochUsed_setBank ..
@[simp] theorem State.port_depochUsed_setFlag (s : State) (i : PageId) (f : Fld) (v : Nat) (m : PortId) : ((s.setFlag i f v).port m).depochUsed = (s.port m).depochUsed :=
  State.port_depochUsed_setBank ..
@[simp] theorem State.port_leaveSlots_setReg (s : State) (i : PageId) (f : Fld) (v : Nat) (m : PortId) : ((s.setReg i f v).port m).leaveSlots = (s.port m).leaveSlots :=
  State.port_leaveSlots_setBank ..
@[simp] theorem State.port_leaveSlots_count (s : State) (i : PageId) (f : Fld) (v : Nat) (m : PortId) : ((s.count i f v).port m).leaveSlots = (s.port m).leaveSlots :=
  State.port_leaveSlots_setBank ..
@[simp] theorem State.port_leaveSlots_setFlag (s : State) (i : PageId) (f : Fld) (v : Nat) (m : PortId) : ((s.setFlag i f v).port m).leaveSlots = (s.port m).leaveSlots :=
  State.port_leaveSlots_setBank ..
@[simp] theorem State.port_epochsEnded_setReg (s : State) (i : PageId) (f : Fld) (v : Nat) (m : PortId) : ((s.setReg i f v).port m).epochsEnded = (s.port m).epochsEnded :=
  State.port_epochsEnded_setBank ..
@[simp] theorem State.port_epochsEnded_count (s : State) (i : PageId) (f : Fld) (v : Nat) (m : PortId) : ((s.count i f v).port m).epochsEnded = (s.port m).epochsEnded :=
  State.port_epochsEnded_setBank ..
@[simp] theorem State.port_epochsEnded_setFlag (s : State) (i : PageId) (f : Fld) (v : Nat) (m : PortId) : ((s.setFlag i f v).port m).epochsEnded = (s.port m).epochsEnded :=
  State.port_epochsEnded_setBank ..
@[simp] theorem State.port_peerState_setReg (s : State) (i : PageId) (f : Fld) (v : Nat) (m : PortId) : ((s.setReg i f v).port m).peerState = (s.port m).peerState :=
  State.port_peerState_setBank ..
@[simp] theorem State.port_peerState_count (s : State) (i : PageId) (f : Fld) (v : Nat) (m : PortId) : ((s.count i f v).port m).peerState = (s.port m).peerState :=
  State.port_peerState_setBank ..
@[simp] theorem State.port_peerState_setFlag (s : State) (i : PageId) (f : Fld) (v : Nat) (m : PortId) : ((s.setFlag i f v).port m).peerState = (s.port m).peerState :=
  State.port_peerState_setBank ..
@[simp] theorem State.eng_ggates_setReg (s : State) (i : PageId) (f : Fld) (v : Nat) : (s.setReg i f v).eng.ggates = s.eng.ggates :=
  State.eng_ggates_setBank ..
@[simp] theorem State.eng_ggates_count (s : State) (i : PageId) (f : Fld) (v : Nat) : (s.count i f v).eng.ggates = s.eng.ggates :=
  State.eng_ggates_setBank ..
@[simp] theorem State.eng_ggates_setFlag (s : State) (i : PageId) (f : Fld) (v : Nat) : (s.setFlag i f v).eng.ggates = s.eng.ggates :=
  State.eng_ggates_setBank ..
@[simp] theorem State.eng_sys_setReg (s : State) (i : PageId) (f : Fld) (v : Nat) : (s.setReg i f v).eng.sys = s.eng.sys :=
  State.eng_sys_setBank ..
@[simp] theorem State.eng_sys_count (s : State) (i : PageId) (f : Fld) (v : Nat) : (s.count i f v).eng.sys = s.eng.sys :=
  State.eng_sys_setBank ..
@[simp] theorem State.eng_sys_setFlag (s : State) (i : PageId) (f : Fld) (v : Nat) : (s.setFlag i f v).eng.sys = s.eng.sys :=
  State.eng_sys_setBank ..
@[simp] theorem State.eng_arbLast_setReg (s : State) (i : PageId) (f : Fld) (v : Nat) : (s.setReg i f v).eng.arbLast = s.eng.arbLast :=
  State.eng_arbLast_setBank ..
@[simp] theorem State.eng_arbLast_count (s : State) (i : PageId) (f : Fld) (v : Nat) : (s.count i f v).eng.arbLast = s.eng.arbLast :=
  State.eng_arbLast_setBank ..
@[simp] theorem State.eng_arbLast_setFlag (s : State) (i : PageId) (f : Fld) (v : Nat) : (s.setFlag i f v).eng.arbLast = s.eng.arbLast :=
  State.eng_arbLast_setBank ..
@[simp] theorem State.eng_dump_setReg (s : State) (i : PageId) (f : Fld) (v : Nat) : (s.setReg i f v).eng.dump = s.eng.dump :=
  State.eng_dump_setBank ..
@[simp] theorem State.eng_dump_count (s : State) (i : PageId) (f : Fld) (v : Nat) : (s.count i f v).eng.dump = s.eng.dump :=
  State.eng_dump_setBank ..
@[simp] theorem State.eng_dump_setFlag (s : State) (i : PageId) (f : Fld) (v : Nat) : (s.setFlag i f v).eng.dump = s.eng.dump :=
  State.eng_dump_setBank ..
@[simp] theorem State.eng_gateSave_setReg (s : State) (i : PageId) (f : Fld) (v : Nat) : (s.setReg i f v).eng.gateSave = s.eng.gateSave :=
  State.eng_gateSave_setBank ..
@[simp] theorem State.eng_gateSave_count (s : State) (i : PageId) (f : Fld) (v : Nat) : (s.count i f v).eng.gateSave = s.eng.gateSave :=
  State.eng_gateSave_setBank ..
@[simp] theorem State.eng_gateSave_setFlag (s : State) (i : PageId) (f : Fld) (v : Nat) : (s.setFlag i f v).eng.gateSave = s.eng.gateSave :=
  State.eng_gateSave_setBank ..
@[simp] theorem State.eng_windows_setReg (s : State) (i : PageId) (f : Fld) (v : Nat) : (s.setReg i f v).eng.windows = s.eng.windows :=
  State.eng_windows_setBank ..
@[simp] theorem State.eng_windows_count (s : State) (i : PageId) (f : Fld) (v : Nat) : (s.count i f v).eng.windows = s.eng.windows :=
  State.eng_windows_setBank ..
@[simp] theorem State.eng_windows_setFlag (s : State) (i : PageId) (f : Fld) (v : Nat) : (s.setFlag i f v).eng.windows = s.eng.windows :=
  State.eng_windows_setBank ..
@[simp] theorem State.eng_faultLog_setReg (s : State) (i : PageId) (f : Fld) (v : Nat) : (s.setReg i f v).eng.faultLog = s.eng.faultLog :=
  State.eng_faultLog_setBank ..
@[simp] theorem State.eng_faultLog_count (s : State) (i : PageId) (f : Fld) (v : Nat) : (s.count i f v).eng.faultLog = s.eng.faultLog :=
  State.eng_faultLog_setBank ..
@[simp] theorem State.eng_faultLog_setFlag (s : State) (i : PageId) (f : Fld) (v : Nat) : (s.setFlag i f v).eng.faultLog = s.eng.faultLog :=
  State.eng_faultLog_setBank ..
@[simp] theorem State.eng_faulted_setReg (s : State) (i : PageId) (f : Fld) (v : Nat) : (s.setReg i f v).eng.faulted = s.eng.faulted :=
  State.eng_faulted_setBank ..
@[simp] theorem State.eng_faulted_count (s : State) (i : PageId) (f : Fld) (v : Nat) : (s.count i f v).eng.faulted = s.eng.faulted :=
  State.eng_faulted_setBank ..
@[simp] theorem State.eng_faulted_setFlag (s : State) (i : PageId) (f : Fld) (v : Nat) : (s.setFlag i f v).eng.faulted = s.eng.faulted :=
  State.eng_faulted_setBank ..
@[simp] theorem State.eng_models_setReg (s : State) (i : PageId) (f : Fld) (v : Nat) : (s.setReg i f v).eng.models = s.eng.models :=
  State.eng_models_setBank ..
@[simp] theorem State.eng_models_count (s : State) (i : PageId) (f : Fld) (v : Nat) : (s.count i f v).eng.models = s.eng.models :=
  State.eng_models_setBank ..
@[simp] theorem State.eng_models_setFlag (s : State) (i : PageId) (f : Fld) (v : Nat) : (s.setFlag i f v).eng.models = s.eng.models :=
  State.eng_models_setBank ..
@[simp] theorem State.eng_nextHandle_setReg (s : State) (i : PageId) (f : Fld) (v : Nat) : (s.setReg i f v).eng.nextHandle = s.eng.nextHandle :=
  State.eng_nextHandle_setBank ..
@[simp] theorem State.eng_nextHandle_count (s : State) (i : PageId) (f : Fld) (v : Nat) : (s.count i f v).eng.nextHandle = s.eng.nextHandle :=
  State.eng_nextHandle_setBank ..
@[simp] theorem State.eng_nextHandle_setFlag (s : State) (i : PageId) (f : Fld) (v : Nat) : (s.setFlag i f v).eng.nextHandle = s.eng.nextHandle :=
  State.eng_nextHandle_setBank ..
@[simp] theorem State.eng_otp_setReg (s : State) (i : PageId) (f : Fld) (v : Nat) : (s.setReg i f v).eng.otp = s.eng.otp :=
  State.eng_otp_setBank ..
@[simp] theorem State.eng_otp_count (s : State) (i : PageId) (f : Fld) (v : Nat) : (s.count i f v).eng.otp = s.eng.otp :=
  State.eng_otp_setBank ..
@[simp] theorem State.eng_otp_setFlag (s : State) (i : PageId) (f : Fld) (v : Nat) : (s.setFlag i f v).eng.otp = s.eng.otp :=
  State.eng_otp_setBank ..
@[simp] theorem State.eng_flash_setReg (s : State) (i : PageId) (f : Fld) (v : Nat) : (s.setReg i f v).eng.flash = s.eng.flash :=
  State.eng_flash_setBank ..
@[simp] theorem State.eng_flash_count (s : State) (i : PageId) (f : Fld) (v : Nat) : (s.count i f v).eng.flash = s.eng.flash :=
  State.eng_flash_setBank ..
@[simp] theorem State.eng_flash_setFlag (s : State) (i : PageId) (f : Fld) (v : Nat) : (s.setFlag i f v).eng.flash = s.eng.flash :=
  State.eng_flash_setBank ..
@[simp] theorem State.eng_loader_setReg (s : State) (i : PageId) (f : Fld) (v : Nat) : (s.setReg i f v).eng.loader = s.eng.loader :=
  State.eng_loader_setBank ..
@[simp] theorem State.eng_loader_count (s : State) (i : PageId) (f : Fld) (v : Nat) : (s.count i f v).eng.loader = s.eng.loader :=
  State.eng_loader_setBank ..
@[simp] theorem State.eng_loader_setFlag (s : State) (i : PageId) (f : Fld) (v : Nat) : (s.setFlag i f v).eng.loader = s.eng.loader :=
  State.eng_loader_setBank ..
@[simp] theorem State.eng_inReset_setReg (s : State) (i : PageId) (f : Fld) (v : Nat) : (s.setReg i f v).eng.inReset = s.eng.inReset :=
  State.eng_inReset_setBank ..
@[simp] theorem State.eng_inReset_count (s : State) (i : PageId) (f : Fld) (v : Nat) : (s.count i f v).eng.inReset = s.eng.inReset :=
  State.eng_inReset_setBank ..
@[simp] theorem State.eng_inReset_setFlag (s : State) (i : PageId) (f : Fld) (v : Nat) : (s.setFlag i f v).eng.inReset = s.eng.inReset :=
  State.eng_inReset_setBank ..
@[simp] theorem State.eng_bootWait_setReg (s : State) (i : PageId) (f : Fld) (v : Nat) : (s.setReg i f v).eng.bootWait = s.eng.bootWait :=
  State.eng_bootWait_setBank ..
@[simp] theorem State.eng_bootWait_count (s : State) (i : PageId) (f : Fld) (v : Nat) : (s.count i f v).eng.bootWait = s.eng.bootWait :=
  State.eng_bootWait_setBank ..
@[simp] theorem State.eng_bootWait_setFlag (s : State) (i : PageId) (f : Fld) (v : Nat) : (s.setFlag i f v).eng.bootWait = s.eng.bootWait :=
  State.eng_bootWait_setBank ..
@[simp] theorem State.eng_runSvn_setReg (s : State) (i : PageId) (f : Fld) (v : Nat) : (s.setReg i f v).eng.runSvn = s.eng.runSvn :=
  State.eng_runSvn_setBank ..
@[simp] theorem State.eng_runSvn_count (s : State) (i : PageId) (f : Fld) (v : Nat) : (s.count i f v).eng.runSvn = s.eng.runSvn :=
  State.eng_runSvn_setBank ..
@[simp] theorem State.eng_runSvn_setFlag (s : State) (i : PageId) (f : Fld) (v : Nat) : (s.setFlag i f v).eng.runSvn = s.eng.runSvn :=
  State.eng_runSvn_setBank ..
@[simp] theorem State.eng_runCopy_setReg (s : State) (i : PageId) (f : Fld) (v : Nat) : (s.setReg i f v).eng.runCopy = s.eng.runCopy :=
  State.eng_runCopy_setBank ..
@[simp] theorem State.eng_runCopy_count (s : State) (i : PageId) (f : Fld) (v : Nat) : (s.count i f v).eng.runCopy = s.eng.runCopy :=
  State.eng_runCopy_setBank ..
@[simp] theorem State.eng_runCopy_setFlag (s : State) (i : PageId) (f : Fld) (v : Nat) : (s.setFlag i f v).eng.runCopy = s.eng.runCopy :=
  State.eng_runCopy_setBank ..
@[simp] theorem State.eng_emcMem_setReg (s : State) (i : PageId) (f : Fld) (v : Nat) : (s.setReg i f v).eng.emcMem = s.eng.emcMem :=
  State.eng_emcMem_setBank ..
@[simp] theorem State.eng_emcMem_count (s : State) (i : PageId) (f : Fld) (v : Nat) : (s.count i f v).eng.emcMem = s.eng.emcMem :=
  State.eng_emcMem_setBank ..
@[simp] theorem State.eng_emcMem_setFlag (s : State) (i : PageId) (f : Fld) (v : Nat) : (s.setFlag i f v).eng.emcMem = s.eng.emcMem :=
  State.eng_emcMem_setBank ..
@[simp] theorem State.eng_pccMem_setReg (s : State) (i : PageId) (f : Fld) (v : Nat) : (s.setReg i f v).eng.pccMem = s.eng.pccMem :=
  State.eng_pccMem_setBank ..
@[simp] theorem State.eng_pccMem_count (s : State) (i : PageId) (f : Fld) (v : Nat) : (s.count i f v).eng.pccMem = s.eng.pccMem :=
  State.eng_pccMem_setBank ..
@[simp] theorem State.eng_pccMem_setFlag (s : State) (i : PageId) (f : Fld) (v : Nat) : (s.setFlag i f v).eng.pccMem = s.eng.pccMem :=
  State.eng_pccMem_setBank ..
@[simp] theorem State.eng_activating_setReg (s : State) (i : PageId) (f : Fld) (v : Nat) : (s.setReg i f v).eng.activating = s.eng.activating :=
  State.eng_activating_setBank ..
@[simp] theorem State.eng_activating_count (s : State) (i : PageId) (f : Fld) (v : Nat) : (s.count i f v).eng.activating = s.eng.activating :=
  State.eng_activating_setBank ..
@[simp] theorem State.eng_activating_setFlag (s : State) (i : PageId) (f : Fld) (v : Nat) : (s.setFlag i f v).eng.activating = s.eng.activating :=
  State.eng_activating_setBank ..
@[simp] theorem State.eng_heldMailbox_setReg (s : State) (i : PageId) (f : Fld) (v : Nat) : (s.setReg i f v).eng.heldMailbox = s.eng.heldMailbox :=
  State.eng_heldMailbox_setBank ..
@[simp] theorem State.eng_heldMailbox_count (s : State) (i : PageId) (f : Fld) (v : Nat) : (s.count i f v).eng.heldMailbox = s.eng.heldMailbox :=
  State.eng_heldMailbox_setBank ..
@[simp] theorem State.eng_heldMailbox_setFlag (s : State) (i : PageId) (f : Fld) (v : Nat) : (s.setFlag i f v).eng.heldMailbox = s.eng.heldMailbox :=
  State.eng_heldMailbox_setBank ..
@[simp] theorem State.eng_debug_setReg (s : State) (i : PageId) (f : Fld) (v : Nat) : (s.setReg i f v).eng.debug = s.eng.debug :=
  State.eng_debug_setBank ..
@[simp] theorem State.eng_tjUnread_setReg (s : State) (i : PageId) (f : Fld) (v : Nat) : (s.setReg i f v).eng.tjUnread = s.eng.tjUnread :=
  State.eng_tjUnread_setBank ..
@[simp] theorem State.eng_debug_count (s : State) (i : PageId) (f : Fld) (v : Nat) : (s.count i f v).eng.debug = s.eng.debug :=
  State.eng_debug_setBank ..
@[simp] theorem State.eng_tjUnread_count (s : State) (i : PageId) (f : Fld) (v : Nat) : (s.count i f v).eng.tjUnread = s.eng.tjUnread :=
  State.eng_tjUnread_setBank ..
@[simp] theorem State.eng_debug_setFlag (s : State) (i : PageId) (f : Fld) (v : Nat) : (s.setFlag i f v).eng.debug = s.eng.debug :=
  State.eng_debug_setBank ..

@[simp] theorem State.eng_tjUnread_setFlag (s : State) (i : PageId) (f : Fld) (v : Nat) : (s.setFlag i f v).eng.tjUnread = s.eng.tjUnread :=
  State.eng_tjUnread_setBank ..

@[simp] theorem State.variant_logged (s : State) (i : PageId) (code cls sub detail : Nat) : (s.logged i code cls sub detail).variant = s.variant := by
  unfold State.logged; dsimp only; split <;> simp
@[simp] theorem State.resp_logged (s : State) (i : PageId) (code cls sub detail : Nat) : (s.logged i code cls sub detail).resp = s.resp := by
  unfold State.logged; dsimp only; split <;> simp
@[simp] theorem State.fresh_logged (s : State) (i : PageId) (code cls sub detail : Nat) : (s.logged i code cls sub detail).fresh = s.fresh := by
  unfold State.logged; dsimp only; split <;> simp
@[simp] theorem State.pending_logged (s : State) (i : PageId) (code cls sub detail : Nat) : (s.logged i code cls sub detail).pending = s.pending := by
  unfold State.logged; dsimp only; split <;> simp
@[simp] theorem State.tile_spd_logged (s : State) (i : PageId) (code cls sub detail : Nat) (h : TileId) : ((s.logged i code cls sub detail).tile h).spd = (s.tile h).spd := by
  unfold State.logged; dsimp only; split <;> simp
@[simp] theorem State.tile_acc0_logged (s : State) (i : PageId) (code cls sub detail : Nat) (h : TileId) : ((s.logged i code cls sub detail).tile h).acc0 = (s.tile h).acc0 := by
  unfold State.logged; dsimp only; split <;> simp
@[simp] theorem State.tile_acc1_logged (s : State) (i : PageId) (code cls sub detail : Nat) (h : TileId) : ((s.logged i code cls sub detail).tile h).acc1 = (s.tile h).acc1 := by
  unfold State.logged; dsimp only; split <;> simp
@[simp] theorem State.tile_arr_logged (s : State) (i : PageId) (code cls sub detail : Nat) (h : TileId) : ((s.logged i code cls sub detail).tile h).arr = (s.tile h).arr := by
  unfold State.logged; dsimp only; split <;> simp
@[simp] theorem State.tile_books_logged (s : State) (i : PageId) (code cls sub detail : Nat) (h : TileId) : ((s.logged i code cls sub detail).tile h).books = (s.tile h).books := by
  unfold State.logged; dsimp only; split <;> simp
@[simp] theorem State.tile_dither_logged (s : State) (i : PageId) (code cls sub detail : Nat) (h : TileId) : ((s.logged i code cls sub detail).tile h).dither = (s.tile h).dither := by
  unfold State.logged; dsimp only; split <;> simp
@[simp] theorem State.tile_seq_logged (s : State) (i : PageId) (code cls sub detail : Nat) (h : TileId) : ((s.logged i code cls sub detail).tile h).seq = (s.tile h).seq := by
  unfold State.logged; dsimp only; split <;> simp
@[simp] theorem State.tile_units_logged (s : State) (i : PageId) (code cls sub detail : Nat) (h : TileId) : ((s.logged i code cls sub detail).tile h).units = (s.tile h).units := by
  unfold State.logged; dsimp only; split <;> simp
@[simp] theorem State.tile_job_logged (s : State) (i : PageId) (code cls sub detail : Nat) (h : TileId) : ((s.logged i code cls sub detail).tile h).job = (s.tile h).job := by
  unfold State.logged; dsimp only; split <;> simp
@[simp] theorem State.tile_progress_logged (s : State) (i : PageId) (code cls sub detail : Nat) (h : TileId) : ((s.logged i code cls sub detail).tile h).progress = (s.tile h).progress := by
  unfold State.logged; dsimp only; split <;> simp
@[simp] theorem State.part_gates_logged (s : State) (i : PageId) (code cls sub detail : Nat) (q : PartId) : ((s.logged i code cls sub detail).part q).gates = (s.part q).gates := by
  unfold State.logged; dsimp only; split <;> simp
@[simp] theorem State.part_jobs_logged (s : State) (i : PageId) (code cls sub detail : Nat) (q : PartId) : ((s.logged i code cls sub detail).part q).jobs = (s.part q).jobs := by
  unfold State.logged; dsimp only; split <;> simp
@[simp] theorem State.part_chains_logged (s : State) (i : PageId) (code cls sub detail : Nat) (q : PartId) : ((s.logged i code cls sub detail).part q).chains = (s.part q).chains := by
  unfold State.logged; dsimp only; split <;> simp
@[simp] theorem State.part_chainWrites_logged (s : State) (i : PageId) (code cls sub detail : Nat) (q : PartId) : ((s.logged i code cls sub detail).part q).chainWrites = (s.part q).chainWrites := by
  unfold State.logged; dsimp only; split <;> simp
@[simp] theorem State.part_heads_logged (s : State) (i : PageId) (code cls sub detail : Nat) (q : PartId) : ((s.logged i code cls sub detail).part q).heads = (s.part q).heads := by
  unfold State.logged; dsimp only; split <;> simp
@[simp] theorem State.part_lastQueue_logged (s : State) (i : PageId) (code cls sub detail : Nat) (q : PartId) : ((s.logged i code cls sub detail).part q).lastQueue = (s.part q).lastQueue := by
  unfold State.logged; dsimp only; split <;> simp
@[simp] theorem State.part_nextJob_logged (s : State) (i : PageId) (code cls sub detail : Nat) (q : PartId) : ((s.logged i code cls sub detail).part q).nextJob = (s.part q).nextJob := by
  unfold State.logged; dsimp only; split <;> simp
@[simp] theorem State.part_fw_logged (s : State) (i : PageId) (code cls sub detail : Nat) (q : PartId) : ((s.logged i code cls sub detail).part q).fw = (s.part q).fw := by
  unfold State.logged; dsimp only; split <;> simp
@[simp] theorem State.part_replies_logged (s : State) (i : PageId) (code cls sub detail : Nat) (q : PartId) : ((s.logged i code cls sub detail).part q).replies = (s.part q).replies := by
  unfold State.logged; dsimp only; split <;> simp
@[simp] theorem State.part_events_logged (s : State) (i : PageId) (code cls sub detail : Nat) (q : PartId) : ((s.logged i code cls sub detail).part q).events = (s.part q).events := by
  unfold State.logged; dsimp only; split <;> simp
@[simp] theorem State.part_journal_logged (s : State) (i : PageId) (code cls sub detail : Nat) (q : PartId) : ((s.logged i code cls sub detail).part q).journal = (s.part q).journal := by
  unfold State.logged; dsimp only; split <;> simp
@[simp] theorem State.part_rst_logged (s : State) (i : PageId) (code cls sub detail : Nat) (q : PartId) : ((s.logged i code cls sub detail).part q).rst = (s.part q).rst := by
  unfold State.logged; dsimp only; split <;> simp
@[simp] theorem State.part_suspects_logged (s : State) (i : PageId) (code cls sub detail : Nat) (q : PartId) : ((s.logged i code cls sub detail).part q).suspects = (s.part q).suspects := by
  unfold State.logged; dsimp only; split <;> simp
@[simp] theorem State.part_replaying_logged (s : State) (i : PageId) (code cls sub detail : Nat) (q : PartId) : ((s.logged i code cls sub detail).part q).replaying = (s.part q).replaying := by
  unfold State.logged; dsimp only; split <;> simp
@[simp] theorem State.part_xfer_logged (s : State) (i : PageId) (code cls sub detail : Nat) (q : PartId) : ((s.logged i code cls sub detail).part q).xfer = (s.part q).xfer := by
  unfold State.logged; dsimp only; split <;> simp
@[simp] theorem State.part_nextRid_logged (s : State) (i : PageId) (code cls sub detail : Nat) (q : PartId) : ((s.logged i code cls sub detail).part q).nextRid = (s.part q).nextRid := by
  unfold State.logged; dsimp only; split <;> simp
@[simp] theorem State.part_grace_logged (s : State) (i : PageId) (code cls sub detail : Nat) (q : PartId) : ((s.logged i code cls sub detail).part q).grace = (s.part q).grace := by
  unfold State.logged; dsimp only; split <;> simp
@[simp] theorem State.part_levelBnd_logged (s : State) (i : PageId) (code cls sub detail : Nat) (q : PartId) : ((s.logged i code cls sub detail).part q).levelBnd = (s.part q).levelBnd := by
  unfold State.logged; dsimp only; split <;> simp
@[simp] theorem State.part_only2_logged (s : State) (i : PageId) (code cls sub detail : Nat) (q : PartId) : ((s.logged i code cls sub detail).part q).only2 = (s.part q).only2 := by
  unfold State.logged; dsimp only; split <;> simp
@[simp] theorem State.part_actHold_logged (s : State) (i : PageId) (code cls sub detail : Nat) (q : PartId) : ((s.logged i code cls sub detail).part q).actHold = (s.part q).actHold := by
  unfold State.logged; dsimp only; split <;> simp
@[simp] theorem State.part_bndAct_logged (s : State) (i : PageId) (code cls sub detail : Nat) (q : PartId) : ((s.logged i code cls sub detail).part q).bndAct = (s.part q).bndAct := by
  unfold State.logged; dsimp only; split <;> simp
@[simp] theorem State.part_switchWait_logged (s : State) (i : PageId) (code cls sub detail : Nat) (q : PartId) : ((s.logged i code cls sub detail).part q).switchWait = (s.part q).switchWait := by
  unfold State.logged; dsimp only; split <;> simp
@[simp] theorem State.part_gateErr_logged (s : State) (i : PageId) (code cls sub detail : Nat) (q : PartId) : ((s.logged i code cls sub detail).part q).gateErr = (s.part q).gateErr := by
  unfold State.logged; dsimp only; split <;> simp
@[simp] theorem State.part_fenceOf_logged (s : State) (i : PageId) (code cls sub detail : Nat) (q : PartId) : ((s.logged i code cls sub detail).part q).fenceOf = (s.part q).fenceOf := by
  unfold State.logged; dsimp only; split <;> simp
@[simp] theorem State.ctl_mem_logged (s : State) (i : PageId) (code cls sub detail : Nat) (q : PartId) (d : Fin 2) : (((s.logged i code cls sub detail).part q).ctl d).mem = ((s.part q).ctl d).mem := by
  unfold State.logged; dsimp only; split <;> simp
@[simp] theorem State.ctl_cache_logged (s : State) (i : PageId) (code cls sub detail : Nat) (q : PartId) (d : Fin 2) : (((s.logged i code cls sub detail).part q).ctl d).cache = ((s.part q).ctl d).cache := by
  unfold State.logged; dsimp only; split <;> simp
@[simp] theorem State.ctl_merge_logged (s : State) (i : PageId) (code cls sub detail : Nat) (q : PartId) (d : Fin 2) : (((s.logged i code cls sub detail).part q).ctl d).merge = ((s.part q).ctl d).merge := by
  unfold State.logged; dsimp only; split <;> simp
@[simp] theorem State.ctl_fixups_logged (s : State) (i : PageId) (code cls sub detail : Nat) (q : PartId) (d : Fin 2) : (((s.logged i code cls sub detail).part q).ctl d).fixups = ((s.part q).ctl d).fixups := by
  unfold State.logged; dsimp only; split <;> simp
@[simp] theorem State.port_keyCur_logged (s : State) (i : PageId) (code cls sub detail : Nat) (m : PortId) : ((s.logged i code cls sub detail).port m).keyCur = (s.port m).keyCur := by
  unfold State.logged; dsimp only; split <;> simp
@[simp] theorem State.port_keyNext_logged (s : State) (i : PageId) (code cls sub detail : Nat) (m : PortId) : ((s.logged i code cls sub detail).port m).keyNext = (s.port m).keyNext := by
  unfold State.logged; dsimp only; split <;> simp
@[simp] theorem State.port_sealed_logged (s : State) (i : PageId) (code cls sub detail : Nat) (m : PortId) : ((s.logged i code cls sub detail).port m).sealed = (s.port m).sealed := by
  unfold State.logged; dsimp only; split <;> simp
@[simp] theorem State.port_sealedNext_logged (s : State) (i : PageId) (code cls sub detail : Nat) (m : PortId) : ((s.logged i code cls sub detail).port m).sealedNext = (s.port m).sealedNext := by
  unfold State.logged; dsimp only; split <;> simp
@[simp] theorem State.port_slot_logged (s : State) (i : PageId) (code cls sub detail : Nat) (m : PortId) : ((s.logged i code cls sub detail).port m).slot = (s.port m).slot := by
  unfold State.logged; dsimp only; split <;> simp
@[simp] theorem State.port_tx_logged (s : State) (i : PageId) (code cls sub detail : Nat) (m : PortId) : ((s.logged i code cls sub detail).port m).tx = (s.port m).tx := by
  unfold State.logged; dsimp only; split <;> simp
@[simp] theorem State.port_held_logged (s : State) (i : PageId) (code cls sub detail : Nat) (m : PortId) : ((s.logged i code cls sub detail).port m).held = (s.port m).held := by
  unfold State.logged; dsimp only; split <;> simp
@[simp] theorem State.port_out_logged (s : State) (i : PageId) (code cls sub detail : Nat) (m : PortId) : ((s.logged i code cls sub detail).port m).out = (s.port m).out := by
  unfold State.logged; dsimp only; split <;> simp
@[simp] theorem State.port_heard_logged (s : State) (i : PageId) (code cls sub detail : Nat) (m : PortId) : ((s.logged i code cls sub detail).port m).heard = (s.port m).heard := by
  unfold State.logged; dsimp only; split <;> simp
@[simp] theorem State.port_downLaps_logged (s : State) (i : PageId) (code cls sub detail : Nat) (m : PortId) : ((s.logged i code cls sub detail).port m).downLaps = (s.port m).downLaps := by
  unfold State.logged; dsimp only; split <;> simp
@[simp] theorem State.port_echoBad_logged (s : State) (i : PageId) (code cls sub detail : Nat) (m : PortId) : ((s.logged i code cls sub detail).port m).echoBad = (s.port m).echoBad := by
  unfold State.logged; dsimp only; split <;> simp
@[simp] theorem State.port_badLaps_logged (s : State) (i : PageId) (code cls sub detail : Nat) (m : PortId) : ((s.logged i code cls sub detail).port m).badLaps = (s.port m).badLaps := by
  unfold State.logged; dsimp only; split <;> simp
@[simp] theorem State.port_dark_logged (s : State) (i : PageId) (code cls sub detail : Nat) (m : PortId) : ((s.logged i code cls sub detail).port m).dark = (s.port m).dark := by
  unfold State.logged; dsimp only; split <;> simp
@[simp] theorem State.port_slotBad_logged (s : State) (i : PageId) (code cls sub detail : Nat) (m : PortId) : ((s.logged i code cls sub detail).port m).slotBad = (s.port m).slotBad := by
  unfold State.logged; dsimp only; split <;> simp
@[simp] theorem State.port_alarmLaps_logged (s : State) (i : PageId) (code cls sub detail : Nat) (m : PortId) : ((s.logged i code cls sub detail).port m).alarmLaps = (s.port m).alarmLaps := by
  unfold State.logged; dsimp only; split <;> simp
@[simp] theorem State.port_collisions_logged (s : State) (i : PageId) (code cls sub detail : Nat) (m : PortId) : ((s.logged i code cls sub detail).port m).collisions = (s.port m).collisions := by
  unfold State.logged; dsimp only; split <;> simp
@[simp] theorem State.port_backoff_logged (s : State) (i : PageId) (code cls sub detail : Nat) (m : PortId) : ((s.logged i code cls sub detail).port m).backoff = (s.port m).backoff := by
  unfold State.logged; dsimp only; split <;> simp
@[simp] theorem State.port_contended_logged (s : State) (i : PageId) (code cls sub detail : Nat) (m : PortId) : ((s.logged i code cls sub detail).port m).contended = (s.port m).contended := by
  unfold State.logged; dsimp only; split <;> simp
@[simp] theorem State.port_newMap_logged (s : State) (i : PageId) (code cls sub detail : Nat) (m : PortId) : ((s.logged i code cls sub detail).port m).newMap = (s.port m).newMap := by
  unfold State.logged; dsimp only; split <;> simp
@[simp] theorem State.port_muted_logged (s : State) (i : PageId) (code cls sub detail : Nat) (m : PortId) : ((s.logged i code cls sub detail).port m).muted = (s.port m).muted := by
  unfold State.logged; dsimp only; split <;> simp
@[simp] theorem State.port_joinAcks_logged (s : State) (i : PageId) (code cls sub detail : Nat) (m : PortId) : ((s.logged i code cls sub detail).port m).joinAcks = (s.port m).joinAcks := by
  unfold State.logged; dsimp only; split <;> simp
@[simp] theorem State.port_joinAcked_logged (s : State) (i : PageId) (code cls sub detail : Nat) (m : PortId) : ((s.logged i code cls sub detail).port m).joinAcked = (s.port m).joinAcked := by
  unfold State.logged; dsimp only; split <;> simp
@[simp] theorem State.port_depochUsed_logged (s : State) (i : PageId) (code cls sub detail : Nat) (m : PortId) : ((s.logged i code cls sub detail).port m).depochUsed = (s.port m).depochUsed := by
  unfold State.logged; dsimp only; split <;> simp
@[simp] theorem State.port_leaveSlots_logged (s : State) (i : PageId) (code cls sub detail : Nat) (m : PortId) : ((s.logged i code cls sub detail).port m).leaveSlots = (s.port m).leaveSlots := by
  unfold State.logged; dsimp only; split <;> simp
@[simp] theorem State.port_epochsEnded_logged (s : State) (i : PageId) (code cls sub detail : Nat) (m : PortId) : ((s.logged i code cls sub detail).port m).epochsEnded = (s.port m).epochsEnded := by
  unfold State.logged; dsimp only; split <;> simp
@[simp] theorem State.port_peerState_logged (s : State) (i : PageId) (code cls sub detail : Nat) (m : PortId) : ((s.logged i code cls sub detail).port m).peerState = (s.port m).peerState := by
  unfold State.logged; dsimp only; split <;> simp
@[simp] theorem State.eng_ggates_logged (s : State) (i : PageId) (code cls sub detail : Nat) : (s.logged i code cls sub detail).eng.ggates = s.eng.ggates := by
  unfold State.logged; dsimp only; split <;> simp
@[simp] theorem State.eng_sys_logged (s : State) (i : PageId) (code cls sub detail : Nat) : (s.logged i code cls sub detail).eng.sys = s.eng.sys := by
  unfold State.logged; dsimp only; split <;> simp
@[simp] theorem State.eng_arbLast_logged (s : State) (i : PageId) (code cls sub detail : Nat) : (s.logged i code cls sub detail).eng.arbLast = s.eng.arbLast := by
  unfold State.logged; dsimp only; split <;> simp
@[simp] theorem State.eng_dump_logged (s : State) (i : PageId) (code cls sub detail : Nat) : (s.logged i code cls sub detail).eng.dump = s.eng.dump := by
  unfold State.logged; dsimp only; split <;> simp
@[simp] theorem State.eng_gateSave_logged (s : State) (i : PageId) (code cls sub detail : Nat) : (s.logged i code cls sub detail).eng.gateSave = s.eng.gateSave := by
  unfold State.logged; dsimp only; split <;> simp
@[simp] theorem State.eng_windows_logged (s : State) (i : PageId) (code cls sub detail : Nat) : (s.logged i code cls sub detail).eng.windows = s.eng.windows := by
  unfold State.logged; dsimp only; split <;> simp
@[simp] theorem State.eng_faultLog_logged (s : State) (i : PageId) (code cls sub detail : Nat) : (s.logged i code cls sub detail).eng.faultLog = s.eng.faultLog := by
  unfold State.logged; dsimp only; split <;> simp
@[simp] theorem State.eng_faulted_logged (s : State) (i : PageId) (code cls sub detail : Nat) : (s.logged i code cls sub detail).eng.faulted = s.eng.faulted := by
  unfold State.logged; dsimp only; split <;> simp
@[simp] theorem State.eng_models_logged (s : State) (i : PageId) (code cls sub detail : Nat) : (s.logged i code cls sub detail).eng.models = s.eng.models := by
  unfold State.logged; dsimp only; split <;> simp
@[simp] theorem State.eng_nextHandle_logged (s : State) (i : PageId) (code cls sub detail : Nat) : (s.logged i code cls sub detail).eng.nextHandle = s.eng.nextHandle := by
  unfold State.logged; dsimp only; split <;> simp
@[simp] theorem State.eng_otp_logged (s : State) (i : PageId) (code cls sub detail : Nat) : (s.logged i code cls sub detail).eng.otp = s.eng.otp := by
  unfold State.logged; dsimp only; split <;> simp
@[simp] theorem State.eng_flash_logged (s : State) (i : PageId) (code cls sub detail : Nat) : (s.logged i code cls sub detail).eng.flash = s.eng.flash := by
  unfold State.logged; dsimp only; split <;> simp
@[simp] theorem State.eng_loader_logged (s : State) (i : PageId) (code cls sub detail : Nat) : (s.logged i code cls sub detail).eng.loader = s.eng.loader := by
  unfold State.logged; dsimp only; split <;> simp
@[simp] theorem State.eng_inReset_logged (s : State) (i : PageId) (code cls sub detail : Nat) : (s.logged i code cls sub detail).eng.inReset = s.eng.inReset := by
  unfold State.logged; dsimp only; split <;> simp
@[simp] theorem State.eng_bootWait_logged (s : State) (i : PageId) (code cls sub detail : Nat) : (s.logged i code cls sub detail).eng.bootWait = s.eng.bootWait := by
  unfold State.logged; dsimp only; split <;> simp
@[simp] theorem State.eng_runSvn_logged (s : State) (i : PageId) (code cls sub detail : Nat) : (s.logged i code cls sub detail).eng.runSvn = s.eng.runSvn := by
  unfold State.logged; dsimp only; split <;> simp
@[simp] theorem State.eng_runCopy_logged (s : State) (i : PageId) (code cls sub detail : Nat) : (s.logged i code cls sub detail).eng.runCopy = s.eng.runCopy := by
  unfold State.logged; dsimp only; split <;> simp
@[simp] theorem State.eng_emcMem_logged (s : State) (i : PageId) (code cls sub detail : Nat) : (s.logged i code cls sub detail).eng.emcMem = s.eng.emcMem := by
  unfold State.logged; dsimp only; split <;> simp
@[simp] theorem State.eng_pccMem_logged (s : State) (i : PageId) (code cls sub detail : Nat) : (s.logged i code cls sub detail).eng.pccMem = s.eng.pccMem := by
  unfold State.logged; dsimp only; split <;> simp
@[simp] theorem State.eng_activating_logged (s : State) (i : PageId) (code cls sub detail : Nat) : (s.logged i code cls sub detail).eng.activating = s.eng.activating := by
  unfold State.logged; dsimp only; split <;> simp
@[simp] theorem State.eng_heldMailbox_logged (s : State) (i : PageId) (code cls sub detail : Nat) : (s.logged i code cls sub detail).eng.heldMailbox = s.eng.heldMailbox := by
  unfold State.logged; dsimp only; split <;> simp
@[simp] theorem State.eng_debug_logged (s : State) (i : PageId) (code cls sub detail : Nat) : (s.logged i code cls sub detail).eng.debug = s.eng.debug := by
  unfold State.logged; dsimp only; split <;> simp

@[simp] theorem State.eng_tjUnread_logged (s : State) (i : PageId) (code cls sub detail : Nat) : (s.logged i code cls sub detail).eng.tjUnread = s.eng.tjUnread := by
  unfold State.logged; dsimp only; split <;> simp

end Sys2Proof.Machine
end

