-- ==== Sys2Proof/Laws/Run.lean ====
section
/-! SUPPORT. How operations run: one lemma for each way of putting operations together, and one for each named
operation, so that no proof unfolds the monad. -/
namespace Sys2Proof.Machine

variable {α β : Type}

/-! ### Putting operations together -/

theorem M.bind_apply (m : M α) (f : α → M β) (s : State) :
    (m >>= f) s = match m s with
      | .ok a s' => f a s'
      | .error e s' => .error e s' := by
  show EStateM.bind m f s = _
  unfold EStateM.bind
  cases m s <;> rfl

theorem M.bind_ok {m : M α} {f : α → M β} {s s' : State} {a : α} (h : m s = .ok a s') : (m >>= f) s = f a s' := by
  rw [M.bind_apply, h]

theorem M.bind_error {m : M α} {f : α → M β} {s s' : State} {e : Stop} (h : m s = .error e s') :
    (m >>= f) s = .error e s' := by
  rw [M.bind_apply, h]

@[simp] theorem M.pure_apply (a : α) (s : State) : (pure a : M α) s = .ok a s := rfl
@[simp] theorem M.get_apply (s : State) : (get : M State) s = .ok s s := rfl
@[simp] theorem M.modify_apply (f : State → State) (s : State) : (modify f : M Unit) s = .ok () (f s) := rfl
@[simp] theorem M.fail_apply (c : Nat) (s : State) : (fail c : M α) s = .error (.err c) s := rfl
@[simp] theorem M.wait_apply (s : State) : (wait : M α) s = .error .wait s := rfl

@[simp] theorem M.get_bind (f : State → M β) (s : State) : ((get : M State) >>= f) s = f s s := rfl
@[simp] theorem M.pure_bind' (a : α) (f : α → M β) (s : State) : ((pure a : M α) >>= f) s = f a s := rfl
@[simp] theorem M.modify_bind (g : State → State) (f : Unit → M β) (s : State) :
    ((modify g : M Unit) >>= f) s = f () (g s) := rfl
@[simp] theorem M.fail_bind (c : Nat) (f : α → M β) (s : State) : ((fail c : M α) >>= f) s = .error (.err c) s := rfl
@[simp] theorem M.wait_bind (f : α → M β) (s : State) : ((wait : M α) >>= f) s = .error .wait s := rfl

@[simp] theorem M.ite_apply (c : Prop) [Decidable c] (a b : M α) (s : State) :
    (if c then a else b) s = if c then a s else b s := by split <;> rfl

theorem M.after_of_ok {m : M α} {s s' : State} {a : α} (h : m s = .ok a s') : m.after s = s' := by
  unfold M.after; rw [h]

theorem M.after_of_error {m : M α} {s s' : State} {e : Stop} (h : m s = .error e s') : m.after s = s' := by
  unfold M.after; rw [h]

@[simp] theorem M.after_pure (a : α) (s : State) : (pure a : M α).after s = s := rfl
@[simp] theorem M.after_modify (f : State → State) (s : State) : (modify f : M Unit).after s = f s := rfl
@[simp] theorem M.after_fail (c : Nat) (s : State) : (fail c : M α).after s = s := rfl
@[simp] theorem M.after_wait (s : State) : (wait : M α).after s = s := rfl
@[simp] theorem M.after_get_bind (f : State → M β) (s : State) : ((get : M State) >>= f).after s = (f s).after s := rfl
@[simp] theorem M.after_modify_bind (g : State → State) (f : Unit → M β) (s : State) :
    ((modify g : M Unit) >>= f).after s = (f ()).after (g s) := rfl
@[simp] theorem M.after_pure_bind (a : α) (f : α → M β) (s : State) : ((pure a : M α) >>= f).after s = (f a).after s := rfl
@[simp] theorem M.after_fail_bind (c : Nat) (f : α → M β) (s : State) : ((fail c : M α) >>= f).after s = s := rfl
@[simp] theorem M.after_wait_bind (f : α → M β) (s : State) : ((wait : M α) >>= f).after s = s := rfl
@[simp] theorem M.after_ite (c : Prop) [Decidable c] (a b : M α) (s : State) :
    (if c then a else b : M α).after s = if c then a.after s else b.after s := by split <;> rfl

theorem M.after_bind (m : M α) (f : α → M β) (s : State) :
    (m >>= f).after s = match m s with
      | .ok a s' => (f a).after s'
      | .error _ s' => s' := by
  unfold M.after
  rw [M.bind_apply]
  cases m s <;> rfl

/-- Binding is associative, run from a state. -/
theorem M.bind_assoc' {γ : Type} (m : M α) (f : α → M β) (g : β → M γ) :
    (m >>= f) >>= g = m >>= fun a => f a >>= g := by
  funext s
  simp only [M.bind_apply]
  cases m s <;> rfl

/-- A command whose meaning is an operation answers the state that the operation leaves. -/
theorem M.next_eq (m : M α) (s : State) : M.next m s = .next (m.after s) := rfl

@[simp] theorem attempt_apply (m : M Unit) (s : State) : attempt m s = .ok () (m.after s) := rfl
@[simp] theorem attempt_bind (m : M Unit) (f : Unit → M β) (s : State) : (attempt m >>= f) s = f () (m.after s) := rfl
@[simp] theorem after_attempt (m : M Unit) (s : State) : (attempt m).after s = m.after s := rfl
@[simp] theorem after_attempt_bind (m : M Unit) (f : Unit → M β) (s : State) :
    (attempt m >>= f).after s = (f ()).after (m.after s) := rfl

theorem catchErr_ok {m : M α} {s s' : State} {a : α} (h : m s = .ok a s') : catchErr m s = .ok (.ok a) s' := by
  unfold catchErr; rw [h]
theorem catchErr_err {m : M α} {s s' : State} {c : Nat} (h : m s = .error (.err c) s') :
    catchErr m s = .ok (.error c) s' := by
  unfold catchErr; rw [h]
theorem catchErr_wait {m : M α} {s s' : State} (h : m s = .error .wait s') : catchErr m s = .error .wait s' := by
  unfold catchErr; rw [h]
@[simp] theorem after_catchErr (m : M α) (s : State) : (catchErr m).after s = m.after s := by
  unfold M.after catchErr
  split <;> rename_i h <;> (split at h <;> simp_all)

@[simp] theorem forAll_nil (m : α → M Unit) (s : State) : forAll [] m s = .ok () s := rfl
theorem forAll_cons (a : α) (t : List α) (m : α → M Unit) (s : State) :
    forAll (a :: t) m s = (m a >>= fun _ => forAll t m) s := rfl
@[simp] theorem mapAll_nil (m : α → M β) (s : State) : mapAll [] m s = .ok [] s := rfl
theorem mapAll_cons (a : α) (t : List α) (m : α → M β) (s : State) :
    mapAll (a :: t) m s = (m a >>= fun b => mapAll t m >>= fun bs => pure (b :: bs)) s := rfl

/-! ### The named operations -/

@[simp] theorem rd_apply (i : PageId) (f : Fld) (s : State) : rd i f s = .ok (s.reg i f) s := rfl
@[simp] theorem wr_apply (i : PageId) (f : Fld) (v : Nat) (s : State) : wr i f v s = .ok () (s.setReg i f v) := rfl
@[simp] theorem cnt_apply (i : PageId) (f : Fld) (n : Nat) (s : State) : cnt i f n s = .ok () (s.count i f n) := rfl
@[simp] theorem getTile_apply (g : TileId) (s : State) : getTile g s = .ok (s.tile g) s := rfl
@[simp] theorem modTile_apply (g : TileId) (f : Tile → Tile) (s : State) :
    modTile g f s = .ok () (s.setTile g (f (s.tile g))) := rfl
@[simp] theorem getPart_apply (p : PartId) (s : State) : getPart p s = .ok (s.part p) s := rfl
@[simp] theorem modPart_apply (p : PartId) (f : Part → Part) (s : State) :
    modPart p f s = .ok () (s.setPart p (f (s.part p))) := rfl
@[simp] theorem getPort_apply (n : PortId) (s : State) : getPort n s = .ok (s.port n) s := rfl
@[simp] theorem modPort_apply (n : PortId) (f : Port → Port) (s : State) :
    modPort n f s = .ok () (s.setPort n (f (s.port n))) := rfl
@[simp] theorem modEng_apply (f : Engine → Engine) (s : State) : modEng f s = .ok () (s.setEng (f s.eng)) := rfl
@[simp] theorem freshNum_apply (s : State) : freshNum s = .ok s.fresh (s.setFresh (s.fresh + 1)) := rfl

@[simp] theorem rd_bind (i : PageId) (f : Fld) (k : Nat → M β) (s : State) : (rd i f >>= k) s = k (s.reg i f) s := rfl
@[simp] theorem wr_bind (i : PageId) (f : Fld) (v : Nat) (k : Unit → M β) (s : State) :
    (wr i f v >>= k) s = k () (s.setReg i f v) := rfl
@[simp] theorem cnt_bind (i : PageId) (f : Fld) (n : Nat) (k : Unit → M β) (s : State) :
    (cnt i f n >>= k) s = k () (s.count i f n) := rfl
@[simp] theorem getTile_bind (g : TileId) (k : Tile → M β) (s : State) : (getTile g >>= k) s = k (s.tile g) s := rfl
@[simp] theorem modTile_bind (g : TileId) (f : Tile → Tile) (k : Unit → M β) (s : State) :
    (modTile g f >>= k) s = k () (s.setTile g (f (s.tile g))) := rfl
@[simp] theorem getPart_bind (p : PartId) (k : Part → M β) (s : State) : (getPart p >>= k) s = k (s.part p) s := rfl
@[simp] theorem modPart_bind (p : PartId) (f : Part → Part) (k : Unit → M β) (s : State) :
    (modPart p f >>= k) s = k () (s.setPart p (f (s.part p))) := rfl
@[simp] theorem getPort_bind (n : PortId) (k : Port → M β) (s : State) : (getPort n >>= k) s = k (s.port n) s := rfl
@[simp] theorem modPort_bind (n : PortId) (f : Port → Port) (k : Unit → M β) (s : State) :
    (modPort n f >>= k) s = k () (s.setPort n (f (s.port n))) := rfl
@[simp] theorem modEng_bind (f : Engine → Engine) (k : Unit → M β) (s : State) :
    (modEng f >>= k) s = k () (s.setEng (f s.eng)) := rfl
@[simp] theorem freshNum_bind (k : Nat → M β) (s : State) : (freshNum >>= k) s = k s.fresh (s.setFresh (s.fresh + 1)) := rfl

@[simp] theorem after_rd_bind (i : PageId) (f : Fld) (k : Nat → M β) (s : State) :
    (rd i f >>= k).after s = (k (s.reg i f)).after s := rfl
@[simp] theorem after_wr (i : PageId) (f : Fld) (v : Nat) (s : State) : (wr i f v).after s = s.setReg i f v := rfl
@[simp] theorem after_wr_bind (i : PageId) (f : Fld) (v : Nat) (k : Unit → M β) (s : State) :
    (wr i f v >>= k).after s = (k ()).after (s.setReg i f v) := rfl
@[simp] theorem after_cnt (i : PageId) (f : Fld) (n : Nat) (s : State) : (cnt i f n).after s = s.count i f n := rfl
@[simp] theorem after_cnt_bind (i : PageId) (f : Fld) (n : Nat) (k : Unit → M β) (s : State) :
    (cnt i f n >>= k).after s = (k ()).after (s.count i f n) := rfl
@[simp] theorem after_getTile_bind (g : TileId) (k : Tile → M β) (s : State) :
    (getTile g >>= k).after s = (k (s.tile g)).after s := rfl
@[simp] theorem after_modTile (g : TileId) (f : Tile → Tile) (s : State) :
    (modTile g f).after s = s.setTile g (f (s.tile g)) := rfl
@[simp] theorem after_modTile_bind (g : TileId) (f : Tile → Tile) (k : Unit → M β) (s : State) :
    (modTile g f >>= k).after s = (k ()).after (s.setTile g (f (s.tile g))) := rfl
@[simp] theorem after_getPart_bind (p : PartId) (k : Part → M β) (s : State) :
    (getPart p >>= k).after s = (k (s.part p)).after s := rfl
@[simp] theorem after_modPart (p : PartId) (f : Part → Part) (s : State) :
    (modPart p f).after s = s.setPart p (f (s.part p)) := rfl
@[simp] theorem after_modPart_bind (p : PartId) (f : Part → Part) (k : Unit → M β) (s : State) :
    (modPart p f >>= k).after s = (k ()).after (s.setPart p (f (s.part p))) := rfl
@[simp] theorem after_getPort_bind (n : PortId) (k : Port → M β) (s : State) :
    (getPort n >>= k).after s = (k (s.port n)).after s := rfl
@[simp] theorem after_modPort (n : PortId) (f : Port → Port) (s : State) :
    (modPort n f).after s = s.setPort n (f (s.port n)) := rfl
@[simp] theorem after_modPort_bind (n : PortId) (f : Port → Port) (k : Unit → M β) (s : State) :
    (modPort n f >>= k).after s = (k ()).after (s.setPort n (f (s.port n))) := rfl
@[simp] theorem after_modEng (f : Engine → Engine) (s : State) : (modEng f).after s = (s.setEng (f s.eng)) := rfl
@[simp] theorem after_modEng_bind (f : Engine → Engine) (k : Unit → M β) (s : State) :
    (modEng f >>= k).after s = (k ()).after (s.setEng (f s.eng)) := rfl
@[simp] theorem after_freshNum_bind (k : Nat → M β) (s : State) :
    (freshNum >>= k).after s = (k s.fresh).after (s.setFresh (s.fresh + 1)) := rfl

/-! ### Flags, interrupts and error records -/

@[simp] theorem setBit_apply (i : PageId) (f : Fld) (b : Nat) (s : State) : setBit i f b s = .ok () (s.setFlag i f b) := rfl
@[simp] theorem after_setBit (i : PageId) (f : Fld) (b : Nat) (s : State) : (setBit i f b).after s = s.setFlag i f b := rfl
@[simp] theorem setBit_bind (i : PageId) (f : Fld) (b : Nat) (k : Unit → M β) (s : State) :
    (setBit i f b >>= k) s = k () (s.setFlag i f b) := rfl
@[simp] theorem after_setBit_bind (i : PageId) (f : Fld) (b : Nat) (k : Unit → M β) (s : State) :
    (setBit i f b >>= k).after s = (k ()).after (s.setFlag i f b) := rfl
@[simp] theorem raise_apply (i : PageId) (b : Nat) (s : State) : raise i b s = .ok () (s.setFlag i HDR.IRQ_STAT b) := rfl
@[simp] theorem after_raise (i : PageId) (b : Nat) (s : State) : (raise i b).after s = s.setFlag i HDR.IRQ_STAT b := rfl
@[simp] theorem raise_bind (i : PageId) (b : Nat) (k : Unit → M β) (s : State) :
    (raise i b >>= k) s = k () (s.setFlag i HDR.IRQ_STAT b) := rfl
@[simp] theorem after_raise_bind (i : PageId) (b : Nat) (k : Unit → M β) (s : State) :
    (raise i b >>= k).after s = (k ()).after (s.setFlag i HDR.IRQ_STAT b) := rfl

@[simp] theorem logErr_apply (i : PageId) (code cls sub detail : Nat) (s : State) :
    logErr i code cls sub detail s = .ok () (s.logged i code cls sub detail) := by
  simp only [logErr, State.logged, cnt_bind, rd_bind, M.ite_apply, wr_bind, wr_apply]
  split <;> simp_all
@[simp] theorem after_logErr (i : PageId) (code cls sub detail : Nat) (s : State) :
    (logErr i code cls sub detail).after s = s.logged i code cls sub detail := M.after_of_ok (logErr_apply ..)
@[simp] theorem logErr_bind (i : PageId) (code cls sub detail : Nat) (k : Unit → M β) (s : State) :
    (logErr i code cls sub detail >>= k) s = k () (s.logged i code cls sub detail) := M.bind_ok (logErr_apply ..)
@[simp] theorem after_logErr_bind (i : PageId) (code cls sub detail : Nat) (k : Unit → M β) (s : State) :
    (logErr i code cls sub detail >>= k).after s = (k ()).after (s.logged i code cls sub detail) := by
  rw [M.after_bind, logErr_apply]

end Sys2Proof.Machine
end

