-- ==== Sys2Proof/Laws/Frame.lean ====
section
/-! SUPPORT. Frames: which updates keep what. -/
namespace Sys2Proof.Machine

/-! ### Fields of pages -/

theorem regsKept_refl (s : State) (l : List (PageId × Fld)) : regsKept s s l := fun _ _ _ => rfl

theorem regsKept_mono {s t : State} {l m : List (PageId × Fld)} (h : regsKept s t l) (hl : ∀ e ∈ l, e ∈ m) :
    regsKept s t m := fun i f hm => h i f fun e he => hm e (hl e he)

theorem regsKept_trans {s t u : State} {l : List (PageId × Fld)} (h : regsKept s t l) (k : regsKept t u l) :
    regsKept s u l := fun i f hm => (k i f hm).trans (h i f hm)

theorem regsKept_of_eq {s t u : State} {l : List (PageId × Fld)} (h : regsKept s t l)
    (e : ∀ i f, u.reg i f = t.reg i f) : regsKept s u l := fun i f hm => (e i f).trans (h i f hm)

theorem regsKept_setReg {s t : State} {l : List (PageId × Fld)} (i : PageId) (f : Fld) (v : Nat) (h : regsKept s t l)
    (hl : (i, f) ∈ l) : regsKept s (t.setReg i f v) l := by
  intro j g hm
  rw [State.reg_setReg_ne _ _ ?_, h j g hm]
  have := hm _ hl
  by_cases hj : j = i
  · exact .inr fun hk => this ⟨hj, hk⟩
  · exact .inl hj

theorem regsKept_count {s t : State} {l : List (PageId × Fld)} (i : PageId) (f : Fld) (n : Nat) (h : regsKept s t l)
    (hl : (i, f) ∈ l) : regsKept s (t.count i f n) l := regsKept_setReg i f _ h hl

theorem regsKept_setFlag {s t : State} {l : List (PageId × Fld)} (i : PageId) (f : Fld) (n : Nat) (h : regsKept s t l)
    (hl : (i, f) ∈ l) : regsKept s (t.setFlag i f n) l := regsKept_setReg i f _ h hl

theorem regsKept_logged {s t : State} {l : List (PageId × Fld)} (i : PageId) (code cls sub detail : Nat)
    (h : regsKept s t l) (hl : ∀ e ∈ errFields i, e ∈ l) : regsKept s (t.logged i code cls sub detail) l := by
  unfold State.logged
  dsimp only
  have h1 := regsKept_count i HDR.ERR_CNT 1 h (hl _ (by simp [errFields]))
  split
  · exact regsKept_setReg _ _ _ (regsKept_setReg _ _ _ h1 (hl _ (by simp [errFields]))) (hl _ (by simp [errFields]))
  · exact h1

theorem regsKept_setEng {s t : State} {l : List (PageId × Fld)} (e : Engine) (h : regsKept s t l)
    (he : e.eng = t.eng.eng ∧ e.dlw = t.eng.dlw ∧ e.sec = t.eng.sec ∧ e.pwr = t.eng.pwr) : regsKept s (t.setEng e) l :=
  regsKept_of_eq h fun i f => State.reg_setEng t e i f he

theorem regsKept_setTile {s t : State} {l : List (PageId × Fld)} (g : TileId) (x : Tile) (h : regsKept s t l)
    (hx : x.pg = (t.tile g).pg) : regsKept s (t.setTile g x) l :=
  regsKept_of_eq h fun i f => State.reg_setTile t g x i f hx

theorem regsKept_setPart {s t : State} {l : List (PageId × Fld)} (p : PartId) (x : Part) (h : regsKept s t l)
    (hx : x.pctl = (t.part p).pctl ∧ x.qmg = (t.part p).qmg ∧ x.mc = (t.part p).mc) : regsKept s (t.setPart p x) l :=
  regsKept_of_eq h fun i f => State.reg_setPart t p x i f hx

theorem regsKept_setPort {s t : State} {l : List (PageId × Fld)} (n : PortId) (x : Port) (h : regsKept s t l)
    (hx : x.link = (t.port n).link ∧ x.peer = (t.port n).peer) : regsKept s (t.setPort n x) l :=
  regsKept_of_eq h fun i f => State.reg_setPort t n x i f hx

theorem regsKept_setResp {s t : State} {l : List (PageId × Fld)} (r : Response) (h : regsKept s t l) :
    regsKept s (t.setResp r) l := regsKept_of_eq h fun _ _ => rfl

theorem regsKept_setFresh {s t : State} {l : List (PageId × Fld)} (n : Nat) (h : regsKept s t l) :
    regsKept s (t.setFresh n) l := regsKept_of_eq h fun _ _ => rfl

theorem regsKept_withPending {s t : State} {l : List (PageId × Fld)} (q : List Instr) (h : regsKept s t l) :
    regsKept s (t.withPending q) l := regsKept_of_eq h fun _ _ => rfl

/-! ### A field after other fields' updates -/

theorem State.reg_setFlag_ne (s : State) {i j : PageId} {f g : Fld} (b : Nat) (h : j ≠ i ∨ g.key ≠ f.key) :
    (s.setFlag i f b).reg j g = s.reg j g := State.reg_setReg_ne _ _ h

/-- A flag bit that is set reads as set. -/
theorem State.testBit_setFlag (s : State) (i : PageId) (f : Fld) (b : Nat) (h : b < f.width) :
    ((s.setFlag i f b).reg i f).testBit b = true := by
  unfold State.setFlag
  rw [State.reg_setReg_self, Nat.testBit_mod_two_pow]
  simp [h, Nat.testBit_two_pow_self]

theorem State.reg_logged_ne (s : State) {i j : PageId} {g : Fld} (code cls sub detail : Nat)
    (h : j ≠ i ∨ (g.key ≠ HDR.ERR_CNT.key ∧ g.key ≠ HDR.ERR_REC.key ∧ g.key ≠ HDR.ERR_VALID.key)) :
    (s.logged i code cls sub detail).reg j g = s.reg j g := by
  have hk := regsKept_logged i code cls sub detail (regsKept_refl s (errFields i)) (fun _ h => h)
  refine hk j g fun e he hc => ?_
  simp only [errFields, List.mem_cons, List.not_mem_nil, or_false] at he
  rcases h with h | ⟨h1, h2, h3⟩
  · rcases he with rfl | rfl | rfl <;> exact h hc.1
  · rcases he with rfl | rfl | rfl
    · exact h1 hc.2
    · exact h2 hc.2
    · exact h3 hc.2

/-- An error counts once. -/
theorem State.errCnt_logged (s : State) (i : PageId) (code cls sub detail : Nat) :
    (s.logged i code cls sub detail).reg i HDR.ERR_CNT = min (s.reg i HDR.ERR_CNT + 1) (2 ^ 32 - 1) := by
  unfold State.logged
  dsimp only
  split
  · rw [State.reg_setReg_ne _ _ (.inr (by decide)), State.reg_setReg_ne _ _ (.inr (by decide)), State.reg_count_self]
    rfl
  · rw [State.reg_count_self]; rfl

/-! ### What a page's write leaves alone -/

theorem onlyRegs_refl (s : State) : onlyRegs s s :=
  ⟨fun _ => rfl, fun _ => ⟨rfl, fun _ => rfl⟩, fun _ => rfl, rfl, rfl, rfl, rfl⟩

theorem onlyRegs_trans {s t u : State} (h : onlyRegs s t) (k : onlyRegs t u) : onlyRegs s u := by
  obtain ⟨h1, h2, h3, h4, h5, h6, h7⟩ := h
  obtain ⟨k1, k2, k3, k4, k5, k6, k7⟩ := k
  refine ⟨fun g => ?_, fun p => ⟨?_, fun c => ?_⟩, fun n => ?_, ?_, k5.trans h5, k6.trans h6, k7.trans h7⟩
  · rw [← h1 g, ← k1 g]
  · rw [← (h2 p).1, ← (k2 p).1]
  · rw [← (h2 p).2 c, ← (k2 p).2 c]
  · rw [← h3 n, ← k3 n]
  · show _ = _
    unfold engKept at h4 k4
    rw [← h4, ← k4]

theorem onlyRegs_setBank (s : State) (i : PageId) (b : Bank) : onlyRegs s (s.setBank i b) := by
  refine ⟨fun g => ?_, fun p => ⟨?_, fun c => ?_⟩, fun n => ?_, ?_, by simp, by simp, by simp⟩
  · cases i <;> first | rfl | (simp only [State.setBank, State.tile_setTile]; split <;> simp_all)
  · cases i <;> first | rfl | (simp only [State.setBank, State.part_setPart]; split <;> simp_all [Part.setCtl])
  · simp
  · cases i <;> first | rfl | (simp only [State.setBank, State.port_setPort]; split <;> simp_all)
  · cases i <;> rfl

theorem onlyRegs_setReg {s t : State} (h : onlyRegs s t) (i : PageId) (f : Fld) (v : Nat) : onlyRegs s (t.setReg i f v) :=
  onlyRegs_trans h (onlyRegs_setBank _ _ _)
theorem onlyRegs_count {s t : State} (h : onlyRegs s t) (i : PageId) (f : Fld) (v : Nat) : onlyRegs s (t.count i f v) :=
  onlyRegs_trans h (onlyRegs_setBank _ _ _)
theorem onlyRegs_setFlag {s t : State} (h : onlyRegs s t) (i : PageId) (f : Fld) (v : Nat) : onlyRegs s (t.setFlag i f v) :=
  onlyRegs_trans h (onlyRegs_setBank _ _ _)
theorem onlyRegs_logged {s t : State} (h : onlyRegs s t) (i : PageId) (code cls sub detail : Nat) :
    onlyRegs s (t.logged i code cls sub detail) := by
  unfold State.logged
  dsimp only
  split
  · exact onlyRegs_setReg (onlyRegs_setReg (onlyRegs_count h _ _ _) _ _ _) _ _ _
  · exact onlyRegs_count h _ _ _

/-! ### Memories -/

theorem vec_toList {α : Type} {n : Nat} (v : Vector α n) : v.toList = (List.finRange n).map v.get := by
  apply List.ext_getElem
  · simp
  · intro i h1 h2
    simp [vec_get]

/-- The memories, tile by tile and controller by controller. -/
theorem State.memories_eq (s : State) :
    s.memories = ((List.finRange 48).flatMap fun g => (s.tile g).memories) ++
      ((List.finRange 4).flatMap fun p => (List.finRange 2).map fun c => ((s.part p).ctl c).mem) ++
      [s.eng.dump, s.eng.gateSave, s.eng.flash, s.eng.loader.staging] := by
  have h : ∀ p : Part, p.mc.toList.map MemCtl.mem = (List.finRange 2).map fun c => (p.ctl c).mem := fun p => by
    rw [vec_toList, List.map_map]; rfl
  unfold State.memories
  rw [vec_toList s.tiles, vec_toList s.parts, List.flatMap_map, List.flatMap_map]
  simp only [h]
  rfl

/-- Memories that are the same tile by tile and controller by controller. -/
theorem State.memories_congr {s t : State} (h1 : ∀ g, (t.tile g).memories = (s.tile g).memories)
    (h2 : ∀ p c, ((t.part p).ctl c).mem = ((s.part p).ctl c).mem) (h3 : t.eng.dump = s.eng.dump)
    (h4 : t.eng.gateSave = s.eng.gateSave) (h5 : t.eng.flash = s.eng.flash)
    (h6 : t.eng.loader.staging = s.eng.loader.staging) : t.memories = s.memories := by
  rw [State.memories_eq, State.memories_eq, h3, h4, h5, h6]
  simp only [h1, h2]

theorem bytesKept_of_eq {s t : State} (h : t.memories = s.memories) : bytesKept s t := by
  refine ⟨by rw [h], fun k m m' h1 h2 a => ?_⟩
  rw [h, h1] at h2
  cases h2; rfl

theorem memories_of_onlyRegs {s t : State} (h : onlyRegs s t) : t.memories = s.memories := by
  obtain ⟨h1, h2, -, h4, -⟩ := h
  unfold engKept at h4
  refine State.memories_congr (fun g => ?_) (fun p c => ?_) ?_ ?_ ?_ ?_
  · rw [← h1 g]; rfl
  · rw [← (h2 p).2 c]
  all_goals rw [← h4]

/-- Where only fields of pages change, every byte of memory reads as before. -/
theorem bytesKept_of_onlyRegs {s t : State} (h : onlyRegs s t) : bytesKept s t :=
  bytesKept_of_eq (memories_of_onlyRegs h)

@[simp] theorem State.memories_setBank (s : State) (i : PageId) (b : Bank) : (s.setBank i b).memories = s.memories :=
  memories_of_onlyRegs (onlyRegs_setBank s i b)
@[simp] theorem State.memories_setReg (s : State) (i : PageId) (f : Fld) (v : Nat) :
    (s.setReg i f v).memories = s.memories := State.memories_setBank ..
@[simp] theorem State.memories_count (s : State) (i : PageId) (f : Fld) (v : Nat) :
    (s.count i f v).memories = s.memories := State.memories_setBank ..
@[simp] theorem State.memories_setFlag (s : State) (i : PageId) (f : Fld) (v : Nat) :
    (s.setFlag i f v).memories = s.memories := State.memories_setBank ..
@[simp] theorem State.memories_logged (s : State) (i : PageId) (code cls sub detail : Nat) :
    (s.logged i code cls sub detail).memories = s.memories :=
  memories_of_onlyRegs (onlyRegs_logged (onlyRegs_refl s) ..)
@[simp] theorem State.memories_setEng (s : State) (e : Engine)
    (h : e.dump = s.eng.dump ∧ e.gateSave = s.eng.gateSave ∧ e.flash = s.eng.flash ∧
      e.loader.staging = s.eng.loader.staging) : (s.setEng e).memories = s.memories :=
  State.memories_congr (fun _ => rfl) (fun _ _ => rfl) h.1 h.2.1 h.2.2.1 h.2.2.2
@[simp] theorem State.memories_setTile (s : State) (g : TileId) (t : Tile) (h : t.memories = (s.tile g).memories) :
    (s.setTile g t).memories = s.memories := by
  refine State.memories_congr (fun k => ?_) (fun _ _ => rfl) rfl rfl rfl rfl
  rw [State.tile_setTile]
  split
  · rename_i e; subst e; exact h
  · rfl
@[simp] theorem State.memories_setPart (s : State) (p : PartId) (x : Part)
    (h : ∀ c, (x.ctl c).mem = ((s.part p).ctl c).mem) : (s.setPart p x).memories = s.memories := by
  refine State.memories_congr (fun _ => rfl) (fun q c => ?_) rfl rfl rfl rfl
  rw [State.part_setPart]
  split
  · rename_i e; subst e; exact h c
  · rfl
@[simp] theorem State.memories_setPort (s : State) (n : PortId) (x : Port) : (s.setPort n x).memories = s.memories := rfl
@[simp] theorem State.memories_setResp (s : State) (r : Response) : (s.setResp r).memories = s.memories := rfl
@[simp] theorem State.memories_setFresh (s : State) (n : Nat) : (s.setFresh n).memories = s.memories := rfl
@[simp] theorem State.memories_withPending (s : State) (l : List Instr) : (s.withPending l).memories = s.memories := rfl

/-- Whether every memory is canonical, tile by tile and controller by controller. -/
theorem State.memWf_iff (s : State) :
    s.memWf = true ↔ (∀ g, ∀ m ∈ (s.tile g).memories, m.wf = true) ∧ (∀ p c, (((s.part p).ctl c).mem).wf = true) ∧
      s.eng.dump.wf = true ∧ s.eng.gateSave.wf = true ∧ s.eng.flash.wf = true ∧ s.eng.loader.staging.wf = true := by
  unfold State.memWf
  rw [State.memories_eq, List.all_eq_true]
  constructor
  · intro h
    refine ⟨fun g m hm => h m ?_, fun p c => h _ ?_, h _ (by simp), h _ (by simp), h _ (by simp), h _ (by simp)⟩
    · simp only [List.mem_append, List.mem_flatMap]
      exact .inl (.inl ⟨g, by simp, hm⟩)
    · simp only [List.mem_append, List.mem_flatMap, List.mem_map]
      exact .inl (.inr ⟨p, by simp, c, by simp, rfl⟩)
  · rintro ⟨h1, h2, h3, h4, h5, h6⟩ m hm
    simp only [List.mem_append, List.mem_flatMap, List.mem_map, List.mem_cons, List.not_mem_nil, or_false] at hm
    rcases hm with (⟨g, -, hm⟩ | ⟨p, -, c, -, rfl⟩) | rfl | rfl | rfl | rfl
    · exact h1 g m hm
    · exact h2 p c
    · exact h3
    · exact h4
    · exact h5
    · exact h6

end Sys2Proof.Machine
end

