-- ==== Sys2Proof/Laws/Keeps.lean ====
section
/-! SUPPORT. What operations keep: a relation between the state before and the state after that every part of an
operation respects is respected by the whole. -/
namespace Sys2Proof.Machine

/-- A relation of a state to a later one: each state to itself, and through a state between. -/
structure Rel where
  rel : State → State → Prop
  refl : ∀ s, rel s s
  trans : ∀ s t u, rel s t → rel t u → rel s u

/-- Every run of `m` respects `r`. -/
structure Rel.Keeps {α : Type} (r : Rel) (m : M α) : Prop where
  run : ∀ s, r.rel s (m.after s)

variable {α β : Type} {r : Rel}

theorem Rel.Keeps.ok {m : M α} (h : r.Keeps m) {s s' : State} {a : α} (e : m s = .ok a s') : r.rel s s' := by
  have := h.run s; rwa [M.after_of_ok e] at this

theorem Rel.Keeps.error {m : M α} (h : r.Keeps m) {s s' : State} {x : Stop} (e : m s = .error x s') : r.rel s s' := by
  have := h.run s; rwa [M.after_of_error e] at this

theorem Rel.keeps_pure (a : α) : r.Keeps (pure a : M α) := ⟨fun s => r.refl s⟩
theorem Rel.keeps_get : r.Keeps (get : M State) := ⟨fun s => r.refl s⟩
theorem Rel.keeps_fail (c : Nat) : r.Keeps (fail c : M α) := ⟨fun s => r.refl s⟩
theorem Rel.keeps_wait : r.Keeps (wait : M α) := ⟨fun s => r.refl s⟩
theorem Rel.keeps_modify {f : State → State} (h : ∀ s, r.rel s (f s)) : r.Keeps (modify f : M Unit) := ⟨h⟩

theorem Rel.keeps_bind {m : M α} {f : α → M β} (h : r.Keeps m) (k : ∀ a, r.Keeps (f a)) : r.Keeps (m >>= f) := by
  refine ⟨fun s => ?_⟩
  rw [M.after_bind]
  cases e : m s with
  | ok a s' => exact r.trans _ _ _ (h.ok e) ((k a).run s')
  | error x s' => exact h.error e

/-- A read of the whole state, with the state at hand. -/
theorem Rel.keeps_get_bind {f : State → M β} (k : ∀ s, r.rel s ((f s).after s)) : r.Keeps (get >>= f) := ⟨k⟩

theorem Rel.keeps_getTile_bind {g : TileId} {f : Tile → M β} (k : ∀ s, r.rel s ((f (s.tile g)).after s)) :
    r.Keeps (getTile g >>= f) := ⟨k⟩

theorem Rel.keeps_ite {c : Prop} [Decidable c] {a b : M α} (h : c → r.Keeps a) (k : ¬c → r.Keeps b) :
    r.Keeps (if c then a else b) := by
  split
  · exact h ‹_›
  · exact k ‹_›

theorem Rel.keeps_dite {c : Prop} [Decidable c] {a : c → M α} {b : ¬c → M α} (h : ∀ x, r.Keeps (a x))
    (k : ∀ x, r.Keeps (b x)) : r.Keeps (if x : c then a x else b x) := by
  split
  · exact h _
  · exact k _

theorem Rel.keeps_attempt {m : M Unit} (h : r.Keeps m) : r.Keeps (attempt m) := ⟨fun s => h.run s⟩

theorem Rel.keeps_catchErr {m : M α} (h : r.Keeps m) : r.Keeps (catchErr m) := ⟨fun s => by
  rw [after_catchErr]; exact h.run s⟩

theorem Rel.keeps_forAll {l : List α} {m : α → M Unit} (h : ∀ a ∈ l, r.Keeps (m a)) : r.Keeps (forAll l m) := by
  induction l with
  | nil => exact r.keeps_pure ()
  | cons a t ih =>
    exact r.keeps_bind (h a (by simp)) fun _ => ih fun b hb => h b (by simp [hb])

theorem Rel.keeps_mapAll {l : List α} {m : α → M β} (h : ∀ a ∈ l, r.Keeps (m a)) : r.Keeps (mapAll l m) := by
  induction l with
  | nil => exact r.keeps_pure []
  | cons a t ih =>
    exact r.keeps_bind (h a (by simp)) fun _ =>
      r.keeps_bind (ih fun b hb => h b (by simp [hb])) fun _ => r.keeps_pure _

theorem Rel.keeps_repeatM {n : Nat} {m : M Bool} (h : r.Keeps m) : r.Keeps (repeatM n m) := by
  induction n with
  | zero => exact r.keeps_pure ()
  | succ n ih => exact r.keeps_bind h fun b => r.keeps_ite (fun _ => ih) fun _ => r.keeps_pure ()

theorem Rel.keeps_rd (i : PageId) (f : Fld) : r.Keeps (rd i f) := ⟨fun s => r.refl s⟩
theorem Rel.keeps_getTile (g : TileId) : r.Keeps (getTile g) := ⟨fun s => r.refl s⟩
theorem Rel.keeps_getPart (p : PartId) : r.Keeps (getPart p) := ⟨fun s => r.refl s⟩
theorem Rel.keeps_getPort (n : PortId) : r.Keeps (getPort n) := ⟨fun s => r.refl s⟩
theorem Rel.keeps_wr {i : PageId} {f : Fld} {v : Nat} (h : ∀ s, r.rel s (s.setReg i f v)) : r.Keeps (wr i f v) := ⟨h⟩
theorem Rel.keeps_cnt {i : PageId} {f : Fld} {n : Nat} (h : ∀ s, r.rel s (s.count i f n)) : r.Keeps (cnt i f n) := ⟨h⟩
theorem Rel.keeps_modTile {g : TileId} {f : Tile → Tile} (h : ∀ s, r.rel s (s.setTile g (f (s.tile g)))) :
    r.Keeps (modTile g f) := ⟨h⟩
theorem Rel.keeps_modPart {p : PartId} {f : Part → Part} (h : ∀ s, r.rel s (s.setPart p (f (s.part p)))) :
    r.Keeps (modPart p f) := ⟨h⟩
theorem Rel.keeps_modPort {n : PortId} {f : Port → Port} (h : ∀ s, r.rel s (s.setPort n (f (s.port n)))) :
    r.Keeps (modPort n f) := ⟨h⟩
theorem Rel.keeps_modEng {f : Engine → Engine} (h : ∀ s, r.rel s (s.setEng (f s.eng))) : r.Keeps (modEng f) := ⟨h⟩
theorem Rel.keeps_freshNum (h : ∀ s n, r.rel s (s.setFresh n)) : r.Keeps freshNum := ⟨fun s => h s _⟩

/-- One micro-operation with its settlement at the system port. -/
theorem Rel.keeps_settle {m : M α} (h : r.Keeps m) (k : ∀ s y, r.rel s (s.withSys y)) : r.Keeps (settle m) := by
  refine ⟨fun s => ?_⟩
  unfold M.after settle
  cases e : m s with
  | ok a s' => exact r.trans _ _ _ (h.ok e) (k s' _)
  | error x s' =>
    cases x with
    | wait => exact k s _
    | err c => exact r.trans _ _ _ (h.error e) (k s' _)

/-! ### Fields of pages that are kept -/

/-- Every field of which `P` holds reads as before. -/
def Rel.regs (P : PageId → Fld → Prop) : Rel where
  rel s t := ∀ i f, P i f → t.reg i f = s.reg i f
  refl _ _ _ _ := rfl
  trans _ _ _ h k i f hp := (k i f hp).trans (h i f hp)

section
variable {P : PageId → Fld → Prop}

theorem Rel.regs_setReg (s : State) (i : PageId) (f : Fld) (v : Nat) (h : ∀ g, P i g → g.key ≠ f.key) :
    (Rel.regs P).rel s (s.setReg i f v) := by
  intro j g hp
  apply State.reg_setReg_ne
  by_cases e : j = i
  · subst e; exact .inr (h g hp)
  · exact .inl e

theorem Rel.regs_wr {i : PageId} {f : Fld} {v : Nat} (h : ∀ g, P i g → g.key ≠ f.key) : (Rel.regs P).Keeps (wr i f v) :=
  ⟨fun s => Rel.regs_setReg s i f v h⟩
theorem Rel.regs_cnt {i : PageId} {f : Fld} {n : Nat} (h : ∀ g, P i g → g.key ≠ f.key) : (Rel.regs P).Keeps (cnt i f n) :=
  ⟨fun s => Rel.regs_setReg s i f _ h⟩
theorem Rel.regs_setBit {i : PageId} {f : Fld} {n : Nat} (h : ∀ g, P i g → g.key ≠ f.key) :
    (Rel.regs P).Keeps (setBit i f n) :=
  ⟨fun s => Rel.regs_setReg s i f _ h⟩
theorem Rel.regs_raise {i : PageId} {n : Nat} (h : ∀ g, P i g → g.key ≠ HDR.IRQ_STAT.key) :
    (Rel.regs P).Keeps (raise i n) := Rel.regs_setBit h
theorem Rel.regs_logErr {i : PageId} {code cls sub detail : Nat}
    (h : ∀ g, P i g → g.key ≠ HDR.ERR_CNT.key ∧ g.key ≠ HDR.ERR_REC.key ∧ g.key ≠ HDR.ERR_VALID.key) :
    (Rel.regs P).Keeps (logErr i code cls sub detail) := by
  refine ⟨fun s j g hp => ?_⟩
  rw [after_logErr]
  apply State.reg_logged_ne
  by_cases e : j = i
  · subst e; exact .inr (h g hp)
  · exact .inl e
theorem Rel.regs_modTile {g : TileId} {f : Tile → Tile} (h : ∀ t, (f t).pg = t.pg) : (Rel.regs P).Keeps (modTile g f) :=
  ⟨fun s i k _ => State.reg_setTile s g _ i k (h _)⟩
theorem Rel.regs_modPart {p : PartId} {f : Part → Part}
    (h : ∀ x, (f x).pctl = x.pctl ∧ (f x).qmg = x.qmg ∧ (f x).mc = x.mc) : (Rel.regs P).Keeps (modPart p f) :=
  ⟨fun s i k _ => State.reg_setPart s p _ i k (h _)⟩
theorem Rel.regs_modPort {n : PortId} {f : Port → Port} (h : ∀ x, (f x).link = x.link ∧ (f x).peer = x.peer) :
    (Rel.regs P).Keeps (modPort n f) :=
  ⟨fun s i k _ => State.reg_setPort s n _ i k (h _)⟩
theorem Rel.regs_modEng {f : Engine → Engine}
    (h : ∀ e, (f e).eng = e.eng ∧ (f e).dlw = e.dlw ∧ (f e).sec = e.sec ∧ (f e).pwr = e.pwr) :
    (Rel.regs P).Keeps (modEng f) :=
  ⟨fun s i k _ => State.reg_setEng s _ i k (h _)⟩
theorem Rel.regs_freshNum : (Rel.regs P).Keeps freshNum := ⟨fun _ _ _ _ => rfl⟩
theorem Rel.regs_withSys (s : State) (y : SysPort) : (Rel.regs P).rel s (s.withSys y) :=
  fun i k _ => State.reg_setEng s _ i k ⟨rfl, rfl, rfl, rfl⟩
theorem Rel.regs_setCtl {p : PartId} {c : Fin 2} {f : MemCtl → MemCtl} (h : ∀ m, (f m).bank = m.bank) :
    (Rel.regs P).Keeps (modCtl p c f) := by
  refine ⟨fun s i k _ => ?_⟩
  show ((s.setPart p ((s.part p).setCtl c (f ((s.part p).ctl c)))).reg i k) = s.reg i k
  unfold State.reg
  congr 1
  cases i <;> simp [State.bank, State.part_setPart]
  · split <;> simp_all
  · split <;> simp_all
  · split
    · rename_i e; subst e
      rw [Part.ctl_setCtl]
      split
      · rename_i e2; subst e2; exact h _
      · rfl
    · rfl
end

/-! ### Memories that stay canonical -/

/-- Where every memory was canonical, every memory is. -/
def Rel.memWf : Rel where
  rel s t := s.memWf = true → t.memWf = true
  refl _ h := h
  trans _ _ _ h k x := k (h x)

theorem Rel.memWf_of_eq {s t : State} (h : t.memories = s.memories) : Rel.memWf.rel s t := by
  intro hs; unfold State.memWf at *; rw [h]; exact hs

theorem Rel.memWf_setTile (s : State) (g : TileId) (t : Tile)
    (h : (∀ m ∈ (s.tile g).memories, m.wf = true) → ∀ m ∈ t.memories, m.wf = true) : Rel.memWf.rel s (s.setTile g t) := by
  intro hs
  rw [State.memWf_iff] at *
  refine ⟨fun k => ?_, hs.2⟩
  rw [State.tile_setTile]
  split
  · exact h (hs.1 g)
  · exact hs.1 k

theorem Rel.memWf_modTile {g : TileId} {f : Tile → Tile}
    (h : ∀ t, (∀ m ∈ t.memories, m.wf = true) → ∀ m ∈ (f t).memories, m.wf = true) : Rel.memWf.Keeps (modTile g f) :=
  ⟨fun s => Rel.memWf_setTile s g _ (h _)⟩

theorem Rel.memWf_setPart (s : State) (p : PartId) (x : Part)
    (h : (∀ c, ((s.part p).ctl c).mem.wf = true) → ∀ c, (x.ctl c).mem.wf = true) : Rel.memWf.rel s (s.setPart p x) := by
  intro hs
  rw [State.memWf_iff] at *
  refine ⟨hs.1, fun q => ?_, hs.2.2⟩
  rw [State.part_setPart]
  split
  · exact h (hs.2.1 p)
  · exact hs.2.1 q

theorem Rel.memWf_modPart {p : PartId} {f : Part → Part}
    (h : ∀ x, (∀ c, (x.ctl c).mem.wf = true) → ∀ c, ((f x).ctl c).mem.wf = true) : Rel.memWf.Keeps (modPart p f) :=
  ⟨fun s => Rel.memWf_setPart s p _ (h _)⟩

theorem Rel.memWf_setCtl {p : PartId} {c : Fin 2} {f : MemCtl → MemCtl}
    (h : ∀ m, m.mem.wf = true → (f m).mem.wf = true) : Rel.memWf.Keeps (modCtl p c f) := by
  refine Rel.memWf_modPart fun x hx d => ?_
  rw [Part.ctl_setCtl]
  split
  · exact h _ (hx c)
  · exact hx d

theorem Rel.memWf_setEng (s : State) (e : Engine)
    (h : s.eng.dump.wf = true → s.eng.gateSave.wf = true → s.eng.flash.wf = true → s.eng.loader.staging.wf = true →
      e.dump.wf = true ∧ e.gateSave.wf = true ∧ e.flash.wf = true ∧ e.loader.staging.wf = true) :
    Rel.memWf.rel s (s.setEng e) := by
  intro hs
  rw [State.memWf_iff] at *
  obtain ⟨h1, h2, h3, h4, h5, h6⟩ := hs
  exact ⟨h1, h2, h h3 h4 h5 h6⟩

/-! ### The queue and the assembly variant, which no operation changes -/

/-- The queue of commands and the assembly variant are kept. -/
def Rel.queue : Rel where
  rel s t := t.pending = s.pending ∧ t.variant = s.variant
  refl _ := ⟨rfl, rfl⟩
  trans _ _ _ h k := ⟨k.1.trans h.1, k.2.trans h.2⟩

end Sys2Proof.Machine
end

