-- ==== Sys2Proof/Laws/Mem.lean ====
section
/-! SUPPORT. Laws of byte memories: a read after a write, every other byte as before, and every operation keeps the
canonical form. -/
namespace Sys2Proof.Machine

@[simp] theorem Memory.dflt_set (m : Memory) (a : Nat) (b : Byte) : (m.set a b).dflt = m.dflt := rfl
@[simp] theorem Memory.gen_set (m : Memory) (a : Nat) (b : Byte) : (m.set a b).gen = m.gen := rfl

/-- A byte that is written reads as written, every other byte as before. -/
theorem Memory.get_set (m : Memory) (a c : Nat) (b : Byte) : (m.set a b).get c = if c = a then b else m.get c := by
  by_cases h : c = a
  · subst h
    unfold Memory.get
    rw [show (m.set c b).dflt c = m.dflt c from rfl]
    simp only [Memory.set, Assoc.look_put_self]
    by_cases hb : b = m.dflt c <;> simp [hb]
  · unfold Memory.get
    simp only [Memory.set, Assoc.look_put_ne _ _ h, if_neg h]
    rfl

@[simp] theorem Memory.get_set_self (m : Memory) (a : Nat) (b : Byte) : (m.set a b).get a = b := by
  simp [Memory.get_set]

theorem Memory.get_set_ne (m : Memory) {a c : Nat} (b : Byte) (h : c ≠ a) : (m.set a b).get c = m.get c := by
  simp [Memory.get_set, h]

@[simp] theorem Memory.write_nil (m : Memory) (a : Nat) : m.write a [] = m := rfl
@[simp] theorem Memory.read_zero (m : Memory) (a : Nat) : m.read a 0 = [] := rfl

/-- A byte outside the written ones reads as before. -/
theorem Memory.get_write_out (m : Memory) (a c : Nat) (bs : List Byte) (h : c < a ∨ a + bs.length ≤ c) :
    (m.write a bs).get c = m.get c := by
  induction bs generalizing m a with
  | nil => rfl
  | cons b t ih =>
    simp only [List.length_cons] at h
    rw [Memory.write, ih _ _ (by omega), Memory.get_set_ne _ _ (by omega)]

/-- A written byte reads as written. -/
theorem Memory.get_write_in (m : Memory) (a i : Nat) (bs : List Byte) (h : i < bs.length) :
    (m.write a bs).get (a + i) = bs[i] := by
  induction bs generalizing m a i with
  | nil => simp at h
  | cons b t ih =>
    cases i with
    | zero =>
      rw [Memory.write, Memory.get_write_out _ _ _ _ (by omega)]
      simp
    | succ i =>
      have := ih (m.set a b) (a + 1) i (by simpa using h)
      rw [Memory.write, show a + (i + 1) = a + 1 + i by omega, this]
      simp

/-- A read of exactly the bytes that were written gives them. -/
theorem Memory.read_write (m : Memory) (a : Nat) (bs : List Byte) : (m.write a bs).read a bs.length = bs := by
  induction bs generalizing m a with
  | nil => rfl
  | cons b t ih =>
    simp only [List.length_cons, Memory.read, Memory.write]
    rw [Memory.get_write_out _ _ _ _ (by omega), Memory.get_set_self, ih]

theorem Memory.read_length (m : Memory) (a n : Nat) : (m.read a n).length = n := by
  induction n generalizing a with
  | zero => rfl
  | succ n ih => simp [Memory.read, ih]

/-- Two memories that agree on the bytes of a range read alike there. -/
theorem Memory.read_congr (m m' : Memory) (a n : Nat) (h : ∀ i, a ≤ i → i < a + n → m.get i = m'.get i) :
    m.read a n = m'.read a n := by
  induction n generalizing a with
  | zero => rfl
  | succ n ih =>
    simp only [Memory.read]
    rw [h a (Nat.le_refl a) (by omega), ih (a + 1) (fun i h1 h2 => h i (by omega) (by omega))]

/-! ### The canonical form -/

@[simp] theorem Memory.wf_empty : Memory.wf .empty = true := rfl
@[simp] theorem Memory.wf_undef (n : Nat) : Memory.wf (.undef n) = true := rfl

theorem Memory.wf_set (m : Memory) (a : Nat) (b : Byte) (h : m.wf = true) : (m.set a b).wf = true := by
  simp only [Memory.wf, Bool.and_eq_true, List.all_eq_true, decide_eq_true_eq] at h ⊢
  refine ⟨Assoc.rising_put _ _ _ h.1, fun e he => ?_⟩
  rw [Memory.dflt_set]
  rcases Assoc.mem_put _ _ _ _ he with ⟨hk, hv⟩ | he
  · by_cases hb : b = m.dflt a
    · simp [hb] at hv
    · simp only [if_neg hb, Option.some.injEq] at hv
      rw [hk, ← hv]; exact hb
  · exact h.2 e he

theorem Memory.wf_write (m : Memory) (a : Nat) (bs : List Byte) (h : m.wf = true) : (m.write a bs).wf = true := by
  induction bs generalizing m a with
  | nil => exact h
  | cons b t ih => exact ih _ _ (m.wf_set a b h)

theorem Memory.wf_zero (m : Memory) (a n : Nat) (h : m.wf = true) : (m.zero a n).wf = true := by
  unfold Memory.zero
  split
  · simp only [Memory.wf, Bool.and_eq_true, List.all_eq_true, decide_eq_true_eq] at h ⊢
    refine ⟨?_, fun e he => h.2 e (List.mem_filter.1 he).1⟩
    have := (Assoc.rising_iff _).1 h.1
    exact (Assoc.rising_iff _).2 (this.sublist List.filter_sublist)
  · exact m.wf_write a _ h

end Sys2Proof.Machine
end

