-- ==== Sys2Proof/Laws/Access.lean ====
section
/-! SUPPORT. What accesses to scratchpads, buffers, partition memory and system memory, and the writing of firmware
events, leave alone: any relation that their elementary changes respect. -/
namespace Sys2Proof.Machine

/-- The elementary changes that accesses and the writing of events make, each of which respects `R`. -/
structure AccessRel (R : Rel) : Prop where
  mcPage : ∀ s p c b, R.rel s (s.setBank (.mc p c) b)
  spdPage : ∀ s g b, R.rel s (s.setBank (.tile g .spd) b)
  accPage : ∀ s g b, R.rel s (s.setBank (.tile g .acc) b)
  ringPage : ∀ s p f v, f = PCTL.LG_HEAD ∨ f = PCTL.TR_HEAD ∨ f = PCTL.TR_LOST → R.rel s (s.setReg (.pctl p) f v)
  ctl : ∀ s p c m, m.bank = ((s.part p).ctl c).bank → (((s.part p).ctl c).mem.wf = true → m.mem.wf = true) →
    R.rel s (s.setPart p ((s.part p).setCtl c m))
  spd : ∀ s g (x : Spd), ((s.tile g).spd.data.wf = true → x.data.wf = true) →
    ((s.tile g).spd.chk.wf = true → x.chk.wf = true) → R.rel s (s.setTile g { s.tile g with spd := x })
  acc : ∀ s g b (x : Memory), (((s.tile g).acc b).mem.wf = true → x.wf = true) →
    R.rel s (s.setTile g ((s.tile g).setAcc b { (s.tile g).acc b with mem := x }))
  books : ∀ s g (x : Books), ((s.tile g).books.mem.wf = true → x.mem.wf = true) →
    ((s.tile g).books.luts.wf = true → x.luts.wf = true) → R.rel s (s.setTile g { s.tile g with books := x })
  progress : ∀ s g n, R.rel s (s.setTile g { s.tile g with progress := n })
  sys : ∀ s y, R.rel s (s.withSys y)
  arb : ∀ s l, R.rel s (s.setEng { s.eng with arbLast := l })
  events : ∀ s p e, R.rel s (s.setPart p { s.part p with events := e })
  models : ∀ s m, R.rel s (s.setEng { s.eng with models := m })
  faultLog : ∀ s m, R.rel s (s.setEng { s.eng with faultLog := m })
  fresh : ∀ s n, R.rel s (s.setFresh n)
  resp : ∀ s x, R.rel s (s.setResp x)

variable {R : Rel}

theorem keeps_setBit_of {i : PageId} {f : Fld} {n : Nat} (h : ∀ s b, R.rel s (s.setBank i b)) : R.Keeps (setBit i f n) :=
  ⟨fun s => h s _⟩

theorem keeps_raise_of {i : PageId} {n : Nat} (h : ∀ s b, R.rel s (s.setBank i b)) : R.Keeps (raise i n) :=
  ⟨fun s => h s _⟩

theorem keeps_logErr_of {i : PageId} {code cls sub detail : Nat} (h : ∀ s b, R.rel s (s.setBank i b)) :
    R.Keeps (logErr i code cls sub detail) := by
  refine ⟨fun s => ?_⟩
  rw [after_logErr]
  unfold State.logged
  dsimp only
  split
  · exact R.trans _ _ _ (R.trans _ _ _ (h _ _) (h _ _)) (h _ _)
  · exact h _ _

theorem keeps_modCtl_of (H : AccessRel R) {p : PartId} {c : Fin 2} {f : MemCtl → MemCtl} (hb : ∀ m, (f m).bank = m.bank)
    (hm : ∀ m, m.mem.wf = true → (f m).mem.wf = true) : R.Keeps (modCtl p c f) :=
  ⟨fun s => H.ctl s p c _ (hb _) (hm _)⟩

theorem keeps_modSpd_of (H : AccessRel R) {g : TileId} {f : Spd → Spd} (hd : ∀ x, x.data.wf = true → (f x).data.wf = true)
    (hc : ∀ x, x.chk.wf = true → (f x).chk.wf = true) : R.Keeps (modSpd g f) :=
  ⟨fun s => H.spd s g _ (hd _) (hc _)⟩

theorem keeps_modSys (H : AccessRel R) (f : SysPort → SysPort) : R.Keeps (modSys f) := ⟨fun s => H.sys s _⟩

theorem putBurst_wf (m : MemCtl) (o : Nat) (w : List Byte) (h : m.mem.wf = true) : (m.putBurst o w).mem.wf = true :=
  Memory.wf_write _ _ _ (Memory.wf_write _ _ _ h)
theorem fixBurst_wf (m : MemCtl) (o : Nat) (h : m.mem.wf = true) : (m.fixBurst o).mem.wf = true := by
  unfold MemCtl.fixBurst; (repeat' split) <;> first | exact h | exact putBurst_wf _ _ _ h
theorem fixBurst_bank (m : MemCtl) (o : Nat) : (m.fixBurst o).bank = m.bank := by
  unfold MemCtl.fixBurst; (repeat' split) <;> rfl
theorem putCodeword_data (x : Spd) (k : Nat) (w : List Byte) (h : x.data.wf = true) :
    (x.putCodeword k w).data.wf = true := Memory.wf_write _ _ _ h
theorem putCodeword_chk (x : Spd) (k : Nat) (w : List Byte) (h : x.chk.wf = true) :
    (x.putCodeword k w).chk.wf = true := Memory.wf_write _ _ _ h

theorem flip_wf (x : Spd) (w : Nat) (fs : List Flip) :
    (x.data.wf = true → (x.flip w fs).data.wf = true) ∧ (x.chk.wf = true → (x.flip w fs).chk.wf = true) := by
  unfold Spd.flip
  induction fs generalizing x with
  | nil => exact ⟨fun h => h, fun h => h⟩
  | cons f t ih =>
    simp only [List.foldl_cons]
    split
    · exact ⟨fun h => (ih _).1 (Memory.wf_set _ _ _ h), fun h => (ih _).2 h⟩
    · split
      · exact ⟨fun h => (ih _).1 h, fun h => (ih _).2 (Memory.wf_set _ _ _ h)⟩
      · exact ih _

theorem flip_data (x : Spd) (w : Nat) (fs : List Flip) (h : x.data.wf = true) : (x.flip w fs).data.wf = true :=
  (flip_wf x w fs).1 h
theorem flip_chk (x : Spd) (w : Nat) (fs : List Flip) (h : x.chk.wf = true) : (x.flip w fs).chk.wf = true :=
  (flip_wf x w fs).2 h

theorem putDatas_wf (k0 : Nat) (new : List Byte) (l : List Nat) (x : Spd) :
    (x.data.wf = true →
      (l.foldl (fun x i => x.putData (k0 + i) ((new.drop (32 * i)).take 32)) x).data.wf = true) ∧
    (x.chk.wf = true →
      (l.foldl (fun x i => x.putData (k0 + i) ((new.drop (32 * i)).take 32)) x).chk.wf = true) := by
  induction l generalizing x with
  | nil => exact ⟨fun h => h, fun h => h⟩
  | cons i t ih =>
    simp only [List.foldl_cons]
    exact ⟨fun h => (ih _).1 (putCodeword_data _ _ _ h), fun h => (ih _).2 (putCodeword_chk _ _ _ h)⟩

theorem keeps_freeArg (H : AccessRel R)  : R.Keeps (freeArg) := by
  unfold freeArg
  repeat' first
    | with_reducible exact Rel.keeps_pure _
    | ((with_reducible refine Rel.keeps_freshNum (fun s n => ?_)); exact H.fresh _ _)
    | with_reducible refine Rel.keeps_bind ?_ fun _ => ?_
    | with_reducible refine Rel.keeps_ite (fun _ => ?_) fun _ => ?_
    | dsimp only

theorem keeps_postEvent (H : AccessRel R) (p : PartId) (event sev err arg : Nat) : R.Keeps (postEvent p event sev err arg) := by
  unfold postEvent
  repeat' first
    | with_reducible exact Rel.keeps_pure _
    | ((with_reducible refine Rel.keeps_modPart (fun s => ?_)); exact H.events _ _ _)
    | with_reducible refine Rel.keeps_bind ?_ fun _ => ?_
    | with_reducible refine Rel.keeps_ite (fun _ => ?_) fun _ => ?_
    | dsimp only

theorem keeps_postRunning (H : AccessRel R) (p : PartId) (event sev err arg : Nat) : R.Keeps (postRunning p event sev err arg) := by
  unfold postRunning
  repeat' first
    | with_reducible exact Rel.keeps_pure _
    | with_reducible exact Rel.keeps_rd _ _
    | with_reducible exact keeps_postEvent H _ _ _ _ _
    | with_reducible refine Rel.keeps_bind ?_ fun _ => ?_
    | with_reducible refine Rel.keeps_ite (fun _ => ?_) fun _ => ?_
    | split
    | dsimp only

theorem keeps_degradeModels (H : AccessRel R) (p : PartId) (hit : Model → Bool) : R.Keeps (degradeModels p hit) := by
  unfold degradeModels
  repeat' first
    | with_reducible exact Rel.keeps_pure _
    | with_reducible exact Rel.keeps_get
    | with_reducible exact keeps_freeArg H
    | with_reducible exact keeps_postEvent H _ _ _ _ _
    | ((with_reducible refine Rel.keeps_modEng (fun s => ?_)); first | exact H.models _ _ | exact H.faultLog _ _ | exact H.sys _ _ | exact H.arb _ _)
    | with_reducible refine Rel.keeps_bind ?_ fun _ => ?_
    | with_reducible refine Rel.keeps_ite (fun _ => ?_) fun _ => ?_
    | with_reducible refine Rel.keeps_forAll fun _ _ => ?_
    | split
    | dsimp only

theorem keeps_logFault (H : AccessRel R) (p : PartId) (f : FaultEntry) (hit : Model → Bool) : R.Keeps (logFault p f hit) := by
  unfold logFault
  repeat' first
    | with_reducible exact Rel.keeps_pure _
    | with_reducible exact Rel.keeps_get
    | with_reducible exact keeps_freeArg H
    | with_reducible exact keeps_postEvent H _ _ _ _ _
    | with_reducible exact keeps_degradeModels H _ _
    | ((with_reducible refine Rel.keeps_modEng (fun s => ?_)); first | exact H.models _ _ | exact H.faultLog _ _ | exact H.sys _ _ | exact H.arb _ _)
    | with_reducible refine Rel.keeps_bind ?_ fun _ => ?_
    | with_reducible refine Rel.keeps_ite (fun _ => ?_) fun _ => ?_
    | split
    | dsimp only

theorem keeps_mcEnterFault (H : AccessRel R) (p : PartId) (c : Fin 2) (paddr : Nat) (ue : Bool) : R.Keeps (mcEnterFault p c paddr ue) := by
  unfold mcEnterFault
  repeat' first
    | with_reducible exact Rel.keeps_pure _
    | with_reducible exact Rel.keeps_get
    | with_reducible exact keeps_logFault H _ _ _
    | ((with_reducible refine Rel.keeps_wr (fun s => ?_)); first | exact H.mcPage _ _ _ _ | exact H.spdPage _ _ _ | exact H.accPage _ _ _ | exact H.ringPage _ _ _ _ (by decide))
    | with_reducible refine Rel.keeps_bind ?_ fun _ => ?_
    | with_reducible refine Rel.keeps_ite (fun _ => ?_) fun _ => ?_
    | split
    | dsimp only

theorem keeps_getCtl (_H : AccessRel R) (p : PartId) (c : Fin 2) : R.Keeps (getCtl p c) := by
  unfold getCtl
  repeat' first
    | with_reducible exact Rel.keeps_pure _
    | with_reducible exact Rel.keeps_getPart _
    | with_reducible refine Rel.keeps_bind ?_ fun _ => ?_
    | with_reducible refine Rel.keeps_ite (fun _ => ?_) fun _ => ?_
    | dsimp only

theorem keeps_mcCheckFetch (H : AccessRel R) (p : PartId) (c : Fin 2) (o : Nat) : R.Keeps (mcCheckFetch p c o) := by
  unfold mcCheckFetch
  repeat' first
    | with_reducible exact Rel.keeps_pure _
    | with_reducible exact keeps_getCtl H _ _
    | ((with_reducible refine Rel.keeps_cnt (fun s => ?_)); first | exact H.mcPage _ _ _ _ | exact H.spdPage _ _ _ | exact H.accPage _ _ _ | exact H.ringPage _ _ _ _ (by decide))
    | ((with_reducible refine keeps_modCtl_of H ?_ ?_) <;> first | (intro m; rfl) | exact fun m h => h | exact fun m h => putBurst_wf _ _ _ h | exact fun m => fixBurst_bank m _ | exact fun m h => fixBurst_wf m _ h | (intro m; dsimp only; split <;> rfl) | (intro m h; dsimp only; split <;> exact h))
    | with_reducible refine Rel.keeps_bind ?_ fun _ => ?_
    | with_reducible refine Rel.keeps_ite (fun _ => ?_) fun _ => ?_
    | split
    | dsimp only

theorem keeps_mcReread (H : AccessRel R) (p : PartId) (c : Fin 2) (o pos : Nat) (again : List Flip) : R.Keeps (mcReread p c o pos again) := by
  unfold mcReread
  repeat' first
    | with_reducible exact Rel.keeps_pure _
    | with_reducible exact keeps_mcEnterFault H _ _ _ _
    | with_reducible exact keeps_getCtl H _ _
    | ((with_reducible refine keeps_raise_of ?_); first | exact fun s b => H.mcPage s _ _ b | exact fun s b => H.spdPage s _ b | exact fun s b => H.accPage s _ b)
    | ((with_reducible refine Rel.keeps_wr (fun s => ?_)); first | exact H.mcPage _ _ _ _ | exact H.spdPage _ _ _ | exact H.accPage _ _ _ | exact H.ringPage _ _ _ _ (by decide))
    | ((with_reducible refine Rel.keeps_cnt (fun s => ?_)); first | exact H.mcPage _ _ _ _ | exact H.spdPage _ _ _ | exact H.accPage _ _ _ | exact H.ringPage _ _ _ _ (by decide))
    | ((with_reducible refine keeps_modCtl_of H ?_ ?_) <;> first | (intro m; rfl) | exact fun m h => h | exact fun m h => putBurst_wf _ _ _ h | exact fun m => fixBurst_bank m _ | exact fun m h => fixBurst_wf m _ h | (intro m; dsimp only; split <;> rfl) | (intro m h; dsimp only; split <;> exact h))
    | with_reducible refine Rel.keeps_bind ?_ fun _ => ?_
    | with_reducible refine Rel.keeps_ite (fun _ => ?_) fun _ => ?_
    | split
    | dsimp only

theorem keeps_mcUncorr (H : AccessRel R) (p : PartId) (c : Fin 2) (o : Nat) : R.Keeps (mcUncorr p c o) := by
  unfold mcUncorr
  repeat' first
    | with_reducible exact Rel.keeps_pure _
    | with_reducible exact keeps_mcEnterFault H _ _ _ _
    | ((with_reducible refine keeps_raise_of ?_); first | exact fun s b => H.mcPage s _ _ b | exact fun s b => H.spdPage s _ b | exact fun s b => H.accPage s _ b)
    | ((with_reducible refine Rel.keeps_wr (fun s => ?_)); first | exact H.mcPage _ _ _ _ | exact H.spdPage _ _ _ | exact H.accPage _ _ _ | exact H.ringPage _ _ _ _ (by decide))
    | ((with_reducible refine Rel.keeps_cnt (fun s => ?_)); first | exact H.mcPage _ _ _ _ | exact H.spdPage _ _ _ | exact H.accPage _ _ _ | exact H.ringPage _ _ _ _ (by decide))
    | with_reducible refine Rel.keeps_bind ?_ fun _ => ?_
    | with_reducible refine Rel.keeps_ite (fun _ => ?_) fun _ => ?_
    | dsimp only

theorem keeps_mcFind (H : AccessRel R) (p : PartId) (c : Fin 2) (o : Nat) (flips : List Flip) : R.Keeps (mcFind p c o flips) := by
  unfold mcFind
  repeat' first
    | with_reducible exact Rel.keeps_pure _
    | with_reducible exact keeps_getCtl H _ _
    | with_reducible exact keeps_mcCheckFetch H _ _ _
    | ((with_reducible refine keeps_modCtl_of H ?_ ?_) <;> first | (intro m; rfl) | exact fun m h => h | exact fun m h => putBurst_wf _ _ _ h | exact fun m => fixBurst_bank m _ | exact fun m h => fixBurst_wf m _ h | (intro m; dsimp only; split <;> rfl) | (intro m h; dsimp only; split <;> exact h))
    | with_reducible refine Rel.keeps_bind ?_ fun _ => ?_
    | with_reducible refine Rel.keeps_ite (fun _ => ?_) fun _ => ?_
    | split
    | dsimp only

theorem keeps_mcReadBurst (H : AccessRel R) (p : PartId) (c : Fin 2) (o : Nat) (flips again : List Flip) (late : Bool) : R.Keeps (mcReadBurst p c o flips again late) := by
  unfold mcReadBurst
  repeat' first
    | with_reducible exact Rel.keeps_pure _
    | with_reducible exact keeps_mcReread H _ _ _ _ _
    | with_reducible exact keeps_mcUncorr H _ _ _
    | with_reducible exact keeps_mcFind H _ _ _ _
    | ((with_reducible refine keeps_modCtl_of H ?_ ?_) <;> first | (intro m; rfl) | exact fun m h => h | exact fun m h => putBurst_wf _ _ _ h | exact fun m => fixBurst_bank m _ | exact fun m h => fixBurst_wf m _ h | (intro m; dsimp only; split <;> rfl) | (intro m h; dsimp only; split <;> exact h))
    | with_reducible refine Rel.keeps_bind ?_ fun _ => ?_
    | with_reducible refine Rel.keeps_ite (fun _ => ?_) fun _ => ?_
    | split
    | dsimp only

theorem keeps_mcFlush (H : AccessRel R) (p : PartId) (c : Fin 2) (o : Option Nat) : R.Keeps (mcFlush p c o) := by
  unfold mcFlush
  repeat' first
    | with_reducible exact Rel.keeps_pure _
    | with_reducible exact keeps_getCtl H _ _
    | with_reducible exact keeps_mcReread H _ _ _ _ _
    | ((with_reducible refine keeps_modCtl_of H ?_ ?_) <;> first | (intro m; rfl) | exact fun m h => h | exact fun m h => putBurst_wf _ _ _ h | exact fun m => fixBurst_bank m _ | exact fun m h => fixBurst_wf m _ h | (intro m; dsimp only; split <;> rfl) | (intro m h; dsimp only; split <;> exact h))
    | with_reducible refine Rel.keeps_bind ?_ fun _ => ?_
    | with_reducible refine Rel.keeps_ite (fun _ => ?_) fun _ => ?_
    | with_reducible refine Rel.keeps_forAll fun _ _ => ?_
    | dsimp only

theorem keeps_mcDiscard (H : AccessRel R) (p : PartId) (c : Fin 2) (o : Nat) : R.Keeps (mcDiscard p c o) := by
  unfold mcDiscard
  repeat' first
    | with_reducible exact Rel.keeps_pure _
    | with_reducible exact keeps_getCtl H _ _
    | ((with_reducible refine keeps_modCtl_of H ?_ ?_) <;> first | (intro m; rfl) | exact fun m h => h | exact fun m h => putBurst_wf _ _ _ h | exact fun m => fixBurst_bank m _ | exact fun m h => fixBurst_wf m _ h | (intro m; dsimp only; split <;> rfl) | (intro m h; dsimp only; split <;> exact h))
    | with_reducible refine Rel.keeps_bind ?_ fun _ => ?_
    | with_reducible refine Rel.keeps_ite (fun _ => ?_) fun _ => ?_
    | dsimp only

theorem keeps_mcUpdate (H : AccessRel R) (p : PartId) (c : Fin 2) (o : Nat) (flips again : List Flip) (f : List Byte → List Byte) : R.Keeps (mcUpdate p c o flips again f) := by
  unfold mcUpdate
  repeat' first
    | with_reducible exact Rel.keeps_pure _
    | with_reducible exact keeps_mcReread H _ _ _ _ _
    | with_reducible exact keeps_mcUncorr H _ _ _
    | with_reducible exact keeps_mcFind H _ _ _ _
    | with_reducible exact keeps_mcReadBurst H _ _ _ _ _ _
    | with_reducible exact keeps_mcFlush H _ _ _
    | with_reducible exact keeps_mcDiscard H _ _ _
    | ((with_reducible refine keeps_modCtl_of H ?_ ?_) <;> first | (intro m; rfl) | exact fun m h => h | exact fun m h => putBurst_wf _ _ _ h | exact fun m => fixBurst_bank m _ | exact fun m h => fixBurst_wf m _ h | (intro m; dsimp only; split <;> rfl) | (intro m h; dsimp only; split <;> exact h))
    | with_reducible refine Rel.keeps_bind ?_ fun _ => ?_
    | with_reducible refine Rel.keeps_ite (fun _ => ?_) fun _ => ?_
    | split
    | dsimp only

theorem keeps_mcReplace (H : AccessRel R) (p : PartId) (c : Fin 2) (o : Nat) (again : List Flip) (d : List Byte) : R.Keeps (mcReplace p c o again d) := by
  unfold mcReplace
  repeat' first
    | with_reducible exact Rel.keeps_pure _
    | with_reducible exact keeps_mcCheckFetch H _ _ _
    | with_reducible exact keeps_mcReread H _ _ _ _ _
    | with_reducible exact keeps_mcFlush H _ _ _
    | with_reducible exact keeps_mcDiscard H _ _ _
    | ((with_reducible refine keeps_modCtl_of H ?_ ?_) <;> first | (intro m; rfl) | exact fun m h => h | exact fun m h => putBurst_wf _ _ _ h | exact fun m => fixBurst_bank m _ | exact fun m h => fixBurst_wf m _ h | (intro m; dsimp only; split <;> rfl) | (intro m h; dsimp only; split <;> exact h))
    | with_reducible refine Rel.keeps_bind ?_ fun _ => ?_
    | with_reducible refine Rel.keeps_ite (fun _ => ?_) fun _ => ?_
    | split
    | dsimp only

theorem keeps_mcEnd {α : Type} (H : AccessRel R) (p : PartId) (c : Fin 2) (code cls kind off : Nat) : R.Keeps (α := α) (mcEnd p c code cls kind off : M α) := by
  exact Rel.keeps_bind (keeps_logErr_of fun s b => H.mcPage s _ _ b) fun _ => Rel.keeps_fail _

theorem keeps_mcReadOp (H : AccessRel R) (p : PartId) (cls a n : Nat) (flips again : List Flip) (late : Bool) : R.Keeps (mcReadOp p cls a n flips again late) := by
  unfold mcReadOp
  repeat' first
    | with_reducible exact Rel.keeps_pure _
    | with_reducible exact Rel.keeps_get
    | with_reducible exact keeps_mcReadBurst H _ _ _ _ _ _
    | with_reducible exact keeps_mcFlush H _ _ _
    | with_reducible exact keeps_mcEnd H _ _ _ _ _ _
    | ((with_reducible refine Rel.keeps_cnt (fun s => ?_)); first | exact H.mcPage _ _ _ _ | exact H.spdPage _ _ _ | exact H.accPage _ _ _ | exact H.ringPage _ _ _ _ (by decide))
    | with_reducible refine Rel.keeps_bind ?_ fun _ => ?_
    | with_reducible refine Rel.keeps_ite (fun _ => ?_) fun _ => ?_
    | with_reducible refine Rel.keeps_forAll fun _ _ => ?_
    | with_reducible refine Rel.keeps_mapAll fun _ _ => ?_
    | split
    | dsimp only

theorem keeps_mcWriteOp (H : AccessRel R) (p : PartId) (cls a : Nat) (bs : List Byte) (flips again : List Flip) : R.Keeps (mcWriteOp p cls a bs flips again) := by
  unfold mcWriteOp
  repeat' first
    | with_reducible exact Rel.keeps_pure _
    | with_reducible exact Rel.keeps_get
    | with_reducible exact keeps_mcUpdate H _ _ _ _ _ _
    | with_reducible exact keeps_mcReplace H _ _ _ _ _
    | with_reducible exact keeps_mcEnd H _ _ _ _ _ _
    | ((with_reducible refine Rel.keeps_cnt (fun s => ?_)); first | exact H.mcPage _ _ _ _ | exact H.spdPage _ _ _ | exact H.accPage _ _ _ | exact H.ringPage _ _ _ _ (by decide))
    | with_reducible refine Rel.keeps_bind ?_ fun _ => ?_
    | with_reducible refine Rel.keeps_ite (fun _ => ?_) fun _ => ?_
    | with_reducible refine Rel.keeps_mapAll fun _ _ => ?_
    | split
    | dsimp only

theorem keeps_mcEvict (H : AccessRel R) (p : PartId) (c : Fin 2) : R.Keeps (mcEvict p c) := by
  unfold mcEvict
  repeat' first
    | with_reducible exact Rel.keeps_pure _
    | with_reducible exact keeps_getCtl H _ _
    | with_reducible exact keeps_mcCheckFetch H _ _ _
    | ((with_reducible refine keeps_modCtl_of H ?_ ?_) <;> first | (intro m; rfl) | exact fun m h => h | exact fun m h => putBurst_wf _ _ _ h | exact fun m => fixBurst_bank m _ | exact fun m h => fixBurst_wf m _ h | (intro m; dsimp only; split <;> rfl) | (intro m h; dsimp only; split <;> exact h))
    | with_reducible refine Rel.keeps_bind ?_ fun _ => ?_
    | with_reducible refine Rel.keeps_ite (fun _ => ?_) fun _ => ?_
    | split
    | dsimp only

theorem keeps_mcBuffer (H : AccessRel R) (p : PartId) (c : Fin 2) (o : Nat) : R.Keeps (mcBuffer p c o) := by
  unfold mcBuffer
  repeat' first
    | with_reducible exact Rel.keeps_pure _
    | with_reducible exact keeps_getCtl H _ _
    | with_reducible exact keeps_mcEvict H _ _
    | ((with_reducible refine keeps_modCtl_of H ?_ ?_) <;> first | (intro m; rfl) | exact fun m h => h | exact fun m h => putBurst_wf _ _ _ h | exact fun m => fixBurst_bank m _ | exact fun m h => fixBurst_wf m _ h | (intro m; dsimp only; split <;> rfl) | (intro m h; dsimp only; split <;> exact h))
    | with_reducible refine Rel.keeps_bind ?_ fun _ => ?_
    | with_reducible refine Rel.keeps_ite (fun _ => ?_) fun _ => ?_
    | split
    | dsimp only

theorem keeps_mcRefuseAtomic (H : AccessRel R) (p : PartId) (c : Fin 2) (cls a : Nat) : R.Keeps (mcRefuseAtomic p c cls a : M α) := by
  unfold mcRefuseAtomic
  repeat' first
    | with_reducible exact Rel.keeps_pure _
    | with_reducible exact keeps_mcEnd H _ _ _ _ _ _
    | ((with_reducible refine Rel.keeps_wr (fun s => ?_)); first | exact H.mcPage _ _ _ _ | exact H.spdPage _ _ _ | exact H.accPage _ _ _ | exact H.ringPage _ _ _ _ (by decide))
    | with_reducible refine Rel.keeps_bind ?_ fun _ => ?_
    | with_reducible refine Rel.keeps_ite (fun _ => ?_) fun _ => ?_
    | dsimp only

theorem keeps_mcAtomicOp (H : AccessRel R) (p : PartId) (cls a : Nat) (adds : List (Option Int)) (flips again : List Flip) : R.Keeps (mcAtomicOp p cls a adds flips again) := by
  unfold mcAtomicOp
  repeat' first
    | with_reducible exact Rel.keeps_pure _
    | with_reducible exact Rel.keeps_get
    | with_reducible exact keeps_mcUpdate H _ _ _ _ _ _
    | with_reducible exact keeps_mcBuffer H _ _ _
    | with_reducible exact keeps_mcRefuseAtomic H _ _ _ _
    | ((with_reducible refine Rel.keeps_wr (fun s => ?_)); first | exact H.mcPage _ _ _ _ | exact H.spdPage _ _ _ | exact H.accPage _ _ _ | exact H.ringPage _ _ _ _ (by decide))
    | ((with_reducible refine Rel.keeps_cnt (fun s => ?_)); first | exact H.mcPage _ _ _ _ | exact H.spdPage _ _ _ | exact H.accPage _ _ _ | exact H.ringPage _ _ _ _ (by decide))
    | with_reducible refine Rel.keeps_bind ?_ fun _ => ?_
    | with_reducible refine Rel.keeps_ite (fun _ => ?_) fun _ => ?_
    | split
    | dsimp only

theorem keeps_mcHistOp (H : AccessRel R) (p : PartId) (cls : Nat) (h : HistOp) (a l : Nat) (flips again : List Flip) : R.Keeps (mcHistOp p cls h a l flips again) := by
  unfold mcHistOp
  repeat' first
    | with_reducible exact Rel.keeps_pure _
    | with_reducible exact Rel.keeps_get
    | with_reducible exact keeps_mcUpdate H _ _ _ _ _ _
    | with_reducible exact keeps_mcBuffer H _ _ _
    | with_reducible exact keeps_mcRefuseAtomic H _ _ _ _
    | with_reducible refine Rel.keeps_bind ?_ fun _ => ?_
    | with_reducible refine Rel.keeps_ite (fun _ => ?_) fun _ => ?_
    | split
    | dsimp only

theorem keeps_madeProgress (H : AccessRel R) (g : TileId) : R.Keeps (madeProgress g) := by
  unfold madeProgress
  repeat' first
    | with_reducible exact Rel.keeps_pure _
    | with_reducible exact Rel.keeps_rd _ _
    | ((with_reducible refine Rel.keeps_modTile (fun s => ?_)); first | exact H.progress _ _ _ | exact H.books _ _ _ (fun h => h) (fun h => h) | exact H.books _ _ _ (fun h => Memory.wf_write _ _ _ h) (fun h => h) | exact H.books _ _ _ (fun h => h) (fun h => Memory.wf_write _ _ _ h) | exact H.acc _ _ _ _ (fun h => Memory.wf_write _ _ _ h))
    | with_reducible refine Rel.keeps_bind ?_ fun _ => ?_
    | with_reducible refine Rel.keeps_ite (fun _ => ?_) fun _ => ?_
    | dsimp only

theorem keeps_spdLog (H : AccessRel R) (g : TileId) (code cls kind addr : Nat) : R.Keeps (spdLog g code cls kind addr) := by
  unfold spdLog
  repeat' first
    | with_reducible exact Rel.keeps_pure _
    | ((with_reducible refine keeps_logErr_of ?_); first | exact fun s b => H.mcPage s _ _ b | exact fun s b => H.spdPage s _ b | exact fun s b => H.accPage s _ b)
    | ((with_reducible refine Rel.keeps_wr (fun s => ?_)); first | exact H.mcPage _ _ _ _ | exact H.spdPage _ _ _ | exact H.accPage _ _ _ | exact H.ringPage _ _ _ _ (by decide))
    | with_reducible refine Rel.keeps_bind ?_ fun _ => ?_
    | with_reducible refine Rel.keeps_ite (fun _ => ?_) fun _ => ?_
    | dsimp only

theorem keeps_spdRefuse {α : Type} (H : AccessRel R) (g : TileId) (code cls kind addr : Nat) : R.Keeps (α := α) (spdRefuse g code cls kind addr : M α) := by
  unfold spdRefuse
  repeat' first
    | with_reducible exact Rel.keeps_pure _
    | with_reducible exact Rel.keeps_fail _
    | with_reducible exact keeps_spdLog H _ _ _ _ _
    | with_reducible refine Rel.keeps_bind ?_ fun _ => ?_
    | with_reducible refine Rel.keeps_ite (fun _ => ?_) fun _ => ?_
    | dsimp only

theorem keeps_bankReady (H : AccessRel R) (g : TileId) (cls addr : Nat) : R.Keeps (bankReady g cls addr) := by
  unfold bankReady
  repeat' first
    | with_reducible exact Rel.keeps_pure _
    | with_reducible exact Rel.keeps_get
    | with_reducible exact Rel.keeps_wait
    | with_reducible exact keeps_spdRefuse H _ _ _ _ _
    | with_reducible refine Rel.keeps_bind ?_ fun _ => ?_
    | with_reducible refine Rel.keeps_ite (fun _ => ?_) fun _ => ?_
    | split
    | dsimp only

theorem keeps_spdReadCodeword (H : AccessRel R) (g : TileId) (cls addr k : Nat) : R.Keeps (spdReadCodeword g cls addr k) := by
  unfold spdReadCodeword
  repeat' first
    | with_reducible exact Rel.keeps_pure _
    | with_reducible exact Rel.keeps_getTile _
    | with_reducible exact keeps_logFault H _ _ _
    | with_reducible exact keeps_spdRefuse H _ _ _ _ _
    | ((with_reducible refine keeps_raise_of ?_); first | exact fun s b => H.mcPage s _ _ b | exact fun s b => H.spdPage s _ b | exact fun s b => H.accPage s _ b)
    | ((with_reducible refine Rel.keeps_wr (fun s => ?_)); first | exact H.mcPage _ _ _ _ | exact H.spdPage _ _ _ | exact H.accPage _ _ _ | exact H.ringPage _ _ _ _ (by decide))
    | ((with_reducible refine Rel.keeps_cnt (fun s => ?_)); first | exact H.mcPage _ _ _ _ | exact H.spdPage _ _ _ | exact H.accPage _ _ _ | exact H.ringPage _ _ _ _ (by decide))
    | ((with_reducible refine keeps_modSpd_of H ?_ ?_) <;> first | exact fun x h => h | exact fun x h => putCodeword_data _ _ _ h | exact fun x h => putCodeword_chk _ _ _ h | exact fun x h => flip_data _ _ _ h | exact fun x h => flip_chk _ _ _ h | exact fun x h => (putDatas_wf _ _ _ x).1 h | exact fun x h => (putDatas_wf _ _ _ x).2 h | exact fun x h => flip_data _ _ _ (putCodeword_data _ _ _ h) | exact fun x h => flip_chk _ _ _ (putCodeword_chk _ _ _ h))
    | with_reducible refine Rel.keeps_bind ?_ fun _ => ?_
    | with_reducible refine Rel.keeps_ite (fun _ => ?_) fun _ => ?_
    | split
    | dsimp only

theorem keeps_spdReadWord (H : AccessRel R) (g : TileId) (cls addr n : Nat) : R.Keeps (spdReadWord g cls addr n) := by
  unfold spdReadWord
  repeat' first
    | with_reducible exact Rel.keeps_pure _
    | with_reducible exact keeps_bankReady H _ _ _
    | with_reducible exact keeps_spdReadCodeword H _ _ _ _
    | with_reducible refine Rel.keeps_bind ?_ fun _ => ?_
    | with_reducible refine Rel.keeps_ite (fun _ => ?_) fun _ => ?_
    | with_reducible refine Rel.keeps_mapAll fun _ _ => ?_
    | dsimp only

theorem keeps_spdWriteWord (H : AccessRel R) (g : TileId) (cls addr : Nat) (bs : List Byte) : R.Keeps (spdWriteWord g cls addr bs) := by
  unfold spdWriteWord
  repeat' first
    | with_reducible exact Rel.keeps_pure _
    | with_reducible exact keeps_bankReady H _ _ _
    | with_reducible exact keeps_spdReadCodeword H _ _ _ _
    | ((with_reducible refine keeps_modSpd_of H ?_ ?_) <;> first | exact fun x h => h | exact fun x h => putCodeword_data _ _ _ h | exact fun x h => putCodeword_chk _ _ _ h | exact fun x h => flip_data _ _ _ h | exact fun x h => flip_chk _ _ _ h | exact fun x h => (putDatas_wf _ _ _ x).1 h | exact fun x h => (putDatas_wf _ _ _ x).2 h | exact fun x h => flip_data _ _ _ (putCodeword_data _ _ _ h) | exact fun x h => flip_chk _ _ _ (putCodeword_chk _ _ _ h))
    | with_reducible refine Rel.keeps_bind ?_ fun _ => ?_
    | with_reducible refine Rel.keeps_ite (fun _ => ?_) fun _ => ?_
    | with_reducible refine Rel.keeps_mapAll fun _ _ => ?_
    | split
    | dsimp only

theorem keeps_spdLasting (H : AccessRel R) (g : TileId) (cls w : Nat) : R.Keeps (spdLasting g cls w) := by
  unfold spdLasting
  repeat' first
    | with_reducible exact Rel.keeps_pure _
    | with_reducible exact Rel.keeps_get
    | with_reducible exact keeps_logFault H _ _ _
    | ((with_reducible refine keeps_raise_of ?_); first | exact fun s b => H.mcPage s _ _ b | exact fun s b => H.spdPage s _ b | exact fun s b => H.accPage s _ b)
    | ((with_reducible refine keeps_logErr_of ?_); first | exact fun s b => H.mcPage s _ _ b | exact fun s b => H.spdPage s _ b | exact fun s b => H.accPage s _ b)
    | ((with_reducible refine Rel.keeps_wr (fun s => ?_)); first | exact H.mcPage _ _ _ _ | exact H.spdPage _ _ _ | exact H.accPage _ _ _ | exact H.ringPage _ _ _ _ (by decide))
    | ((with_reducible refine Rel.keeps_cnt (fun s => ?_)); first | exact H.mcPage _ _ _ _ | exact H.spdPage _ _ _ | exact H.accPage _ _ _ | exact H.ringPage _ _ _ _ (by decide))
    | with_reducible refine Rel.keeps_bind ?_ fun _ => ?_
    | with_reducible refine Rel.keeps_ite (fun _ => ?_) fun _ => ?_
    | split
    | dsimp only

theorem keeps_spdWritebackOp (H : AccessRel R) (g : TileId) (flips : List Flip) : R.Keeps (spdWritebackOp g flips) := by
  unfold spdWritebackOp
  repeat' first
    | with_reducible exact Rel.keeps_pure _
    | with_reducible exact Rel.keeps_get
    | with_reducible exact Rel.keeps_getTile _
    | with_reducible exact keeps_spdLasting H _ _ _
    | ((with_reducible refine Rel.keeps_wr (fun s => ?_)); first | exact H.mcPage _ _ _ _ | exact H.spdPage _ _ _ | exact H.accPage _ _ _ | exact H.ringPage _ _ _ _ (by decide))
    | ((with_reducible refine Rel.keeps_cnt (fun s => ?_)); first | exact H.mcPage _ _ _ _ | exact H.spdPage _ _ _ | exact H.accPage _ _ _ | exact H.ringPage _ _ _ _ (by decide))
    | ((with_reducible refine keeps_modSpd_of H ?_ ?_) <;> first | exact fun x h => h | exact fun x h => putCodeword_data _ _ _ h | exact fun x h => putCodeword_chk _ _ _ h | exact fun x h => flip_data _ _ _ h | exact fun x h => flip_chk _ _ _ h | exact fun x h => (putDatas_wf _ _ _ x).1 h | exact fun x h => (putDatas_wf _ _ _ x).2 h | exact fun x h => flip_data _ _ _ (putCodeword_data _ _ _ h) | exact fun x h => flip_chk _ _ _ (putCodeword_chk _ _ _ h))
    | with_reducible refine Rel.keeps_bind ?_ fun _ => ?_
    | with_reducible refine Rel.keeps_ite (fun _ => ?_) fun _ => ?_
    | split
    | dsimp only

theorem keeps_spdScrubOp (H : AccessRel R) (g : TileId) (flips : List Flip) : R.Keeps (spdScrubOp g flips) := by
  unfold spdScrubOp
  repeat' first
    | with_reducible exact Rel.keeps_pure _
    | with_reducible exact Rel.keeps_get
    | with_reducible exact Rel.keeps_rd _ _
    | with_reducible exact keeps_spdReadCodeword H _ _ _ _
    | ((with_reducible refine keeps_modSpd_of H ?_ ?_) <;> first | exact fun x h => h | exact fun x h => putCodeword_data _ _ _ h | exact fun x h => putCodeword_chk _ _ _ h | exact fun x h => flip_data _ _ _ h | exact fun x h => flip_chk _ _ _ h | exact fun x h => (putDatas_wf _ _ _ x).1 h | exact fun x h => (putDatas_wf _ _ _ x).2 h | exact fun x h => flip_data _ _ _ (putCodeword_data _ _ _ h) | exact fun x h => flip_chk _ _ _ (putCodeword_chk _ _ _ h))
    | with_reducible refine Rel.keeps_bind ?_ fun _ => ?_
    | with_reducible refine Rel.keeps_ite (fun _ => ?_) fun _ => ?_
    | with_reducible refine Rel.keeps_forAll fun _ _ => ?_
    | with_reducible refine Rel.keeps_attempt ?_
    | split
    | dsimp only

theorem keeps_passArbiters (H : AccessRel R) (others : List Contender) (y0 : List Arbiter) (y1 : Nat) : R.Keeps (passArbiters others y0 y1) := by
  induction y0 generalizing y1 with
  | nil => exact Rel.keeps_pure _
  | cons a t ih =>
    unfold passArbiters
    refine Rel.keeps_bind Rel.keeps_get fun s => ?_
    refine Rel.keeps_bind (Rel.keeps_modEng fun s => ?_) fun _ => ih _
    exact H.arb _ _

theorem keeps_bankDo (H : AccessRel R) (g : TileId) (j : BankJob) : R.Keeps (bankDo g j) := by
  unfold bankDo
  repeat' first
    | with_reducible exact Rel.keeps_pure _
    | with_reducible exact keeps_spdReadWord H _ _ _ _
    | with_reducible exact keeps_spdWriteWord H _ _ _ _
    | with_reducible refine Rel.keeps_bind ?_ fun _ => ?_
    | with_reducible refine Rel.keeps_ite (fun _ => ?_) fun _ => ?_
    | split
    | dsimp only

theorem keeps_bankPair (H : AccessRel R) (g : TileId) (a b : BankJob) : R.Keeps (bankPair g a b) := by
  unfold bankPair
  repeat' first
    | with_reducible exact Rel.keeps_pure _
    | with_reducible exact Rel.keeps_rd _ _
    | with_reducible exact keeps_bankDo H _ _
    | ((with_reducible refine Rel.keeps_wr (fun s => ?_)); first | exact H.mcPage _ _ _ _ | exact H.spdPage _ _ _ | exact H.accPage _ _ _ | exact H.ringPage _ _ _ _ (by decide))
    | with_reducible refine Rel.keeps_bind ?_ fun _ => ?_
    | with_reducible refine Rel.keeps_ite (fun _ => ?_) fun _ => ?_
    | with_reducible refine Rel.keeps_catchErr ?_
    | split
    | dsimp only

theorem keeps_answerOf (_H : AccessRel R)  (y0 : Except Nat α) : R.Keeps (answerOf y0 : M α) := by
  cases y0 <;> unfold answerOf
  all_goals (repeat' first
    | with_reducible exact Rel.keeps_pure _
    | with_reducible exact Rel.keeps_fail _
    | with_reducible refine Rel.keeps_bind ?_ fun _ => ?_
    | with_reducible refine Rel.keeps_ite (fun _ => ?_) fun _ => ?_
    | dsimp only)

theorem keeps_arbRounds (H : AccessRel R) (g : TileId) (b port : Nat) (y0 : Nat) (y1 : List (Ask × BankJob)) : R.Keeps (arbRounds g b port y0 y1) := by
  induction y0 generalizing y1 with
  | zero => exact Rel.keeps_pure _
  | succ n ih =>
    unfold arbRounds
    repeat' first
      | with_reducible exact Rel.keeps_pure _
      | with_reducible exact Rel.keeps_rd _ _
      | with_reducible exact Rel.keeps_getTile _
      | with_reducible exact ih _
      | exact Rel.keeps_catchErr (keeps_bankDo H _ _)
      | exact keeps_bankPair H _ _ _
      | exact keeps_answerOf H _
      | ((with_reducible refine Rel.keeps_wr (fun s => ?_)); exact H.spdPage _ _ _)
      | ((with_reducible refine Rel.keeps_cnt (fun s => ?_)); exact H.spdPage _ _ _)
      | ((with_reducible refine keeps_modSpd_of H ?_ ?_) <;> exact fun x h => h)
      | with_reducible refine Rel.keeps_bind ?_ fun _ => ?_
      | with_reducible refine Rel.keeps_ite (fun _ => ?_) fun _ => ?_
      | with_reducible refine Rel.keeps_forAll fun _ _ => ?_
      | split
      | dsimp only
      | (refine ⟨fun s => ?_⟩; rw [M.after_ite]; split <;> first | exact R.refl s | exact (ih _).run s)

theorem keeps_bankAccess (H : AccessRel R) (g : TileId) (cls addr count : Nat) (acc : Access) (rivals : List Rival) : R.Keeps (bankAccess g cls addr count acc rivals) := by
  unfold bankAccess
  repeat' first
    | with_reducible exact Rel.keeps_pure _
    | with_reducible exact Rel.keeps_get
    | with_reducible exact keeps_bankReady H _ _ _
    | with_reducible exact keeps_arbRounds H _ _ _ _ _
    | with_reducible refine Rel.keeps_bind ?_ fun _ => ?_
    | with_reducible refine Rel.keeps_ite (fun _ => ?_) fun _ => ?_
    | dsimp only

theorem keeps_eachPiece {α β : Type} (_H : AccessRel R) (l : List α) (m : α → M β) (h_m : ∀ a0, R.Keeps (m a0)) : R.Keeps (eachPiece l m) := by
  unfold eachPiece
  refine Rel.keeps_bind (Rel.keeps_mapAll fun _ _ => Rel.keeps_catchErr (h_m _)) fun _ => ?_
  split
  · exact Rel.keeps_fail _
  · exact Rel.keeps_pure _

theorem keeps_bankRead (H : AccessRel R) (g : TileId) (cls addr n : Nat) : R.Keeps (bankRead g cls addr n) := by
  unfold bankRead
  repeat' first
    | with_reducible exact Rel.keeps_pure _
    | with_reducible exact keeps_bankAccess H _ _ _ _ _ _
    | with_reducible refine Rel.keeps_bind ?_ fun _ => ?_
    | with_reducible refine Rel.keeps_ite (fun _ => ?_) fun _ => ?_
    | dsimp only

theorem keeps_bankWrite (H : AccessRel R) (g : TileId) (cls addr : Nat) (bs : List Byte) : R.Keeps (bankWrite g cls addr bs) := by
  unfold bankWrite
  repeat' first
    | with_reducible exact Rel.keeps_pure _
    | with_reducible exact keeps_bankAccess H _ _ _ _ _ _
    | with_reducible refine Rel.keeps_bind ?_ fun _ => ?_
    | with_reducible refine Rel.keeps_ite (fun _ => ?_) fun _ => ?_
    | dsimp only

theorem keeps_sysQueue (H : AccessRel R) (who : Who) (cls : Nat) (port : Fin 5) (a len : Nat) (data : Option (Nat × List Byte)) : R.Keeps (sysQueue who cls port a len data) := by
  unfold sysQueue
  repeat' first
    | with_reducible exact Rel.keeps_pure _
    | with_reducible exact keeps_modSys H _
    | with_reducible refine Rel.keeps_bind ?_ fun _ => ?_
    | with_reducible refine Rel.keeps_ite (fun _ => ?_) fun _ => ?_
    | dsimp only

theorem keeps_sysOne (H : AccessRel R) (who : Who) (cls : Nat) (port : Fin 5) (addr n : Nat) (bytes : Option (List Byte)) : R.Keeps (sysOne who cls port addr n bytes) := by
  unfold sysOne
  repeat' first
    | with_reducible exact Rel.keeps_pure _
    | with_reducible exact Rel.keeps_get
    | with_reducible exact Rel.keeps_fail _
    | with_reducible exact Rel.keeps_wait
    | with_reducible exact keeps_sysQueue H _ _ _ _ _ _
    | with_reducible exact keeps_modSys H _
    | with_reducible refine Rel.keeps_bind ?_ fun _ => ?_
    | with_reducible refine Rel.keeps_ite (fun _ => ?_) fun _ => ?_
    | split
    | dsimp only

theorem keeps_sysAccess (H : AccessRel R) (who : Who) (cls : Nat) (port : Fin 5) (addr len : Nat) (data : Option (List Byte)) : R.Keeps (sysAccess who cls port addr len data) := by
  unfold sysAccess
  repeat' first
    | with_reducible exact Rel.keeps_pure _
    | with_reducible exact keeps_sysOne H _ _ _ _ _ _
    | with_reducible refine Rel.keeps_bind ?_ fun _ => ?_
    | with_reducible refine Rel.keeps_ite (fun _ => ?_) fun _ => ?_
    | with_reducible refine Rel.keeps_mapAll fun _ _ => ?_
    | dsimp only

theorem keeps_Req_checkRegion (H : AccessRel R) (r : Req) (t : Target) (perm : Perm) (a n : Nat) : R.Keeps (Req.checkRegion r t perm a n) := by
  unfold Req.checkRegion
  repeat' first
    | with_reducible exact Rel.keeps_pure _
    | with_reducible exact Rel.keeps_get
    | with_reducible exact keeps_spdRefuse H _ _ _ _ _
    | with_reducible refine Rel.keeps_bind ?_ fun _ => ?_
    | with_reducible refine Rel.keeps_ite (fun _ => ?_) fun _ => ?_
    | split
    | dsimp only

theorem keeps_accAccessErr (H : AccessRel R) (g : TileId) (cls a : Nat) : R.Keeps (accAccessErr g cls a) := by
  unfold accAccessErr
  repeat' first
    | with_reducible exact Rel.keeps_pure _
    | ((with_reducible refine keeps_logErr_of ?_); first | exact fun s b => H.mcPage s _ _ b | exact fun s b => H.spdPage s _ b | exact fun s b => H.accPage s _ b)
    | ((with_reducible refine Rel.keeps_wr (fun s => ?_)); first | exact H.mcPage _ _ _ _ | exact H.spdPage _ _ _ | exact H.accPage _ _ _ | exact H.ringPage _ _ _ _ (by decide))
    | with_reducible refine Rel.keeps_bind ?_ fun _ => ?_
    | with_reducible refine Rel.keeps_ite (fun _ => ?_) fun _ => ?_
    | dsimp only

theorem keeps_bookWrite (H : AccessRel R) (g : TileId) (post : Bool) (off : Nat) (bs : List Byte) : R.Keeps (bookWrite g post off bs) := by
  unfold bookWrite
  repeat' first
    | with_reducible exact Rel.keeps_pure _
    | with_reducible exact Rel.keeps_getTile _
    | with_reducible exact Rel.keeps_wait
    | ((with_reducible refine Rel.keeps_modTile (fun s => ?_)); first | exact H.progress _ _ _ | exact H.books _ _ _ (fun h => h) (fun h => h) | exact H.books _ _ _ (fun h => Memory.wf_write _ _ _ h) (fun h => h) | exact H.books _ _ _ (fun h => h) (fun h => Memory.wf_write _ _ _ h) | exact H.acc _ _ _ _ (fun h => Memory.wf_write _ _ _ h))
    | with_reducible refine Rel.keeps_bind ?_ fun _ => ?_
    | with_reducible refine Rel.keeps_ite (fun _ => ?_) fun _ => ?_
    | split
    | dsimp only

theorem keeps_lutWrite (H : AccessRel R) (g : TileId) (post : Bool) (off : Nat) (bs : List Byte) : R.Keeps (lutWrite g post off bs) := by
  unfold lutWrite
  repeat' first
    | with_reducible exact Rel.keeps_pure _
    | with_reducible exact Rel.keeps_getTile _
    | with_reducible exact Rel.keeps_wait
    | ((with_reducible refine Rel.keeps_modTile (fun s => ?_)); first | exact H.progress _ _ _ | exact H.books _ _ _ (fun h => h) (fun h => h) | exact H.books _ _ _ (fun h => Memory.wf_write _ _ _ h) (fun h => h) | exact H.books _ _ _ (fun h => h) (fun h => Memory.wf_write _ _ _ h) | exact H.acc _ _ _ _ (fun h => Memory.wf_write _ _ _ h))
    | with_reducible refine Rel.keeps_bind ?_ fun _ => ?_
    | with_reducible refine Rel.keeps_ite (fun _ => ?_) fun _ => ?_
    | split
    | dsimp only

theorem keeps_localRead (H : AccessRel R) (g : TileId) (cls : Nat) (own : Bool) (l : Local) (off a n : Nat) : R.Keeps (localRead g cls own l off a n) := by
  unfold localRead
  repeat' first
    | with_reducible exact Rel.keeps_pure _
    | with_reducible exact Rel.keeps_getTile _
    | with_reducible exact keeps_bankRead H _ _ _ _
    | with_reducible exact keeps_accAccessErr H _ _ _
    | with_reducible refine Rel.keeps_bind ?_ fun _ => ?_
    | with_reducible refine Rel.keeps_ite (fun _ => ?_) fun _ => ?_
    | split
    | dsimp only

theorem keeps_localWrite (H : AccessRel R) (g : TileId) (cls : Nat) (own post : Bool) (l : Local) (off a : Nat) (bs : List Byte) : R.Keeps (localWrite g cls own post l off a bs) := by
  unfold localWrite
  repeat' first
    | with_reducible exact Rel.keeps_pure _
    | with_reducible exact Rel.keeps_getTile _
    | with_reducible exact keeps_bankWrite H _ _ _ _
    | with_reducible exact keeps_accAccessErr H _ _ _
    | with_reducible exact keeps_bookWrite H _ _ _ _
    | with_reducible exact keeps_lutWrite H _ _ _ _
    | ((with_reducible refine Rel.keeps_modTile (fun s => ?_)); first | exact H.progress _ _ _ | exact H.books _ _ _ (fun h => h) (fun h => h) | exact H.books _ _ _ (fun h => Memory.wf_write _ _ _ h) (fun h => h) | exact H.books _ _ _ (fun h => h) (fun h => Memory.wf_write _ _ _ h) | exact H.acc _ _ _ _ (fun h => Memory.wf_write _ _ _ h))
    | with_reducible refine Rel.keeps_bind ?_ fun _ => ?_
    | with_reducible refine Rel.keeps_ite (fun _ => ?_) fun _ => ?_
    | split
    | dsimp only

theorem keeps_checkOpen (_H : AccessRel R) (from_ q : PartId) : R.Keeps (checkOpen from_ q) := by
  unfold checkOpen
  repeat' first
    | with_reducible exact Rel.keeps_pure _
    | with_reducible exact Rel.keeps_get
    | with_reducible exact Rel.keeps_fail _
    | with_reducible refine Rel.keeps_bind ?_ fun _ => ?_
    | with_reducible refine Rel.keeps_ite (fun _ => ?_) fun _ => ?_
    | split
    | dsimp only

theorem keeps_passAlone (H : AccessRel R) (way : List Arbiter) : R.Keeps (passAlone way) := by
  unfold passAlone
  repeat' first
    | with_reducible exact Rel.keeps_pure _
    | with_reducible exact keeps_passArbiters H _ _ _
    | with_reducible refine Rel.keeps_bind ?_ fun _ => ?_
    | with_reducible refine Rel.keeps_ite (fun _ => ?_) fun _ => ?_
    | dsimp only

theorem keeps_Req_readAt (H : AccessRel R) (r : Req) (perm : Perm) (a n : Nat) : R.Keeps (Req.readAt r perm a n) := by
  unfold Req.readAt
  repeat' first
    | with_reducible exact Rel.keeps_pure _
    | with_reducible exact Rel.keeps_get
    | with_reducible exact keeps_mcReadOp H _ _ _ _ _ _ _
    | with_reducible exact keeps_spdRefuse H _ _ _ _ _
    | with_reducible exact keeps_sysAccess H _ _ _ _ _ _
    | with_reducible exact keeps_Req_checkRegion H _ _ _ _ _
    | with_reducible exact keeps_localRead H _ _ _ _ _ _ _
    | with_reducible exact keeps_checkOpen H _ _
    | with_reducible exact keeps_passAlone H _
    | with_reducible refine Rel.keeps_bind ?_ fun _ => ?_
    | with_reducible refine Rel.keeps_ite (fun _ => ?_) fun _ => ?_
    | split
    | dsimp only

theorem keeps_Req_acked (H : AccessRel R) (r : Req) : R.Keeps (Req.acked r) := by
  unfold Req.acked
  repeat' first
    | with_reducible exact Rel.keeps_pure _
    | with_reducible exact keeps_madeProgress H _
    | with_reducible refine Rel.keeps_bind ?_ fun _ => ?_
    | with_reducible refine Rel.keeps_ite (fun _ => ?_) fun _ => ?_
    | split
    | dsimp only

theorem keeps_Req_readPiece (H : AccessRel R) (r : Req) (perm : Perm) (a n : Nat) : R.Keeps (Req.readPiece r perm a n) := by
  unfold Req.readPiece
  repeat' first
    | with_reducible exact Rel.keeps_pure _
    | with_reducible exact keeps_Req_readAt H _ _ _ _
    | with_reducible exact keeps_Req_acked H _
    | with_reducible refine Rel.keeps_bind ?_ fun _ => ?_
    | with_reducible refine Rel.keeps_ite (fun _ => ?_) fun _ => ?_
    | dsimp only

theorem keeps_Req_writeAt (H : AccessRel R) (r : Req) (a : Nat) (bs : List Byte) : R.Keeps (Req.writeAt r a bs) := by
  unfold Req.writeAt
  repeat' first
    | with_reducible exact Rel.keeps_pure _
    | with_reducible exact Rel.keeps_get
    | with_reducible exact keeps_mcWriteOp H _ _ _ _ _ _
    | with_reducible exact keeps_spdRefuse H _ _ _ _ _
    | with_reducible exact keeps_sysAccess H _ _ _ _ _ _
    | with_reducible exact keeps_Req_checkRegion H _ _ _ _ _
    | with_reducible exact keeps_localWrite H _ _ _ _ _ _ _ _
    | with_reducible exact keeps_checkOpen H _ _
    | with_reducible exact keeps_passAlone H _
    | with_reducible refine Rel.keeps_bind ?_ fun _ => ?_
    | with_reducible refine Rel.keeps_ite (fun _ => ?_) fun _ => ?_
    | split
    | dsimp only

theorem keeps_Req_writePiece (H : AccessRel R) (r : Req) (a : Nat) (bs : List Byte) : R.Keeps (Req.writePiece r a bs) := by
  unfold Req.writePiece
  repeat' first
    | with_reducible exact Rel.keeps_pure _
    | with_reducible exact keeps_Req_acked H _
    | with_reducible exact keeps_Req_writeAt H _ _ _
    | with_reducible refine Rel.keeps_bind ?_ fun _ => ?_
    | with_reducible refine Rel.keeps_ite (fun _ => ?_) fun _ => ?_
    | dsimp only

theorem keeps_Req_read (H : AccessRel R) (r : Req) (a n : Nat) : R.Keeps (Req.read r a n) := by
  unfold Req.read
  repeat' first
    | with_reducible exact Rel.keeps_pure _
    | with_reducible refine keeps_eachPiece H _ _ ?_
    | with_reducible exact keeps_Req_readPiece H _ _ _ _
    | intro (_ : Nat × Nat)
    | with_reducible refine Rel.keeps_bind ?_ fun _ => ?_
    | with_reducible refine Rel.keeps_ite (fun _ => ?_) fun _ => ?_
    | dsimp only

theorem keeps_Req_write (H : AccessRel R) (r : Req) (a : Nat) (bs : List Byte) : R.Keeps (Req.write r a bs) := by
  unfold Req.write
  repeat' first
    | with_reducible exact Rel.keeps_pure _
    | with_reducible refine keeps_eachPiece H _ _ ?_
    | with_reducible exact keeps_Req_writePiece H _ _ _
    | intro (_ : Nat × Nat)
    | with_reducible refine Rel.keeps_bind ?_ fun _ => ?_
    | with_reducible refine Rel.keeps_ite (fun _ => ?_) fun _ => ?_
    | dsimp only

theorem keeps_Req_readNat (H : AccessRel R) (r : Req) (a n : Nat) : R.Keeps (Req.readNat r a n) := by
  unfold Req.readNat
  repeat' first
    | with_reducible exact Rel.keeps_pure _
    | with_reducible exact keeps_Req_read H _ _ _
    | with_reducible refine Rel.keeps_bind ?_ fun _ => ?_
    | with_reducible refine Rel.keeps_ite (fun _ => ?_) fun _ => ?_
    | dsimp only

theorem keeps_Req_gather (H : AccessRel R) (r : Req) (as : List Nat) : R.Keeps (Req.gather r as) := by
  unfold Req.gather
  repeat' first
    | with_reducible exact Rel.keeps_pure _
    | with_reducible exact keeps_Req_readPiece H _ _ _ _
    | with_reducible refine Rel.keeps_bind ?_ fun _ => ?_
    | with_reducible refine Rel.keeps_ite (fun _ => ?_) fun _ => ?_
    | with_reducible refine Rel.keeps_mapAll fun _ _ => ?_
    | dsimp only

theorem keeps_pccRead (H : AccessRel R) (p : PartId) (who : Who) (a n : Nat) : R.Keeps (pccRead p who a n) := by
  unfold pccRead
  repeat' first
    | with_reducible exact Rel.keeps_pure _
    | with_reducible exact Rel.keeps_get
    | with_reducible exact Rel.keeps_fail _
    | with_reducible exact keeps_mcReadOp H _ _ _ _ _ _ _
    | with_reducible exact keeps_sysAccess H _ _ _ _ _ _
    | with_reducible exact keeps_checkOpen H _ _
    | with_reducible exact keeps_passAlone H _
    | with_reducible refine Rel.keeps_bind ?_ fun _ => ?_
    | with_reducible refine Rel.keeps_ite (fun _ => ?_) fun _ => ?_
    | split
    | dsimp only

theorem keeps_checkCore (H : AccessRel R) (p : PartId) (who : Who) (q : PartId) : R.Keeps (checkCore p who q) := by
  unfold checkCore
  repeat' first
    | with_reducible exact Rel.keeps_pure _
    | with_reducible exact Rel.keeps_get
    | with_reducible exact Rel.keeps_fail _
    | with_reducible exact keeps_checkOpen H _ _
    | with_reducible refine Rel.keeps_bind ?_ fun _ => ?_
    | with_reducible refine Rel.keeps_ite (fun _ => ?_) fun _ => ?_
    | split
    | dsimp only

theorem keeps_pccWrite (H : AccessRel R) (p : PartId) (who : Who) (a : Nat) (bs : List Byte) : R.Keeps (pccWrite p who a bs) := by
  unfold pccWrite
  repeat' first
    | with_reducible exact Rel.keeps_pure _
    | with_reducible exact Rel.keeps_get
    | with_reducible exact Rel.keeps_fail _
    | with_reducible exact keeps_mcWriteOp H _ _ _ _ _ _
    | with_reducible exact keeps_sysAccess H _ _ _ _ _ _
    | with_reducible exact keeps_passAlone H _
    | with_reducible exact keeps_checkCore H _ _ _
    | with_reducible refine Rel.keeps_bind ?_ fun _ => ?_
    | with_reducible refine Rel.keeps_ite (fun _ => ?_) fun _ => ?_
    | split
    | dsimp only

theorem keeps_pccPost (H : AccessRel R) (p : PartId) (who : Who) (a : Nat) (bs : List Byte) : R.Keeps (pccPost p who a bs) := by
  unfold pccPost
  repeat' first
    | with_reducible exact Rel.keeps_pure _
    | with_reducible exact keeps_pccWrite H _ _ _ _
    | with_reducible refine Rel.keeps_bind ?_ fun _ => ?_
    | with_reducible refine Rel.keeps_ite (fun _ => ?_) fun _ => ?_
    | with_reducible refine Rel.keeps_attempt ?_
    | dsimp only

theorem keeps_respond (H : AccessRel R) (m : M (List Byte)) (h_m : R.Keeps m) : R.Keeps (respond m) := by
  unfold respond
  repeat' first
    | assumption
    | with_reducible exact Rel.keeps_pure _
    | ((with_reducible refine Rel.keeps_modify (fun s => ?_)); exact H.resp _ _)
    | with_reducible refine Rel.keeps_bind ?_ fun _ => ?_
    | with_reducible refine Rel.keeps_ite (fun _ => ?_) fun _ => ?_
    | with_reducible refine Rel.keeps_catchErr ?_
    | split
    | dsimp only
    | (with_reducible apply h_m)

theorem keeps_respondWith (H : AccessRel R) (bs : List Byte) (code : Nat) : R.Keeps (respondWith bs code) := by
  unfold respondWith
  repeat' first
    | with_reducible exact Rel.keeps_pure _
    | ((with_reducible refine Rel.keeps_modify (fun s => ?_)); exact H.resp _ _)
    | with_reducible refine Rel.keeps_bind ?_ fun _ => ?_
    | with_reducible refine Rel.keeps_ite (fun _ => ?_) fun _ => ?_
    | split
    | dsimp only

theorem keeps_spdUpset (H : AccessRel R) (g : TileId) (addr : Nat) (flips : List Flip) : R.Keeps (spdUpset g addr flips) := by
  unfold spdUpset
  repeat' first
    | with_reducible exact Rel.keeps_pure _
    | ((with_reducible refine keeps_modSpd_of H ?_ ?_) <;> first | exact fun x h => h | exact fun x h => putCodeword_data _ _ _ h | exact fun x h => putCodeword_chk _ _ _ h | exact fun x h => flip_data _ _ _ h | exact fun x h => flip_chk _ _ _ h | exact fun x h => (putDatas_wf _ _ _ x).1 h | exact fun x h => (putDatas_wf _ _ _ x).2 h | exact fun x h => flip_data _ _ _ (putCodeword_data _ _ _ h) | exact fun x h => flip_chk _ _ _ (putCodeword_chk _ _ _ h))
    | with_reducible refine Rel.keeps_bind ?_ fun _ => ?_
    | with_reducible refine Rel.keeps_ite (fun _ => ?_) fun _ => ?_
    | split
    | dsimp only

theorem keeps_spdWord (H : AccessRel R) (g : TileId) (cls addr : Nat) (acc : Access) (path : Path) (rivals : List Rival) (flips : List Flip) : R.Keeps (spdWord g cls addr acc path rivals flips) := by
  unfold spdWord
  repeat' first
    | with_reducible exact Rel.keeps_pure _
    | with_reducible exact Rel.keeps_get
    | with_reducible exact keeps_spdRefuse H _ _ _ _ _
    | with_reducible exact keeps_bankReady H _ _ _
    | with_reducible exact keeps_passArbiters H _ _ _
    | with_reducible exact keeps_bankAccess H _ _ _ _ _ _
    | with_reducible exact keeps_Req_read H _ _ _
    | with_reducible exact keeps_Req_write H _ _ _
    | with_reducible exact keeps_spdUpset H _ _ _
    | with_reducible refine Rel.keeps_bind ?_ fun _ => ?_
    | with_reducible refine Rel.keeps_ite (fun _ => ?_) fun _ => ?_
    | split
    | dsimp only

theorem keeps_tryWord (_H : AccessRel R) (m : M (List Byte)) (h_m : R.Keeps m) : R.Keeps (tryWord m) := by
  refine ⟨fun s => ?_⟩
  have h := h_m.run s
  unfold M.after at *
  unfold tryWord
  cases e : m s with
  | ok a s' => rw [e] at h; exact h
  | error x s' =>
    rw [e] at h
    cases x with
    | wait => exact R.refl s
    | err c => exact h

theorem keeps_respondAnswer (H : AccessRel R) (cls : Nat) (zeros : List Byte) (r : Nat × List Byte) : R.Keeps (respondAnswer cls zeros r) := by
  unfold respondAnswer
  repeat' first
    | with_reducible exact Rel.keeps_pure _
    | with_reducible exact keeps_respondWith H _ _
    | with_reducible refine Rel.keeps_bind ?_ fun _ => ?_
    | with_reducible refine Rel.keeps_ite (fun _ => ?_) fun _ => ?_
    | split
    | dsimp only

theorem keeps_heldOrAnswered (H : AccessRel R) (g : TileId) (h : HeldAccess) (got : List (Option (Nat × List Byte))) : R.Keeps (heldOrAnswered g h got) := by
  unfold heldOrAnswered
  repeat' first
    | with_reducible exact Rel.keeps_pure _
    | with_reducible exact keeps_respondAnswer H _ _ _
    | ((with_reducible refine keeps_modSpd_of H ?_ ?_) <;> first | exact fun x h => h | exact fun x h => putCodeword_data _ _ _ h | exact fun x h => putCodeword_chk _ _ _ h | exact fun x h => flip_data _ _ _ h | exact fun x h => flip_chk _ _ _ h | exact fun x h => (putDatas_wf _ _ _ x).1 h | exact fun x h => (putDatas_wf _ _ _ x).2 h | exact fun x h => flip_data _ _ _ (putCodeword_data _ _ _ h) | exact fun x h => flip_chk _ _ _ (putCodeword_chk _ _ _ h))
    | with_reducible refine Rel.keeps_bind ?_ fun _ => ?_
    | with_reducible refine Rel.keeps_ite (fun _ => ?_) fun _ => ?_
    | split
    | dsimp only

theorem keeps_heldAccess (H : AccessRel R) (g : TileId) (port cls addr : Nat) (acc : Access) (word : Nat × Nat → M (List Byte)) (h_word : ∀ a0, R.Keeps (word a0)) : R.Keeps (heldAccess g port cls addr acc word) := by
  unfold heldAccess
  repeat' first
    | assumption
    | with_reducible exact Rel.keeps_pure _
    | with_reducible refine keeps_tryWord H _ ?_
    | with_reducible exact keeps_heldOrAnswered H _ _ _
    | with_reducible refine Rel.keeps_bind ?_ fun _ => ?_
    | with_reducible refine Rel.keeps_ite (fun _ => ?_) fun _ => ?_
    | with_reducible refine Rel.keeps_mapAll fun _ _ => ?_
    | dsimp only
    | (with_reducible apply h_word)

theorem keeps_heldWord (H : AccessRel R) (g : TileId) (h : HeldAccess) (p : Nat × Nat) : R.Keeps (heldWord g h p) := by
  unfold heldWord
  repeat' first
    | with_reducible exact Rel.keeps_pure _
    | with_reducible exact keeps_bankReady H _ _ _
    | with_reducible exact keeps_passArbiters H _ _ _
    | with_reducible exact keeps_bankAccess H _ _ _ _ _ _
    | with_reducible refine Rel.keeps_bind ?_ fun _ => ?_
    | with_reducible refine Rel.keeps_ite (fun _ => ?_) fun _ => ?_
    | dsimp only

theorem keeps_Req_word (H : AccessRel R) (r : Req) (a : Nat) (acc : Access) (p : Nat × Nat) : R.Keeps (Req.word r a acc p) := by
  unfold Req.word
  repeat' first
    | with_reducible exact Rel.keeps_pure _
    | with_reducible exact keeps_Req_readPiece H _ _ _ _
    | with_reducible exact keeps_Req_writePiece H _ _ _
    | with_reducible exact keeps_Req_read H _ _ _
    | with_reducible exact keeps_Req_write H _ _ _
    | with_reducible refine Rel.keeps_bind ?_ fun _ => ?_
    | with_reducible refine Rel.keeps_ite (fun _ => ?_) fun _ => ?_
    | split
    | dsimp only

theorem keeps_traceAdvance (H : AccessRel R) (p : PartId) : R.Keeps (traceAdvance p) := by
  unfold traceAdvance
  repeat' first
    | with_reducible exact Rel.keeps_pure _
    | with_reducible exact Rel.keeps_get
    | with_reducible exact Rel.keeps_rd _ _
    | ((with_reducible refine Rel.keeps_wr (fun s => ?_)); first | exact H.mcPage _ _ _ _ | exact H.spdPage _ _ _ | exact H.accPage _ _ _ | exact H.ringPage _ _ _ _ (by decide))
    | ((with_reducible refine Rel.keeps_cnt (fun s => ?_)); first | exact H.mcPage _ _ _ _ | exact H.spdPage _ _ _ | exact H.accPage _ _ _ | exact H.ringPage _ _ _ _ (by decide))
    | with_reducible refine Rel.keeps_bind ?_ fun _ => ?_
    | with_reducible refine Rel.keeps_ite (fun _ => ?_) fun _ => ?_
    | split
    | dsimp only

theorem keeps_traceEvent (H : AccessRel R) (p : PartId) (who : Who) (e : FwEvent) : R.Keeps (traceEvent p who e) := by
  unfold traceEvent
  repeat' first
    | with_reducible exact Rel.keeps_pure _
    | with_reducible exact Rel.keeps_get
    | with_reducible exact Rel.keeps_rd _ _
    | with_reducible exact keeps_pccPost H _ _ _ _
    | with_reducible exact keeps_traceAdvance H _
    | ((with_reducible refine Rel.keeps_cnt (fun s => ?_)); first | exact H.mcPage _ _ _ _ | exact H.spdPage _ _ _ | exact H.accPage _ _ _ | exact H.ringPage _ _ _ _ (by decide))
    | with_reducible refine Rel.keeps_bind ?_ fun _ => ?_
    | with_reducible refine Rel.keeps_ite (fun _ => ?_) fun _ => ?_
    | split
    | dsimp only

theorem keeps_writeEvent (H : AccessRel R) (p : PartId) (who : Who) (e : FwEvent) : R.Keeps (writeEvent p who e) := by
  unfold writeEvent
  repeat' first
    | with_reducible exact Rel.keeps_pure _
    | with_reducible exact Rel.keeps_get
    | with_reducible exact keeps_freeArg H
    | with_reducible exact keeps_pccPost H _ _ _ _
    | with_reducible exact keeps_traceEvent H _ _ _
    | ((with_reducible refine Rel.keeps_wr (fun s => ?_)); first | exact H.mcPage _ _ _ _ | exact H.spdPage _ _ _ | exact H.accPage _ _ _ | exact H.ringPage _ _ _ _ (by decide))
    | with_reducible refine Rel.keeps_bind ?_ fun _ => ?_
    | with_reducible refine Rel.keeps_ite (fun _ => ?_) fun _ => ?_
    | with_reducible refine Rel.keeps_mapAll fun _ _ => ?_
    | dsimp only

theorem keeps_writeEvents (H : AccessRel R) (p : PartId) : R.Keeps (writeEvents p) := by
  unfold writeEvents
  repeat' first
    | with_reducible exact Rel.keeps_pure _
    | with_reducible exact Rel.keeps_rd _ _
    | with_reducible exact Rel.keeps_getPart _
    | with_reducible exact keeps_writeEvent H _ _ _
    | ((with_reducible refine Rel.keeps_modPart (fun s => ?_)); exact H.events _ _ _)
    | with_reducible refine Rel.keeps_bind ?_ fun _ => ?_
    | with_reducible refine Rel.keeps_ite (fun _ => ?_) fun _ => ?_
    | with_reducible refine Rel.keeps_forAll fun _ _ => ?_
    | split
    | dsimp only

theorem keeps_postAll (H : AccessRel R) (event sev err arg : Nat) : R.Keeps (postAll event sev err arg) := by
  unfold postAll
  repeat' first
    | with_reducible exact Rel.keeps_pure _
    | with_reducible exact keeps_postRunning H _ _ _ _ _
    | with_reducible refine Rel.keeps_bind ?_ fun _ => ?_
    | with_reducible refine Rel.keeps_ite (fun _ => ?_) fun _ => ?_
    | with_reducible refine Rel.keeps_forAll fun _ _ => ?_
    | dsimp only

theorem keeps_mcRefuse (H : AccessRel R) (p : PartId) (cls off : Nat) (path : Path) : R.Keeps (mcRefuse p cls off path) := by
  unfold mcRefuse
  repeat' first
    | with_reducible exact Rel.keeps_pure _
    | with_reducible exact Rel.keeps_fail _
    | with_reducible exact keeps_spdLog H _ _ _ _ _
    | with_reducible refine Rel.keeps_bind ?_ fun _ => ?_
    | with_reducible refine Rel.keeps_ite (fun _ => ?_) fun _ => ?_
    | split
    | dsimp only

theorem keeps_mcRequest (H : AccessRel R) (p : PartId) (cls off n : Nat) (path : Path) (m : M α) (h_m : R.Keeps m) : R.Keeps (mcRequest p cls off n path m : M α) := by
  unfold mcRequest
  repeat' first
    | assumption
    | with_reducible exact Rel.keeps_pure _
    | with_reducible exact Rel.keeps_get
    | with_reducible exact Rel.keeps_fail _
    | with_reducible exact keeps_passArbiters H _ _ _
    | with_reducible exact keeps_mcRefuse H _ _ _ _
    | with_reducible refine Rel.keeps_bind ?_ fun _ => ?_
    | with_reducible refine Rel.keeps_ite (fun _ => ?_) fun _ => ?_
    | split
    | dsimp only
    | (with_reducible apply h_m)

/-! ### Relations that accesses respect -/

/-- What `f` gives is kept. -/
def Rel.same {β : Type} (f : State → β) : Rel where
  rel s t := f t = f s
  refl _ := rfl
  trans _ _ _ h k := k.trans h

/-- Fields of pages, but for the controllers', the scratchpads', the accumulators' and the three of the rings. -/
theorem accessRel_regs {P : PageId → Fld → Prop} (h1 : ∀ p c f, ¬P (.mc p c) f) (h2 : ∀ g f, ¬P (.tile g .spd) f)
    (h3 : ∀ g f, ¬P (.tile g .acc) f)
    (h4 : ∀ p f, P (.pctl p) f → f.key ≠ PCTL.LG_HEAD.key ∧ f.key ≠ PCTL.TR_HEAD.key ∧ f.key ≠ PCTL.TR_LOST.key) :
    AccessRel (Rel.regs P) where
  mcPage s p c b i f hp := by
    unfold State.reg; rw [State.bank_setBank, if_neg]; rintro rfl; exact h1 _ _ _ hp
  spdPage s g b i f hp := by
    unfold State.reg; rw [State.bank_setBank, if_neg]; rintro rfl; exact h2 _ _ hp
  accPage s g b i f hp := by
    unfold State.reg; rw [State.bank_setBank, if_neg]; rintro rfl; exact h3 _ _ hp
  ringPage s p f v hf := by
    apply Rel.regs_setReg
    intro g hg
    obtain ⟨k1, k2, k3⟩ := h4 p g hg
    rcases hf with rfl | rfl | rfl
    · exact k1
    · exact k2
    · exact k3
  ctl s p c m hb _ := by
    have := (Rel.regs_setCtl (P := P) (p := p) (c := c) (f := fun x => { m with bank := x.bank }) (fun _ => rfl)).run s
    have e : ({ m with bank := ((s.part p).ctl c).bank } : MemCtl) = m := by rw [← hb]
    have k : (modCtl p c fun x => { m with bank := x.bank }).after s =
        s.setPart p ((s.part p).setCtl c { m with bank := ((s.part p).ctl c).bank }) := rfl
    rw [k, e] at this
    exact this
  spd s g x _ _ i f _ := State.reg_setTile s g _ i f rfl
  acc s g b x _ i f _ := State.reg_setTile s g _ i f (by unfold Tile.setAcc; split <;> rfl)
  books s g x _ _ i f _ := State.reg_setTile s g _ i f rfl
  progress s g n i f _ := State.reg_setTile s g _ i f rfl
  sys s y := Rel.regs_withSys s y
  arb s l i f _ := State.reg_setEng s _ i f ⟨rfl, rfl, rfl, rfl⟩
  events s p e i f _ := State.reg_setPart s p _ i f ⟨rfl, rfl, rfl⟩
  models s m i f _ := State.reg_setEng s _ i f ⟨rfl, rfl, rfl, rfl⟩
  faultLog s m i f _ := State.reg_setEng s _ i f ⟨rfl, rfl, rfl, rfl⟩
  fresh _ _ _ _ _ := rfl
  resp _ _ _ _ _ := rfl

/-- The queue of commands and the assembly variant. -/
theorem accessRel_queue : AccessRel Rel.queue where
  mcPage _ _ _ _ := ⟨rfl, rfl⟩
  spdPage _ _ _ := ⟨rfl, rfl⟩
  accPage _ _ _ := ⟨rfl, rfl⟩
  ringPage _ _ _ _ _ := ⟨rfl, rfl⟩
  ctl _ _ _ _ _ _ := ⟨rfl, rfl⟩
  spd _ _ _ _ _ := ⟨rfl, rfl⟩
  acc _ _ _ _ _ := ⟨rfl, rfl⟩
  books _ _ _ _ _ := ⟨rfl, rfl⟩
  progress _ _ _ := ⟨rfl, rfl⟩
  sys _ _ := ⟨rfl, rfl⟩
  arb _ _ := ⟨rfl, rfl⟩
  events _ _ _ := ⟨rfl, rfl⟩
  models _ _ := ⟨rfl, rfl⟩
  faultLog _ _ := ⟨rfl, rfl⟩
  fresh _ _ := ⟨rfl, rfl⟩
  resp _ _ := ⟨rfl, rfl⟩

/-- The canonical form of every memory. -/
theorem accessRel_memWf : AccessRel Rel.memWf where
  mcPage s _ _ _ := Rel.memWf_of_eq (State.memories_setBank s _ _)
  spdPage s _ _ := Rel.memWf_of_eq (State.memories_setBank s _ _)
  accPage s _ _ := Rel.memWf_of_eq (State.memories_setBank s _ _)
  ringPage s _ _ _ _ := Rel.memWf_of_eq (State.memories_setBank s _ _)
  ctl s p c m _ hm := by
    refine Rel.memWf_setPart s p _ fun h d => ?_
    rw [Part.ctl_setCtl]
    split
    · exact hm (h c)
    · exact h d
  spd s g x hd hc := by
    refine Rel.memWf_setTile s g _ fun h => ?_
    simp only [Tile.memories, List.mem_cons, List.not_mem_nil, or_false, forall_eq_or_imp, forall_eq] at h ⊢
    exact ⟨hd h.1, hc h.2.1, h.2.2⟩
  acc s g b x hx := by
    refine Rel.memWf_setTile s g _ fun h => ?_
    unfold Tile.setAcc Tile.acc at *
    simp only [Tile.memories, List.mem_cons, List.not_mem_nil, or_false, forall_eq_or_imp, forall_eq] at h ⊢
    split <;> simp_all
  books s g x hm hl := by
    refine Rel.memWf_setTile s g _ fun h => ?_
    simp only [Tile.memories, List.mem_cons, List.not_mem_nil, or_false, forall_eq_or_imp, forall_eq] at h ⊢
    exact ⟨h.1, h.2.1, h.2.2.1, h.2.2.2.1, h.2.2.2.2.1, h.2.2.2.2.2.1, hm h.2.2.2.2.2.2.1, hl h.2.2.2.2.2.2.2⟩
  progress s g n := Rel.memWf_setTile s g _ fun h => h
  sys s y := Rel.memWf_setEng s _ fun h1 h2 h3 h4 => ⟨h1, h2, h3, h4⟩
  arb s l := Rel.memWf_setEng s _ fun h1 h2 h3 h4 => ⟨h1, h2, h3, h4⟩
  events s p e := Rel.memWf_setPart s p _ fun h => h
  models s m := Rel.memWf_setEng s _ fun h1 h2 h3 h4 => ⟨h1, h2, h3, h4⟩
  faultLog s m := Rel.memWf_setEng s _ fun h1 h2 h3 h4 => ⟨h1, h2, h3, h4⟩
  fresh _ _ h := h
  resp _ _ h := h

/-- What a tile holds besides its pages, scratchpad, buffers and books. -/
def Tile.core (t : Tile) : ArrayMem × BitVec 64 × Seqr × Units × Option TileJob := (t.arr, t.dither, t.seq, t.units, t.job)

theorem State.tile_core_setBank (s : State) (i : PageId) (b : Bank) (g : TileId) :
    ((s.setBank i b).tile g).core = (s.tile g).core := by
  simp [Tile.core]

/-- A tile's array, dither source, sequencer, units and job. -/
theorem accessRel_tileCore (g : TileId) : AccessRel (Rel.same fun s => (s.tile g).core) where
  mcPage s _ _ _ := State.tile_core_setBank s _ _ g
  spdPage s _ _ := State.tile_core_setBank s _ _ g
  accPage s _ _ := State.tile_core_setBank s _ _ g
  ringPage s _ _ _ _ := State.tile_core_setBank s _ _ g
  ctl _ _ _ _ _ _ := rfl
  spd s h x _ _ := by
    simp only [Rel.same, State.tile_setTile]; split
    · rename_i e; subst e; rfl
    · rfl
  acc s h b x _ := by
    simp only [Rel.same, State.tile_setTile]; split
    · rename_i e; subst e; unfold Tile.setAcc; split <;> rfl
    · rfl
  books s h x _ _ := by
    simp only [Rel.same, State.tile_setTile]; split
    · rename_i e; subst e; rfl
    · rfl
  progress s h n := by
    simp only [Rel.same, State.tile_setTile]; split
    · rename_i e; subst e; rfl
    · rfl
  sys _ _ := rfl
  arb _ _ := rfl
  events _ _ _ := rfl
  models _ _ := rfl
  faultLog _ _ := rfl
  fresh _ _ := rfl
  resp _ _ := rfl

/-! ### What waking banks hold -/

/-- One read of a DRAIN's latch changes what its access changes and the tile's unit records. -/
theorem keeps_latchStep (H : AccessRel R) (hu : ∀ s g u, R.rel s (s.setTile g { s.tile g with units := u })) (g : TileId)
    (c : Active) : R.Keeps (latchStep g c) := by
  refine ⟨fun s => ?_⟩
  unfold latchStep M.after
  dsimp only
  split
  · rename_i h; split at h
    · cases h; exact R.refl s
    · split at h
      · rename_i e; cases h
        exact R.trans _ _ _ ((Rel.keeps_catchErr (keeps_Req_readPiece H (latchReq g) .r _ _)).ok e) (hu _ g _)
      · cases h; split
        · exact R.refl s
        · exact H.spd s g _ id id
  · rename_i h; split at h
    · cases h
    · split at h <;> cases h

/-- A released DRAIN's latch. -/
theorem keeps_latchDrain (H : AccessRel R) (hu : ∀ s g u, R.rel s (s.setTile g { s.tile g with units := u })) (g : TileId)
    (c : Active) : R.Keeps (latchDrain g c) := by
  unfold latchDrain
  exact Rel.keeps_ite (fun _ => Rel.keeps_repeatM (keeps_latchStep H hu g c)) fun _ => Rel.keeps_pure ()

/-- Held accesses that try again. -/
theorem keeps_spdRelease (H : AccessRel R) (hu : ∀ s g u, R.rel s (s.setTile g { s.tile g with units := u })) (g : TileId) :
    R.Keeps (spdRelease g) := by
  unfold spdRelease
  refine Rel.keeps_bind (Rel.keeps_getTile g) fun _ => ?_
  refine Rel.keeps_bind (keeps_modSpd_of H (fun _ h => h) fun _ h => h) fun _ => Rel.keeps_forAll fun h _ => ?_
  refine Rel.keeps_ite (fun _ => ?_) fun _ => ?_
  · exact Rel.keeps_bind (Rel.keeps_getTile g) fun _ => Rel.keeps_forAll fun c _ => keeps_latchDrain H hu g c
  · refine Rel.keeps_bind (Rel.keeps_mapAll fun e _ => ?_) fun _ => keeps_heldOrAnswered H _ _ _
    split
    · exact Rel.keeps_pure _
    · exact keeps_tryWord H _ (keeps_heldWord H _ _ _)

/-! ### Commands after which the running firmwares write their events -/

theorem accessRel_quiet : AccessRel (Rel.regs quietField) :=
  accessRel_regs (fun _ _ _ h => h) (fun _ _ h => h) (fun _ _ h => h) fun _ _ h => h

/-- Such a command's next state is the one its own operation leaves, but for what writing the events does. -/
theorem fwNext_rel (H : AccessRel R) (m : M Unit) (s : State) : ∃ t, fwNext m s = .next t ∧ R.rel (m.after s) t := by
  refine ⟨_, rfl, ?_⟩
  rw [after_attempt_bind]
  exact (Rel.keeps_forAll fun p _ => keeps_writeEvents H p).run _

theorem fwNext_reg (m : M Unit) (s : State) :
    ∃ t, fwNext m s = .next t ∧ ∀ i f, quietField i f → t.reg i f = (m.after s).reg i f :=
  fwNext_rel accessRel_quiet m s

end Sys2Proof.Machine
end

