-- ==== Sys2Proof/Laws/Gates.lean ====
section
/-! SUPPORT. Gates: what a gate reads after one gate has taken a new state. -/
namespace Sys2Proof.Machine

/-- A gate that exists has an index in range. -/
theorem gate_inRange {s : State} {p : PartId} {r : GateRef} (h : (s.gate p r).valid = true) : gateInRange r = true := by
  unfold State.gate at h
  unfold gateInRange
  split at h <;> split at h <;> simp_all [Gate.none_]

theorem gate_setGate (s : State) (p : PartId) (r : GateRef) (x : Gate) (h : gateInRange r = true) :
    (s.setGate p r x).gate p r = x := by
  unfold State.gate State.setGate
  unfold gateInRange at h
  by_cases hg : r.global <;> simp [hg] at h ⊢ <;> simp [h] <;> split <;> simp_all

theorem gate_setGate_ne (s : State) (p : PartId) (r r' : GateRef) (x : Gate)
    (h : r'.global ≠ r.global ∨ r'.index ≠ r.index) : (s.setGate p r x).gate p r' = s.gate p r' := by
  unfold State.gate State.setGate
  by_cases hg : r.global <;> by_cases hg' : r'.global <;> simp_all <;> rw [Assoc.look_put_ne _ _ (by simpa using h)]

/-- A gate of a partition is untouched by one of another partition. -/
theorem gate_setGate_part (s : State) (p q : PartId) (r r' : GateRef) (x : Gate) (hr : r.global = false) (h : q ≠ p) :
    (s.setGate p r x).gate q r' = s.gate q r' := by
  unfold State.gate State.setGate
  simp only [hr, State.part_setPart_ne _ _ h, Bool.false_eq_true, if_false]
  rfl

@[simp] theorem reg_setGate (s : State) (p : PartId) (r : GateRef) (x : Gate) (i : PageId) (f : Fld) :
    (s.setGate p r x).reg i f = s.reg i f := by
  unfold State.setGate
  by_cases hg : r.global
  · simp only [hg, if_true]
    cases i <;> rfl
  · simp only [hg]
    exact State.reg_setPart s p _ i f ⟨rfl, rfl, rfl⟩

@[simp] theorem tile_setGate (s : State) (p : PartId) (r : GateRef) (x : Gate) (g : TileId) :
    (s.setGate p r x).tile g = s.tile g := by
  by_cases hg : r.global <;> simp [State.setGate, hg]

@[simp] theorem pending_setGate (s : State) (p : PartId) (r : GateRef) (x : Gate) :
    (s.setGate p r x).pending = s.pending := by
  by_cases hg : r.global <;> simp [State.setGate, hg]

end Sys2Proof.Machine
end

