-- ==== Sys2Proof/Laws/Units.lean ====
section
/-! SUPPORT. Micro-operations of the array unit: a head that has begun, and an operation that answers. -/
namespace Sys2Proof.Machine

/-- A head that has begun does not begin again. -/
theorem arrayBegin_begun {s : State} {g : TileId} {c : Active} {r : ArrayRun} (h : arrayAt s g c r) :
    arrayBegin g s = .ok () s := by
  obtain ⟨h1, h2, h3⟩ := h
  simp [arrayBegin, h1, h3]

/-- A micro-operation that answers leaves what it did, less the answers that it used up. -/
theorem unitStep_ok {s s' : State} {g : TileId} {k : UnitId} {m : M Unit} (h : m s = .ok () s') :
    unitStep g k m s = .ok () (dropUsed s') := by
  have : settle m s = .ok () (dropUsed s') := by unfold settle; rw [h]
  unfold unitStep
  rw [M.bind_ok (catchErr_ok this)]
  rfl

theorem arrayAt_dropUsed {s : State} {g : TileId} {c : Active} {r : ArrayRun} (h : arrayAt s g c r) :
    arrayAt (dropUsed s) g c r := h

/-- The unit does not finish while rows are left. -/
theorem arrayFinish_not {s : State} {g : TileId} {c : Active} {r : ArrayRun} (h : arrayAt s g c r)
    (hd : r.pos.done (rowCount c.bits r) = false) : arrayFinish g s = .ok () s := by
  obtain ⟨h1, h2, h3⟩ := h
  simp [arrayFinish, arrayHead, h1, h2, hd]

/-- The array does not rest while a command runs on it. -/
theorem arrayRest_not {s : State} {g : TileId} {c : Active} {r : ArrayRun} (h : arrayAt s g c r) :
    arrayRest g s = .ok () s := by
  obtain ⟨h1, h2, h3⟩ := h
  simp [arrayRest, h2]

theorem arrayDo_ok {s s' s'' t : State} {g : TileId} {m : M Unit} (h : m s = .ok () s')
    (h2 : arrayFinish g (dropUsed s') = .ok () s'') (h3 : arrayRest g s'' = .ok () t) : arrayDo g m s = .ok () t := by
  unfold arrayDo
  rw [M.bind_ok (unitStep_ok h), M.bind_ok h2, h3]

/-- The unit is ready for the next row's work after a `begin` that had nothing to do. -/
theorem arrayDo_begun {s : State} {g : TileId} {c : Active} {r : ArrayRun} (h : arrayAt s g c r)
    (hd : r.pos.done (rowCount c.bits r) = false) : arrayDo g (arrayBegin g) s = .ok () (dropUsed s) :=
  arrayDo_ok (arrayBegin_begun h) (arrayFinish_not (arrayAt_dropUsed h) hd) (arrayRest_not (arrayAt_dropUsed h))

@[simp] theorem dropUsed_tile (s : State) (g : TileId) : (dropUsed s).tile g = s.tile g := rfl
@[simp] theorem dropUsed_part (s : State) (p : PartId) : (dropUsed s).part p = s.part p := rfl
@[simp] theorem dropUsed_port (s : State) (n : PortId) : (dropUsed s).port n = s.port n := rfl
@[simp] theorem dropUsed_pending (s : State) : (dropUsed s).pending = s.pending := rfl
@[simp] theorem dropUsed_variant (s : State) : (dropUsed s).variant = s.variant := rfl
@[simp] theorem dropUsed_reg (s : State) (i : PageId) (f : Fld) : (dropUsed s).reg i f = s.reg i f := by
  cases i <;> rfl

end Sys2Proof.Machine
end

