-- ==== Sys2Proof/Tests/Slice0.lean ====
section
/-! SUPPORT. The model's own tests: for every statement with hypotheses a witness per clause, the worked examples of the
spec, and the smoke test of WellFormed. -/
namespace Sys2Proof.Machine.Slice0Tests
set_option linter.unusedVariables false
set_option maxRecDepth 8000
set_option Elab.async false

/-- Some fields take values. -/
def regs (s : State) (l : List (PageId × Fld × Nat)) : State := l.foldl (fun s e => s.setReg e.1 e.2.1 e.2.2) s
def withGate (s : State) (p : PartId) (r : GateRef) (x : Gate) : State := s.setGate p r x
def gate0 (value cfg : Nat) : Gate := ⟨value, cfg, true, false, 3⟩
def withReqs (s : State) (l : List SysReq) : State := { s with eng := { s.eng with sys := { s.eng.sys with reqs := l } } }
def held (s : State) : State := { s with eng := { s.eng with inReset := true } }
def readReq : SysReq := ⟨7, .fw 1, 4, 1, 0x1000, 4, none, true, 3, 0, 0⟩
def writeReq : SysReq := ⟨7, .tile 3 2, 2, 3, 0x2000, 4, some (0, [1, 2, 3, 4]), true, 3, 0, 0⟩
def tile (s : State) (g : TileId) (f : Tile → Tile) : State := s.setTile g (f (s.tile g))
def part (s : State) (p : PartId) (f : Part → Part) : State := s.setPart p (f (s.part p))
def port (s : State) (n : PortId) (f : Port → Port) : State := s.setPort n (f (s.port n))
def eng (s : State) (f : Engine → Engine) : State := { s with eng := f s.eng }
/-- Region 0 of every module of a tile grants everything. -/
def opn (s : State) (g : TileId) : State :=
  s.setBank (.tile g .spd) <| (List.range 8).reverse.foldl (fun b m =>
    [(SPD.RG_LIMIT m 0, 2 ^ 34 - 1), (SPD.RG_X m 0, 1), (SPD.RG_W m 0, 1), (SPD.RG_R m 0, 1), (SPD.RG_EN m 0, 1)].foldl
      (fun b e => Bank.set b e.1.active e.2) b) (s.bank (.tile g .spd))
/-- No region grants anything. -/
def shut (s : State) (g : TileId) : State :=
  regs s <| (List.range 8).flatMap fun m => (List.range 16).map fun r => (.tile g .spd, (SPD.RG_EN m r).active, 0)
/-- Bytes in a scratchpad, with their check symbols. -/
def put (s : State) (g : TileId) (a : Nat) (bs : List Byte) : State := (bankFill g 0 a bs).after s
/-- Bytes in partition memory, with their check bytes. -/
def pput (s : State) (p : PartId) (a : Nat) (bs : List Byte) : State := (mcWriteOp p 2 a bs [] []).after s
/-- A command word with the given fields: lowest bit and value. -/
def word (l : List (Nat × Nat)) : CmdWord := BitVec.ofNat 128 (l.foldl (fun n e => n ||| e.2 <<< e.1) 0)
/-- A command that a unit holds, past its hold and begun. -/
def act (w : CmdWord) : Active := ⟨0x100, w, 5, [0], true, true, 0⟩
def run0 : ArrayRun := ⟨0, 0, [], [], ⟨0, 0, 0, 0⟩, ⟨0, 0, 0, 0⟩, none, [], [], [], none, [], 0, 0, []⟩
def val (m : M α) (s : State) (d : α) : α := match m s with | .ok a _ => a | .error _ _ => d
/-- The array unit of a tile holds `c` alone, which stands where `r` says. -/
def onArray (s : State) (g : TileId) (c : Active) (r : ArrayRun) : State :=
  tile s g fun t => { t with units := { t.units with array := [c], arrayRun := some r } }

/-- The operation answers. -/
def isOk (m : M α) (s : State) : Bool := match m s with | .ok _ _ => true | .error _ _ => false
theorem okv {m : M α} {s : State} {d : α} (h : isOk m s = true) : m s = .ok (val m s d) (m.after s) := by
  unfold isOk at h; unfold val M.after
  split at h <;> simp_all
theorem inRange {P : Nat → Prop} {lo n : Nat} (h : ∀ k, k < n → P (lo + k)) : ∀ a, lo ≤ a → a < lo + n → P a := by
  intro a ha hb
  have := h (a - lo) (by omega)
  rwa [Nat.add_sub_cancel' ha] at this
theorem replyFits_of {s : State} {p : PartId} (h : (s.part p).replies = []) (k : frFull s p = false)
    (m : (match pccTarget s.variant (ringAddr (s.reg (.pctl p) PCTL.FR_BASE) (s.reg (.pctl p) PCTL.FR_LOG2) 32
      (s.reg (.pctl p) PCTL.FR_HEAD)) with | some (.pmem _ _) => true | _ => false) = true) : replyFits s p := by
  refine ⟨h, k, ?_⟩
  split at m
  · exact ⟨_, _, by assumption⟩
  · cases m

theorem some_getD {o : Option α} {d : α} (h : o.isSome = true) : o = some (o.getD d) := by
  cases o with
  | none => cases h
  | some _ => rfl
theorem okU {m : M Unit} {s : State} (h : isOk m s = true) : m s = .ok () (m.after s) := okv (d := ()) h
theorem okX {m : M α} {s : State} {x : α} (d : α) (h : isOk m s = true) (hx : val m s d = x) : m s = .ok x (m.after s) := by
  rw [← hx]; exact okv h
/-- Some fields of one page take values. -/
def onPage (s : State) (i : PageId) (l : List (Fld × Nat)) : State :=
  s.setBank i (l.foldl (fun b e => Bank.set b e.1 e.2) (s.bank i))
/-- The outcome is a next state of which `p` holds. -/
def isNext (o : Host.Outcome State Fault Refusal) (p : State → Bool) : Bool := match o with | .next t => p t | _ => false
/-- A request's origin: its class, from tile 0 of partition 1, with nobody else at the arbiters. -/
def from_ (cls : Nat) : Origin := ⟨cls, ⟨1, 0, 0, []⟩⟩
/-- A second read without upsets, after a write-back at once. -/
def atOnce : Reread := ⟨[], false⟩

/-- The scratchpad serves the access (spdServes), as a computation over its codewords. -/
def servesB (s : State) (g : TileId) (cls : Nat) (perm : Perm) (a n : Nat) : Bool :=
  decide (0 < n) && decide (a + n ≤ 0x400000) && regionOk (s.bank (.tile g .spd)) cls perm a n &&
    (List.range ((a + n + 31) / 32 - a / 32)).all fun j =>
      bankStat s g (32 * (a / 32 + j) / 2 ^ 18) == 0 && decide (classify ((s.tile g).spd.codeword (a / 32 + j)) = .clean)
theorem spdServes_of {s : State} {g : TileId} {cls : Nat} {perm : Perm} {a n : Nat} (h : servesB s g cls perm a n = true) :
    spdServes s g cls perm a n := by
  simp only [servesB, Bool.and_eq_true, decide_eq_true_eq, List.all_eq_true, List.mem_range, beq_iff_eq] at h
  obtain ⟨⟨⟨h1, h2⟩, h3⟩, h4⟩ := h
  refine ⟨h1, h2, h3, fun x hx hy => ?_⟩
  have := h4 (x / 32 - a / 32) (by omega)
  rw [show a / 32 + (x / 32 - a / 32) = x / 32 by omega, show 32 * (x / 32) / 2 ^ 18 = x / 2 ^ 18 by omega] at this
  exact this
theorem codesServed_of {s : State} {g : TileId} {l : List (Option CodeAt)}
    (h : (l.all fun o => o.all fun x => servesB s g 1 .r x.addr 1) = true) : codesServed s g l := by
  intro x hx
  rw [List.all_eq_true] at h
  exact spdServes_of (by simpa using h _ hx)
theorem codesServed_all {s : State} {g : TileId} {n : Nat} {l : Nat → List (Option CodeAt)}
    (h : ((List.range n).all fun i => (l i).all fun o => o.all fun x => servesB s g 1 .r x.addr 1) = true) :
    ∀ i, i < n → codesServed s g (l i) := by
  intro i hi
  rw [List.all_eq_true] at h
  exact codesServed_of (h i (List.mem_range.mpr hi))
theorem pieceServed_of {s : State} {g : TileId} {d : Nat} {r : CopyRun}
    (h : r.desc = some d ∧ (r.done = 0 → liftBad d = false) ∧ LiftD.btag d = 0 ∧ r.done < LiftD.len d ∧
      LiftD.src d + LiftD.len d ≤ 0x400000 ∧ LiftD.dst d + LiftD.len d ≤ 0x400000 ∧
      (LiftD.src d + LiftD.len d ≤ LiftD.dst d ∨ LiftD.dst d + LiftD.len d ≤ LiftD.src d))
    (hr : servesB s g 4 .r (LiftD.src d + r.done) (pieceLen (LiftD.dst d) (LiftD.len d) r.done) = true)
    (hw : servesB s g 4 .w (LiftD.dst d + r.done) (pieceLen (LiftD.dst d) (LiftD.len d) r.done) = true) :
    pieceServed s g d r := by
  obtain ⟨a, b, c, d, e, f, k⟩ := h
  exact ⟨a, b, c, d, e, f, k, spdServes_of hr, spdServes_of hw⟩

namespace W1



theorem witness_SystemPort :
    (∃ (s : State) (id : Nat) (r : SysReq), ((s.eng.sys.reqs.find? fun r => r.id = id && r.handed) = some r)) ∧
    (∃ (s : State) (id : Nat) (r : SysReq) (d : Nat × List Byte), ((s.eng.sys.reqs.find? fun r => r.id = id && r.handed) = some r) ∧ (r.data = some d)) ∧
    (∃ (s : State) (id : Nat) (r : SysReq) (bs : List Byte), ((s.eng.sys.reqs.find? fun r => r.id = id && r.handed) = some r) ∧ (r.data = none) ∧ (bs.length = r.len)) ∧
    (∃ (s : State) (w : SysReq), (s.eng.sys.held = none) ∧ (sysWinner s.eng.sys = some w) ∧ (s.reg .eng ENG.SYS_GRANT ≠ 0)) ∧
    (∃ (s : State) (w : SysReq), (s.eng.sys.held = none) ∧ (sysWinner s.eng.sys = some w)) ∧
    (∃ (s : State) (id : Nat), (s.eng.sys.held = some id) ∧ (s.reg .eng ENG.SYS_GRANT ≠ 0)) :=
  ⟨⟨(withReqs State.reset [readReq]), 7, readReq, by decide +kernel⟩,
   ⟨(withReqs State.reset [writeReq]), 7, writeReq, (0, [1, 2, 3, 4]), by refine ⟨?_, ?_⟩ <;> decide +kernel⟩,
   ⟨(withReqs State.reset [readReq]), 7, readReq, [1, 2, 3, 4], by refine ⟨?_, ?_, ?_⟩ <;> decide +kernel⟩,
   ⟨(regs (eng (withReqs State.reset [{ readReq with handed := false }]) fun e => { e with sys := { e.sys with held := none } }) [(.eng, ENG.SYS_GRANT, 5)]), { readReq with handed := false }, by refine ⟨?_, ?_, ?_⟩ <;> decide +kernel⟩,
   ⟨(eng (withReqs State.reset [{ readReq with handed := false }]) fun e => { e with sys := { e.sys with held := none } }), { readReq with handed := false }, by refine ⟨?_, ?_⟩ <;> decide +kernel⟩,
   ⟨(regs (eng (withReqs State.reset [{ readReq with handed := false }]) fun e => { e with sys := { e.sys with held := some 7 } }) [(.eng, ENG.SYS_GRANT, 5)]), 7, by refine ⟨?_, ?_⟩ <;> decide +kernel⟩⟩

theorem witness_EmergencyLevels :
    (∃ (s : State) (l : Fin 4), (s.eng.inReset = false) ∧ (s.reg .pwr PWR.EMG_LEVEL < l.val)) ∧
    (∃ (s : State) (l : Fin 4), (s.eng.inReset = false) ∧ (l.val < s.reg .pwr PWR.EMG_LEVEL)) ∧
    (∃ (s : State) (p : PartId), (s.eng.inReset = false) ∧ (s.reg .pwr PWR.EMG_LEVEL = 0) ∧ (s.eng.activating = some p)) ∧
    (∃ (s : State) (l : Fin 4), ((∀ p, (s.part p).events = [])) ∧ (l.val ≤ s.reg .pwr PWR.EMG_LEVEL)) ∧
    (∃ (s : State) (l : Fin 4), ((∀ p, (s.part p).events = [])) ∧ (s.reg .pwr PWR.EMG_LEVEL ≤ l.val)) :=
  ⟨⟨(regs State.reset [(.pwr, PWR.EMG_LEVEL, 0)]), 1, by refine ⟨?_, ?_⟩ <;> decide +kernel⟩,
   ⟨(regs State.reset [(.pwr, PWR.EMG_LEVEL, 3), (.pwr, PWR.EMG_DONE, 3)]), 0, by refine ⟨?_, ?_⟩ <;> decide +kernel⟩,
   ⟨(eng (regs State.reset [(.pwr, PWR.EMG_LEVEL, 0)]) fun e => { e with activating := some 2 }), 2, by refine ⟨?_, ?_, ?_⟩ <;> decide +kernel⟩,
   ⟨(regs State.reset [(.pwr, PWR.EMG_LEVEL, 2)]), 2, by refine ⟨?_, ?_⟩ <;> decide +kernel⟩,
   ⟨(regs State.reset [(.pwr, PWR.EMG_LEVEL, 2)]), 2, by refine ⟨?_, ?_⟩ <;> decide +kernel⟩⟩

theorem witness_PowerPage :
    (∃ (s : State), (s.eng.inReset = false)) ∧
    (∃ (s : State), (s.eng.inReset = true)) :=
  ⟨⟨State.reset, by decide +kernel⟩,
   ⟨(held State.reset), by decide +kernel⟩⟩

theorem witness_TileGatingAndWake :
    (∃ (s : State) (g : TileId), (s.eng.inReset = false) ∧ (gateBit s g = true) ∧ ((s.reg .pwr (PWR.TILE_GATED (partOf g).val)).testBit (localOf g) = false) ∧ (betweenJobs s g = true) ∧ (offered s g = false)) ∧
    (∃ (s : State) (g : TileId), (s.eng.inReset = false) ∧ ((s.reg .pwr (PWR.TILE_GATED (partOf g).val)).testBit (localOf g) = true) ∧ (gateBit s g = false)) :=
  ⟨⟨(regs State.reset [(.pwr, PWR.TILE_GATE 1, 8), (.pwr, PWR.TILE_GATED 1, 0), (.tile 15 .tl, TL.STATE, 0)]), 15, by refine ⟨?_, ?_, ?_, ?_, ?_⟩ <;> decide +kernel⟩,
   ⟨(regs State.reset [(.pwr, PWR.TILE_GATE 1, 0), (.pwr, PWR.TILE_GATED 1, 8)]), 15, by refine ⟨?_, ?_, ?_⟩ <;> decide +kernel⟩⟩

theorem witness_OscillatorCalibration :
    (∃ (s : State) (p : PartId), (s.reg .dlw (DLW.STATE p.val) = PState.reset)) ∧
    (∃ (s : State) (n : PortId), (n.val < s.variant.ports)) :=
  ⟨⟨(regs State.reset [(.dlw, DLW.STATE 2, 3)]), 2, by decide +kernel⟩,
   ⟨State.reset, 0, by decide +kernel⟩⟩

theorem witness_GateSignals :
    (∃ (s : State) (p : PartId) (cls : SrcClass) (gate : GateRef) (inc : BitVec 32), (pageWritable s (.qmg p) = true) ∧ (inc ≠ 0) ∧ ((s.gate p gate).valid = true) ∧ ((classSignaler cls).allowed (s.gate p gate).cfg gate.global = true)) ∧
    (∃ (s : State) (p : PartId) (cls : SrcClass) (gate : GateRef) (inc : BitVec 32), (pageWritable s (.qmg p) = true) ∧ (inc ≠ 0) ∧ ((s.gate p gate).valid = true) ∧ ((classSignaler cls).allowed (s.gate p gate).cfg gate.global = false)) ∧
    (∃ (s : State) (p : PartId) (gate : GateRef) (inc : BitVec 32), (inc = 0 ∨ (s.gate p gate).valid = false ∨ pageWritable s (.qmg p) = false)) :=
  ⟨⟨(withGate State.reset 1 ⟨3, false⟩ (gate0 5 0x100000)), 1, .host, ⟨3, false⟩, 9, by refine ⟨?_, ?_, ?_, ?_⟩ <;> decide +kernel⟩,
   ⟨(withGate State.reset 1 ⟨3, false⟩ (gate0 5 0)), 1, .host, ⟨3, false⟩, 9, by refine ⟨?_, ?_, ?_, ?_⟩ <;> decide +kernel⟩,
   ⟨State.reset, 1, ⟨3, false⟩, 0, by decide +kernel⟩⟩

theorem witness_GateOperations :
    (∃ (s : State) (p : PartId) (gate : GateRef), (pageWritable s (.qmg p) = true) ∧ (gateInRange gate = true) ∧ ((s.gate p gate).valid = false) ∧ (cfgBad (fwArg2 s p) gate.global = false)) ∧
    (∃ (s : State) (p : PartId) (gate : GateRef), (pageWritable s (.qmg p) = true) ∧ ((s.gate p gate).valid = true) ∧ (gateInUse s p gate = false)) ∧
    (∃ (s : State) (p : PartId) (gate : GateRef), (pageWritable s (.qmg p) = true) ∧ ((s.gate p gate).valid = true)) ∧
    (∃ (s : State) (p : PartId) (cls : SrcClass) (gate : GateRef) (c : Instr), (pageWritable s (.qmg p) = true) ∧ (cls ≠ .fw) ∧ (c ∈ [Instr.create p cls gate, .destroy p cls gate, .set p cls gate, .clrErr p cls gate, .setErr p cls gate])) :=
  ⟨⟨(regs State.reset [(.qmg 1, QMG.GT_ARG 2, 77), (.qmg 1, QMG.GT_ARG2 2, 0x100001)]), 1, ⟨1023, false⟩, by refine ⟨?_, ?_, ?_, ?_⟩ <;> decide +kernel⟩,
   ⟨(withGate State.reset 1 ⟨3, false⟩ (gate0 5 0)), 1, ⟨3, false⟩, by refine ⟨?_, ?_, ?_⟩ <;> decide +kernel⟩,
   ⟨(withGate State.reset 1 ⟨3, false⟩ (gate0 5 0)), 1, ⟨3, false⟩, by refine ⟨?_, ?_⟩ <;> decide +kernel⟩,
   ⟨State.reset, 1, .host, ⟨3, false⟩, (.set 1 .host ⟨3, false⟩), by refine ⟨?_, ?_, ?_⟩ <;> decide +kernel⟩⟩

end W1

namespace W2
def fp (b : State) : State := pput b 1 0x1010 [1, 2, 3, 4]
def off1 (b : State) : State := part (fp b) 1 fun x => x.setCtl (interleave b.variant 0x1000).1 { x.ctl (interleave b.variant 0x1000).1 with mem := (x.ctl (interleave b.variant 0x1000).1).mem.write ((interleave b.variant 0x1000).2 + 0x11) [10] }
def sp (b : State) : State := put (opn b 5) 5 0x110 [1, 2, 3, 4]
def bent (b : State) : State := (spdUpset 5 0x100 [⟨2, 8⟩]).after (sp b)


theorem witness_MemoryReadsAndWrites :
    (∃ (s : State) (p : PartId) (src : Origin) (off len : Nat), ((fromOutside p src.cls src.path = true → open_ s p = true)) ∧ (off + len ≤ s.variant.capacity) ∧ (burstsClean s p off len)) ∧
    (∃ (s : State) (p : PartId) (src : Origin) (off len pos v : Nat) (again : Reread), ((fromOutside p src.cls src.path = true → open_ s p = true)) ∧ (0 < len) ∧ (off % 64 + len ≤ 64) ∧ (off + len ≤ s.variant.capacity) ∧ ((∀ c, ((s.part p).ctl c).fixups = [])) ∧ (again.flips = []) ∧ 
      let x := interleave s.variant (off - off % 64)
      
      let w := ((s.part p).ctl x.1).burst x.2
      (classify w = .one pos v)) ∧
    (∃ (s : State) (p : PartId) (src : Origin) (off len : Nat) (bs : List Byte), (fromOutside p src.cls src.path = true) ∧ (open_ s p = false) ∧ (src.cls = 6 ∨ src.cls = 7 ∨ off + len ≤ s.variant.capacity) ∧ (bs.length = len)) ∧
    (∃ (s : State) (p : PartId) (src : Origin) (off len : Nat) (bs : List Byte) (fl : List Flip) (again : Reread) (i : Instr), ((src.cls = 6 ∨ src.cls = 7 → open_ s p = true)) ∧ (s.variant.capacity < off + len) ∧ (bs.length = len) ∧ (i = .mcRead p src off len fl again ∨ i = .mcWrite p src off bs fl fl)) ∧
    (∃ (s : State) (p : PartId) (src : Origin) (off : Nat) (bs : List Byte), ((fromOutside p src.cls src.path = true → open_ s p = true)) ∧ (off + bs.length ≤ s.variant.capacity) ∧ (bs ≠ []) ∧ (off % 64 + bs.length ≤ 64) ∧ ((∀ c, ((s.part p).ctl c).fixups = [])) ∧ ((bs.length = 64 ∨
      classify (((s.part p).ctl (interleave s.variant (off - off % 64)).1).burst (interleave s.variant (off - off % 64)).2) = .clean))) :=
  ⟨⟨(fp State.reset), 1, (from_ 2), 0x1010, 5, by refine ⟨?_, ?_, by unfold burstsClean; decide +kernel⟩ <;> decide +kernel⟩,
   ⟨(off1 State.reset), 1, (from_ 2), 0x1010, 5, 49, 8, atOnce, by refine ⟨?_, ?_, ?_, ?_, ?_, ?_, ?_⟩ <;> decide +kernel⟩,
   ⟨(regs State.reset [(.dlw, DLW.STATE 1, 1)]), 1, (from_ 6), 0, 1, [1], by refine ⟨?_, ?_, ?_, ?_⟩ <;> decide +kernel⟩,
   ⟨State.reset, 1, (from_ 2), 16361779100, 101, (List.replicate 101 1), [], atOnce, (.mcRead 1 (from_ 2) 16361779100 101 [] atOnce), by refine ⟨?_, ?_, ?_, ?_⟩ <;> decide +kernel⟩,
   ⟨(fp State.reset), 1, (from_ 6), 0x1004, [9, 8, 7], by refine ⟨?_, ?_, ?_, ?_, ?_, ?_⟩ <;> decide +kernel⟩⟩

theorem witness_MemoryAtomicAndHistory :
    (∃ (s : State) (p : PartId) (src : Origin) (off : Nat) (adds : Addends), ((fromOutside p src.cls src.path = true → open_ s p = true)) ∧ (off + 1 ≤ s.variant.capacity) ∧ (adds.flips = []) ∧ ((∀ c, ((s.part p).ctl c).fixups = [])) ∧ 
      let v := interleave s.variant (off / 64 * 64)
      (classify (((s.part p).ctl v.1).burst v.2) = .clean)) ∧
    (∃ (s : State) (p : PartId) (off : Nat) (l : HistoryPush), ((fromOutside p 2 l.path = true → open_ s p = true)) ∧ (off % 4 = 0) ∧ (off + 4 ≤ s.variant.capacity) ∧ (l.flips = []) ∧ ((∀ c, ((s.part p).ctl c).fixups = [])) ∧ 
      let v := interleave s.variant (off / 64 * 64)
      (classify (((s.part p).ctl v.1).burst v.2) = .clean)) :=
  ⟨⟨(fp State.reset), 1, (from_ 2), 0x1004, ⟨[some 1, none, some 0x80000000], [], []⟩, by refine ⟨?_, ?_, ?_, ?_, ?_⟩ <;> decide +kernel⟩,
   ⟨(fp State.reset), 1, 0x1004, ⟨7, ⟨1, 0, 0, []⟩, [], []⟩, by refine ⟨?_, ?_, ?_, ?_, ?_, ?_⟩ <;> decide +kernel⟩⟩

theorem witness_MemoryUpkeep :
    (∃ (s : State) (p : PartId) (c : Fin 2), (c.val < s.variant.groups) ∧ (s.reg (.mc p c) MC.SCRUB_EN = 1) ∧ (s.reg (.mc p c) MC.SCRUB_POS < dataGroups)) ∧
    (∃ (s : State) (c : Fin 2), (c.val < s.variant.groups)) :=
  ⟨⟨(regs State.reset [(.mc 1 0, MC.SCRUB_EN, 1), (.mc 1 0, MC.SCRUB_POS, 5)]), 1, 0, by refine ⟨?_, ?_, ?_⟩ <;> decide +kernel⟩,
   ⟨State.reset, 0, by decide +kernel⟩⟩

theorem witness_ScratchpadReads :
    (∃ (s : State) (g : TileId) (src : Origin) (addr len : Nat) (rivals : List Rival), ((src.cls = 6 ∨ src.cls = 7 → open_ s (partOf g) = true)) ∧ (0 < len) ∧ (addr + len ≤ 0x400000) ∧ ((src.cls ≤ 6 → regionOk (s.bank (.tile g .spd)) src.cls .r addr len = true)) ∧ ((∀ a, addr ≤ a → a < addr + len →
      bankStat s g (a / 2 ^ 18) = 0 ∧ classify ((s.tile g).spd.codeword (a / 32)) = .clean)) ∧ ((∀ r ∈ rivals, (∃ n, r.acc = .read n) ∨
      ∀ a, addr ≤ a → a < addr + len → a / 128 ≠ addr / 2 ^ 18 * 2048 + r.word.val))) ∧
    (∃ (s : State) (g : TileId) (src : Origin) (addr len : Nat) (bs : List Byte) (rivals : List Rival) (fl : List Flip) (c : Instr) (perm : Perm), ((c = .spdRead g src addr len rivals fl ∧ perm = .r) ∨ (c = .spdWrite g src addr bs rivals fl ∧ perm = .w)) ∧ (bs.length = len) ∧ (src.cls ≤ 6) ∧ ((src.cls = 6 → open_ s (partOf g) = true)) ∧ (0 < len) ∧ (addr % 128 + len ≤ 128) ∧ (addr + len ≤ 0x400000) ∧ (regionOk (s.bank (.tile g .spd)) src.cls perm addr len = false)) ∧
    (∃ (s : State) (g : TileId) (src : Origin) (addr len : Nat) (bs : List Byte) (rivals : List Rival) (fl : List Flip) (c : Instr) (perm : Perm), ((c = .spdRead g src addr len rivals fl ∧ perm = .r) ∨ (c = .spdWrite g src addr bs rivals fl ∧ perm = .w)) ∧ (bs.length = len) ∧ (src.cls ≤ 8) ∧ ((src.cls = 6 ∨ src.cls = 7 → open_ s (partOf g) = true)) ∧ (0 < len) ∧ (addr % 128 + len ≤ 128) ∧ (addr + len ≤ 0x400000) ∧ ((src.cls ≤ 6 → regionOk (s.bank (.tile g .spd)) src.cls perm addr len = true)) ∧ (bankStat s g (addr / 2 ^ 18) = 1 ∨ bankStat s g (addr / 2 ^ 18) = 2)) :=
  ⟨⟨(sp State.reset), 5, (from_ 2), 0x110, 5, [], by refine ⟨?_, ?_, ?_, ?_, inRange (by decide +kernel), (by intro r h; cases h)⟩ <;> decide +kernel⟩,
   ⟨(shut (sp State.reset) 5), 5, (from_ 2), 0x110, 5, [1, 2, 3, 4, 5], [], [], (.spdRead 5 (from_ 2) 0x110 5 [] []), .r, by refine ⟨by first | exact .inl ⟨rfl, rfl⟩ | exact .inr ⟨rfl, rfl⟩, ?_, ?_, ?_, ?_, ?_, ?_, ?_⟩ <;> decide +kernel⟩,
   ⟨(regs (sp State.reset) [(.tile 5 .spd, SPD.BANK_STAT 1, 1)]), 5, (from_ 2), 0x40000, 2, [1, 2], [], [], (.spdRead 5 (from_ 2) 0x40000 2 [] []), .r, by refine ⟨by first | exact .inl ⟨rfl, rfl⟩ | exact .inr ⟨rfl, rfl⟩, ?_, ?_, ?_, ?_, ?_, ?_, ?_, ?_⟩ <;> decide +kernel⟩⟩

theorem witness_ScratchpadWriteStoresBytes :
    (∃ (s : State) (g : TileId) (src : Origin) (addr : Nat) (bs : List Byte) (rivals : List Rival), ((src.cls = 6 ∨ src.cls = 7 → open_ s (partOf g) = true)) ∧ (bs ≠ []) ∧ (addr + bs.length ≤ 0x400000) ∧ ((src.cls ≤ 6 → regionOk (s.bank (.tile g .spd)) src.cls .w addr bs.length = true)) ∧ ((∀ a, addr ≤ a → a < addr + bs.length → bankStat s g (a / 2 ^ 18) = 0 ∧
      ((addr ≤ a / 32 * 32 ∧ a / 32 * 32 + 32 ≤ addr + bs.length) ∨
      classify ((s.tile g).spd.codeword (a / 32)) = .clean))) ∧ ((∀ r ∈ rivals, ∃ n, r.acc = .read n))) :=
  ⟨(sp State.reset), 5, (from_ 2), 0x11F, [1, 2, 3], [], by refine ⟨?_, ?_, ?_, ?_, inRange (by decide +kernel), (by intro r h; cases h)⟩ <;> decide +kernel⟩

theorem witness_ScratchpadUpkeep :
    (∃ (s : State) (g : TileId) (k cls pos v : Nat) (rest : List (Nat × Nat)), ((s.tile g).spd.fixups = (k, cls) :: rest) ∧ (bankStat s g (32 * k / 2 ^ 18) = 0) ∧ (classify ((s.tile g).spd.codeword k) = .one pos v) ∧ (classify (correctAt ((s.tile g).spd.codeword k) pos v) = .clean)) ∧
    (∃ (s : State) (g : TileId), (s.reg (.tile g .spd) SPD.SCRUB_EN = 1) ∧ ((s.tile g).spd.scrubNext < 32768) ∧ (bankStat s g ((s.tile g).spd.scrubNext / 2048) = 0)) ∧
    (∃ (s : State) (g : TileId) (b : Fin 16), (bankStat s g b.val = 3)) :=
  ⟨⟨(tile (bent State.reset) 5 fun t => { t with spd := { t.spd with fixups := [(8, 2), (9, 1)] } }), 5, 8, 2, 32, 8, [(9, 1)], by refine ⟨?_, ?_, ?_, ?_⟩ <;> decide +kernel⟩,
   ⟨(regs (sp State.reset) [(.tile 5 .spd, SPD.SCRUB_EN, 1)]), 5, by refine ⟨?_, ?_, ?_⟩ <;> decide +kernel⟩,
   ⟨(regs (sp State.reset) [(.tile 5 .spd, SPD.BANK_STAT 1, 3), (.tile 5 .spd, (SPD.BANK_PWR 1).active, 1)]), 5, 1, by decide +kernel⟩⟩

theorem witness_PeerAndAperture :
    (∃ (s : State) (g : TileId) (cls addr len : Nat), (0 < len) ∧ (addr % 128 + len ≤ 128) ∧ (addr + len ≤ 0x400000) ∧ (regionOk (s.bank (.tile g .spd)) cls .r addr len = true) ∧ ((∀ a, addr ≤ a → a < addr + len →
      bankStat s g (a / 2 ^ 18) = 0 ∧ classify ((s.tile g).spd.codeword (a / 32)) = .clean))) ∧
    (∃ (s : State) (g : TileId) (cls addr : Nat) (bs : List Byte), (bs ≠ []) ∧ (addr % 128 + bs.length ≤ 128) ∧ (addr + bs.length ≤ 0x400000) ∧ (regionOk (s.bank (.tile g .spd)) cls .w addr bs.length = true) ∧ ((∀ a, addr ≤ a → a < addr + bs.length →
      bankStat s g (a / 2 ^ 18) = 0 ∧ classify ((s.tile g).spd.codeword (a / 32)) = .clean))) ∧
    (∃ (s : State) (g src : TileId) (cls addr len : Nat), (src ≠ g) ∧ (partOf src = partOf g) ∧ (0 < len) ∧ (addr % 128 + len ≤ 128) ∧ (addr + len ≤ 0x400000) ∧ (regionOk (s.bank (.tile src .spd)) cls .r (0x100000000 + localOf g * 0x1000000 + addr) len = true) ∧ ((∀ a, addr ≤ a → a < addr + len →
      bankStat s g (a / 2 ^ 18) = 0 ∧ classify ((s.tile g).spd.codeword (a / 32)) = .clean))) ∧
    (∃ (g src : TileId), (partOf src ≠ partOf g)) ∧
    (∃ (off size : Nat) (acc : Access), (wellSized off size = false ∨ 0x500000 ≤ off) ∧ (accessSize acc = size)) ∧
    (∃ (s : State) (p : PartId) (off size : Nat) (acc : Access), (wellSized off size = true) ∧ (off < 0x500000) ∧ (accessSize acc = size) ∧ ((12 ≤ s.reg (.pctl p) PCTL.HWIN_SEL ∨
      (s.reg .pwr (PWR.TILE_GATED p.val)).testBit (s.reg (.pctl p) PCTL.HWIN_SEL) = true))) ∧
    (∃ (s : State) (p : PartId) (k : Fin 12) (off size : Nat), (wellSized off size = true) ∧ (off + size ≤ 0x400000) ∧ (s.reg (.pctl p) PCTL.HWIN_SEL = k.val) ∧ ((s.reg .pwr (PWR.TILE_GATED p.val)).testBit k.val = false) ∧ (s.reg .dlw (DLW.STATE p.val) = 0) ∧ (regionOk (s.bank (.tile (tileAt p k) .spd)) 5 .r off size = true) ∧ (bankStat s (tileAt p k) (off / 2 ^ 18) = 0) ∧ (classify ((s.tile (tileAt p k)).spd.codeword (off / 32)) = .clean)) ∧
    (∃ (s : State) (p : PartId) (off size : Nat) (acc : Access), (wellSized off size = true) ∧ (off < 0x500000) ∧ (accessSize acc = size) ∧ (s.reg .dlw (DLW.STATE p.val) ∈ [3, 4, 5])) :=
  ⟨⟨(sp State.reset), 5, 2, 0x110, 5, by refine ⟨?_, ?_, ?_, ?_, inRange (by decide +kernel)⟩ <;> decide +kernel⟩,
   ⟨(sp State.reset), 5, 2, 0x110, [4, 5, 6], by refine ⟨?_, ?_, ?_, ?_, inRange (by decide +kernel)⟩ <;> decide +kernel⟩,
   ⟨(opn (sp State.reset) 6), 5, 6, 2, 0x110, 5, by refine ⟨?_, ?_, ?_, ?_, ?_, ?_, inRange (by decide +kernel)⟩ <;> decide +kernel⟩,
   ⟨5, 40, by decide +kernel⟩,
   ⟨2, 4, (.read 4), by refine ⟨?_, ?_⟩ <;> decide +kernel⟩,
   ⟨(regs State.reset [(.pctl 1, PCTL.HWIN_SEL, 12)]), 1, 8, 8, (.read 8), by refine ⟨?_, ?_, ?_, ?_⟩ <;> decide +kernel⟩,
   ⟨(regs (sp State.reset) [(.pctl 0, PCTL.HWIN_SEL, 5)]), 0, 5, 0x108, 8, by refine ⟨?_, ?_, ?_, ?_, ?_, ?_, ?_, ?_⟩ <;> decide +kernel⟩,
   ⟨(regs State.reset [(.dlw, DLW.STATE 1, 3)]), 1, 8, 8, (.read 8), by refine ⟨?_, ?_, ?_, ?_⟩ <;> decide +kernel⟩⟩

end W2

namespace W3
def runs (b : State) (seq : Seqr) : State := tile (regs (opn b 5) [(.tile 5 .tl, TL.STATE, 1)]) 5 fun t => { t with seq }
def nopW : CmdWord := word [(0, 0)]
def lastW : CmdWord := word [(0, 0), (8, 1), (9, 1)]
def bookW : CmdWord := word [(0, 4), (8, 1), (16, 9), (20, 3), (26, 1), (64, 0x1000)]
def swW : CmdWord := word [(0, 1), (16, 1), (22, 3), (40, 8), (80, 8), (64, 0x20), (96, 4)]
def job0 : Job := ⟨1, 2, 0, 0, 0, 0, 0, 0, false, none, false, 0, 0, 0, 0⟩
def withJob (s : State) : State := part (tile s 5 fun t => { t with job := some ⟨1, 2, 3, 4⟩ }) 0 fun x => { x with jobs := [job0] }
def refW : CmdWord := word [(0, 0x13)]
def fenceA : Active := { act (word [(0, 0x12), (16, 7)]) with begun := false }
def waitA : Active := { act (word [(0, 0x10), (16, 3), (64, 5)]) with begun := false }
def sigA : Active := { act (word [(0, 0x11), (16, 3), (32, 9)]) with begun := false }
def markA : Active := { act (word [(0, 0x13), (16, 3), (32, 9), (64, 11)]) with begun := false }
def atSweep (b : State) (r : ArrayRun) : State := onArray (opn b 5) 5 (act swW) r
def tb (b : State) (h : Nat) : State := atSweep (regs b [(.tile 5 .lut, LUT.NEXT_HALF, h)]) run0
def rS (q : Nat) : ArrayRun := { run0 with window := some (0, 0), pos := ⟨0, 0, 1, q⟩ }
def built (b : State) (r : ArrayRun) : State := tile (atSweep b r) 5 fun t => { t with arr := { t.arr with ready := [1, 0], table := t.arr.table.write 0 ([1, 2, 3]), residues := t.arr.residues.write 0 ([1, 2]), window := [1, 2, 3], lanes := t.arr.lanes } }
def dirW : CmdWord := word [(0, 2), (22, 3), (40, 8), (80, 8), (64, 0x20), (96, 4)]
def atDir (b : State) (r : ArrayRun) : State := tile (onArray (opn b 5) 5 (act dirW) r) 5 fun t => { t with arr := { t.arr with window := [1, 2, 3] } }
def rP (l : List Promo) : ArrayRun := { run0 with promo := l, pos := ⟨9, 0, 0, 0⟩ }
def pr0 : Promo := ⟨2, [(0, 1000), (1, -5), (127, 2 ^ 31)]⟩
def drainA : Active := { act (word [(0, 3), (64, 0x40), (96, 4)]) with released := false, begun := false }


theorem witness_SequencerFetches :
    (∃ (s : State) (g : TileId) (pc : Nat), (listRuns s g = true) ∧ ((s.tile g).seq.fetchPc = some pc) ∧ ((s.tile g).seq.ahead.length < 9) ∧ ((s.tile g).units.switch = none) ∧ (pc % 16 = 0) ∧ (pc + 16 ≤ 0x400000) ∧ (regionOk (s.bank (.tile g .spd)) 3 .x pc 16 = true) ∧ (bankStat s g (pc / 2 ^ 18) = 0) ∧ (classify ((s.tile g).spd.codeword (pc / 32)) = .clean)) :=
  ⟨(put (runs State.reset ⟨some 0x110, [], [], 0, false⟩) 5 0x110 (leBytes 16 lastW.toNat)), 5, 0x110, by refine ⟨?_, ?_, ?_, ?_, ?_, ?_, ?_, ?_, ?_⟩ <;> decide +kernel⟩

theorem witness_CommandsAcceptedOrMalformed :
    (∃ (s : State) (g : TileId) (f : Fetched) (rest : List Fetched) (k : UnitId), (tlState s g = TlState.run) ∧ ((s.tile g).seq.sync.any (markWaits s g) = false) ∧ ((s.tile g).seq.ahead = f :: rest) ∧ (f.err = Err.none) ∧ (acceptErr f.bits = none) ∧ (unitOf (opOf f.bits) = some k) ∧ (k ≠ .seq) ∧ (((s.tile g).units.queue k).length < 2)) ∧
    (∃ (s : State) (g : TileId) (f : Fetched) (rest : List Fetched), (tlState s g = TlState.run) ∧ ((s.tile g).seq.sync.any (markWaits s g) = false) ∧ ((s.tile g).seq.ahead = f :: rest) ∧ (f.err = Err.none) ∧ (acceptErr f.bits = none) ∧ (unitOf (opOf f.bits) = some .seq) ∧ ((s.tile g).seq.sync.length < 2)) ∧
    (∃ (s : State) (g : TileId) (f : Fetched) (rest : List Fetched) (k : UnitId), (tlState s g = TlState.run) ∧ ((s.tile g).seq.ahead = f :: rest) ∧ (f.err = Err.none) ∧ (acceptErr f.bits = none) ∧ (unitOf (opOf f.bits) = some k) ∧ (2 ≤ ((s.tile g).accepted k).length)) ∧
    (∃ (s : State) (g : TileId) (f : Fetched) (rest : List Fetched) (code : Nat) (j : TileJob), (tlState s g = TlState.run) ∧ ((s.tile g).seq.sync.any (markWaits s g) = false) ∧ ((s.tile g).seq.ahead = f :: rest) ∧ ((f.err = Err.none ∧ acceptErr f.bits = some code) ∨ (f.err ≠ Err.none ∧ f.err = code)) ∧ (code < 2 ^ 16) ∧ ((s.tile g).job = some j) ∧ ((∃ x ∈ (s.part (partOf g)).jobs, x.id = j.id ∧ x.status = Err.none))) :=
  ⟨⟨(runs State.reset ⟨none, [⟨0x110, bookW, 0⟩, ⟨0x120, nopW, 0⟩], [], 3, false⟩), 5, ⟨0x110, bookW, 0⟩, [⟨0x120, nopW, 0⟩], .lift, by refine ⟨?_, ?_, ?_, ?_, ?_, ?_, ?_, ?_⟩ <;> decide +kernel⟩,
   ⟨(runs State.reset ⟨none, [⟨0x110, refW, 0⟩, ⟨0x120, nopW, 0⟩], [act (word [(0, 0x12), (16, 7)])], 3, false⟩), 5, ⟨0x110, refW, 0⟩, [⟨0x120, nopW, 0⟩], by refine ⟨?_, ?_, ?_, ?_, ?_, ?_, ?_⟩ <;> decide +kernel⟩,
   ⟨(onArray (runs State.reset ⟨none, [⟨0x110, swW, 0⟩], [], 3, false⟩) 5 (act swW) run0 |> fun s => tile s 5 fun t => { t with units := { t.units with array := [act swW, act swW] } }), 5, ⟨0x110, swW, 0⟩, [], .array, by refine ⟨?_, ?_, ?_, ?_, ?_, ?_⟩ <;> decide +kernel⟩,
   ⟨(withJob (runs State.reset ⟨some 0x120, [⟨0x110, 0, 0x101⟩, ⟨0x120, nopW, 0⟩], [], 3, false⟩)), 5, ⟨0x110, 0, 0x101⟩, [⟨0x120, nopW, 0⟩], 0x101, ⟨1, 2, 3, 4⟩, by refine ⟨?_, ?_, ?_, ?_, ?_, ?_, ?_⟩ <;> decide +kernel⟩⟩

theorem witness_SynchronisingCommands :
    (∃ (s : State) (g : TileId) (f : Fetched) (rest : List Fetched), (tlState s g = TlState.run) ∧ ((s.tile g).seq.sync.length < 2) ∧ ((∀ c ∈ (s.tile g).seq.sync, c.op ≠ Op.nop ∧ markWaits s g c = false)) ∧ ((s.tile g).seq.ahead = f :: rest) ∧ (f.err = Err.none) ∧ (acceptErr f.bits = none) ∧ (opOf f.bits = Op.nop)) ∧
    (∃ (s : State) (g : TileId) (c : Active), ((s.tile g).seq.sync = [c]) ∧ (c.op = Op.fence) ∧ (c.begun = false) ∧ (c.flags = 0) ∧ (listRuns s g = true) ∧ (unitsDone (s.tile g) (fnUnits c.bits) c.num = true)) ∧
    (∃ (s : State) (g : TileId) (c : Active), ((s.tile g).seq.sync = [c]) ∧ (c.op = Op.fence) ∧ (c.begun = false) ∧ (c.flags = 0) ∧ (listRuns s g = true) ∧ (unitsDone (s.tile g) (fnUnits c.bits) c.num = false)) ∧
    (∃ (s : State) (g : TileId) (c : Active), ((s.tile g).seq.sync = [c]) ∧ (c.op = Op.gateWait) ∧ (c.begun = false) ∧ (c.flags = 0) ∧ (listRuns s g = true) ∧ ((s.gate (partOf g) (gtRef c.bits)).valid = true) ∧ ((s.gate (partOf g) (gtRef c.bits)).err = false) ∧ (waitThreshold c.bits (s.reg (.tile g .tl) TL.TL_JOB_SEQ) ≤ (s.gate (partOf g) (gtRef c.bits)).value)) ∧
    (∃ (s : State) (g : TileId) (c : Active), ((s.tile g).seq.sync = [c]) ∧ (c.op = Op.gateWait) ∧ (c.begun = false) ∧ (c.flags = 0) ∧ (listRuns s g = true) ∧ ((s.gate (partOf g) (gtRef c.bits)).valid = true) ∧ ((s.gate (partOf g) (gtRef c.bits)).err = false) ∧ ((s.gate (partOf g) (gtRef c.bits)).value < waitThreshold c.bits (s.reg (.tile g .tl) TL.TL_JOB_SEQ))) ∧
    (∃ (s : State) (g : TileId), (listRuns s g = true) ∧ ((s.tile g).seq.ended = true) ∧ ((s.tile g).seq.sync = []) ∧ ((s.tile g).cmds = [])) ∧
    (∃ (w : CmdWord), (opOf w = Op.nop)) :=
  ⟨⟨(runs State.reset ⟨some 0x120, [⟨0x110, lastW, 0⟩], [], 3, false⟩), 5, ⟨0x110, lastW, 0⟩, [], by refine ⟨?_, ?_, ?_, ?_, ?_, ?_, ?_⟩ <;> decide +kernel⟩,
   ⟨(runs State.reset ⟨some 0x120, [], [fenceA], 3, false⟩), 5, fenceA, by refine ⟨?_, ?_, ?_, ?_, ?_, ?_⟩ <;> decide +kernel⟩,
   ⟨(onArray (runs State.reset ⟨some 0x120, [], [fenceA], 3, false⟩) 5 { act swW with num := 3 } run0), 5, fenceA, by refine ⟨?_, ?_, ?_, ?_, ?_, ?_⟩ <;> decide +kernel⟩,
   ⟨(withGate (runs State.reset ⟨some 0x120, [], [waitA], 3, false⟩) 0 ⟨3, false⟩ (gate0 5 0)), 5, waitA, by refine ⟨?_, ?_, ?_, ?_, ?_, ?_, ?_, ?_⟩ <;> decide +kernel⟩,
   ⟨(withGate (runs State.reset ⟨some 0x120, [], [waitA], 3, false⟩) 0 ⟨3, false⟩ (gate0 4 0)), 5, waitA, by refine ⟨?_, ?_, ?_, ?_, ?_, ?_, ?_, ?_⟩ <;> decide +kernel⟩,
   ⟨(runs State.reset ⟨none, [], [], 3, true⟩), 5, by refine ⟨?_, ?_, ?_, ?_⟩ <;> decide +kernel⟩,
   ⟨(word [(0, 0), (16, 1)]), by decide +kernel⟩⟩

theorem witness_SignalAndMark :
    (∃ (s : State) (g : TileId) (c : Active) (j : TileJob), ((s.tile g).seq.sync = [c]) ∧ (c.op = Op.gateSignal) ∧ (c.begun = false) ∧ (c.flags = 0) ∧ (listRuns s g = true) ∧ (unitsDone (s.tile g) 7 c.num = true) ∧ (gsRemote c.bits = false) ∧ ((s.part (partOf g)).replaying = none) ∧ ((s.tile g).job = some j) ∧ 
      let x := s.gate (partOf g) (gtRef c.bits)
      (x.valid = true) ∧ (x.err = false) ∧ ((Signaler.queue (partOf g) j.queue).allowed x.cfg (gtRef c.bits).global = true) ∧ (x.value + gsInc c.bits < 2 ^ 64)) ∧
    (∃ (s : State) (g : TileId) (c : Active) (off : Nat), ((s.tile g).seq.sync = [c]) ∧ (c.op = Op.mark) ∧ (c.begun = false) ∧ (c.flags = 0) ∧ (listRuns s g = true) ∧ ((mkAfter c.bits = true → unitsDone (s.tile g) 7 c.num = true)) ∧ ((s.reg (.pctl (partOf g)) PCTL.TR_MODE = 1 → traceFull s (partOf g) = false)) ∧ (pccTarget s.variant (trAddr s (partOf g)) = some (.pmem (partOf g) off))) :=
  ⟨⟨(withJob (withGate (runs State.reset ⟨some 0x120, [], [sigA], 3, false⟩) 0 ⟨3, false⟩ (gate0 5 4))), 5, sigA, ⟨1, 2, 3, 4⟩, by refine ⟨?_, ?_, ?_, ?_, ?_, ?_, ?_, ?_, ?_, ?_, ?_, ?_, ?_⟩ <;> decide +kernel⟩,
   ⟨(regs (runs State.reset ⟨some 0x120, [], [markA], 3, false⟩) [(.pctl 0, PCTL.TR_BASE, 0x1000000000 / 64), (.pctl 0, PCTL.TR_LOG2, 4), (.pctl 0, PCTL.TR_MODE, 0), (.pctl 0, PCTL.TR_HEAD, 30), (.pctl 0, PCTL.TR_TAIL, 10)]), 5, markA, 448, by refine ⟨?_, ?_, ?_, ?_, ?_, ?_, ?_, ?_⟩ <;> decide +kernel⟩⟩

theorem witness_WindowAndTables :
    (∃ (s : State) (g : TileId) (c : Active) (r : ArrayRun), (arrayAt s g c r) ∧ (fillsOp c.op = true) ∧ (r.pos.done (rowCount c.bits r) = false) ∧ (r.window ≠ some (r.pos.rb, r.pos.sc)) ∧ (r.retry = none) ∧ 
      let bs : List Byte := val ((ownReq g 0 0).read (wstreamOf c.bits + 1024 * (r.pos.sc * pOf c.bits)) (1024 * stepsIn c.bits r.pos.sc)) (dropUsed s) ([])
      let s' : State := M.after ((ownReq g 0 0).read (wstreamOf c.bits + 1024 * (r.pos.sc * pOf c.bits)) (1024 * stepsIn c.bits r.pos.sc)) (dropUsed s)
      ((ownReq g 0 0).read (wstreamOf c.bits + 1024 * (r.pos.sc * pOf c.bits)) (1024 * stepsIn c.bits r.pos.sc)
      (dropUsed s) = .ok bs s')) ∧
    (∃ (s : State) (g : TileId) (c : Active) (r : ArrayRun), (arrayAt s g c r) ∧ (fillsOp c.op = true) ∧ (r.pos.done (rowCount c.bits r) = false) ∧ (r.window ≠ some (r.pos.rb, r.pos.sc)) ∧ (r.retry = none) ∧ 
      let a := wstreamOf c.bits + 1024 * (r.pos.sc * pOf c.bits)
      
      let n := 1024 * stepsIn c.bits r.pos.sc
      (spdServes s g 0 .r a n)) ∧
    (∃ (s : State) (g : TileId) (c : Active) (r : ArrayRun), (arrayAt s g c r) ∧ (c.op = Op.sweep) ∧ (r.pos.done (rowCount c.bits r) = false) ∧ (r.bpos.done (rowCount c.bits r) = false) ∧ (r.retry = none) ∧ ((s.tile g).arr.ready.length < 2) ∧ 
      let a : Nat → Int := val (sweepCodes g c.bits r.desc r.bpos.row (r.bpos.step c.bits)) (dropUsed s) (fun _ => 0)
      let s' : State := M.after (sweepCodes g c.bits r.desc r.bpos.row (r.bpos.step c.bits)) (dropUsed s)
      (sweepCodes g c.bits r.desc r.bpos.row (r.bpos.step c.bits) (dropUsed s) = .ok a s')) ∧
    (∃ (s : State) (g : TileId) (c : Active) (r : ArrayRun), (arrayAt s g c r) ∧ (c.op = Op.sweep) ∧ (r.pos.done (rowCount c.bits r) = false) ∧ (r.bpos.done (rowCount c.bits r) = false) ∧ (r.retry = none) ∧ ((s.tile g).arr.ready.length < 2) ∧ 
      let n := r.bpos.step c.bits
      
      let k := stepCodes (wfmtOf c.bits) n
      
      let l := (List.range k.2).map fun i => sweepCode r.desc (afmtOf c.bits) r.bpos.row (k.1 + i)
      (codesServed s g l)) :=
  ⟨⟨(atSweep State.reset run0), 5, (act swW), run0, by refine ⟨by unfold arrayAt; decide +kernel, ?_, ?_, ?_, ?_, okv (by decide +kernel)⟩ <;> decide +kernel⟩,
   ⟨(atSweep State.reset run0), 5, (act swW), run0, by refine ⟨by unfold arrayAt; decide +kernel, ?_, ?_, ?_, ?_, spdServes_of (by decide +kernel)⟩ <;> decide +kernel⟩,
   ⟨(tb State.reset 1), 5, (act swW), run0, by refine ⟨by unfold arrayAt; decide +kernel, ?_, ?_, ?_, ?_, ?_, okv (by decide +kernel)⟩ <;> decide +kernel⟩,
   ⟨(tb State.reset 1), 5, (act swW), run0, by refine ⟨by unfold arrayAt; decide +kernel, ?_, ?_, ?_, ?_, ?_, codesServed_of (by decide +kernel)⟩ <;> decide +kernel⟩⟩

theorem witness_LookupSteps :
    (∃ (s : State) (g : TileId) (c : Active) (r : ArrayRun) (h : Nat) (rest : List Nat) (ups : List Upset), (arrayAt s g c r) ∧ (c.op = Op.sweep) ∧ (stepReady c.bits r = true) ∧ ((s.tile g).arr.ready = h :: rest) ∧ 
      let a := wstreamOf c.bits + 1024 * (r.pos.sc * pOf c.bits)
      
      let n := 1024 * stepsIn c.bits r.pos.sc
      (parityLanes ups 0 = [] ∨ spdServes s g 0 .r a n)) ∧
    (∃ (s : State) (g : TileId) (c : Active) (r : ArrayRun) (ups : List Upset), (arrayAt s g c r) ∧ (c.op = Op.sweep) ∧ (stepReady c.bits r = true) ∧ ((s.tile g).arr.ready ≠ []) ∧ (stepsIn c.bits r.pos.sc ≤ r.pos.q + 1) ∧ (parityLanes ups 0 = [] ∨
      spdServes s g 0 .r (wstreamOf c.bits + 1024 * (r.pos.sc * pOf c.bits)) (1024 * stepsIn c.bits r.pos.sc))) :=
  ⟨⟨(built State.reset (rS 0)), 5, (act swW), (rS 0), 1, [0], [], by refine ⟨by unfold arrayAt; decide +kernel, ?_, ?_, ?_, .inl (by decide +kernel)⟩ <;> decide +kernel⟩,
   ⟨(built State.reset (rS 3)), 5, (act swW), (rS 3), [], by refine ⟨by unfold arrayAt; decide +kernel, ?_, ?_, ?_, ?_, .inl (by decide +kernel)⟩ <;> decide +kernel⟩⟩

theorem witness_DirectStepAddsProducts :
    (∃ (s : State) (g : TileId) (c : Active) (r : ArrayRun) (ups : List Upset), (arrayAt s g c r) ∧ (c.op = Op.direct) ∧ (stepReady c.bits r = true) ∧ 
      let cs : List (List Int) := val ((do clearLanes g r.pos ; parityCheck g c.bits r.pos 0 ups ; mapAll (List.range 4) (fun i => readCodes (ownReq g 1 0) (afmtOf c.bits) ((List.range 128).map fun l => directCode r.desc (afmtOf c.bits) r.pos.row l (4 * r.pos.step c.bits + i))))) (dropUsed s) ([])
      let s' : State := M.after ((do clearLanes g r.pos ; parityCheck g c.bits r.pos 0 ups ; mapAll (List.range 4) (fun i => readCodes (ownReq g 1 0) (afmtOf c.bits) ((List.range 128).map fun l => directCode r.desc (afmtOf c.bits) r.pos.row l (4 * r.pos.step c.bits + i))))) (dropUsed s)
      ((do clearLanes g r.pos ; parityCheck g c.bits r.pos 0 ups ; mapAll (List.range 4) (fun i => readCodes (ownReq g 1 0) (afmtOf c.bits)
      ((List.range 128).map fun l => directCode r.desc (afmtOf c.bits) r.pos.row l (4 * r.pos.step c.bits + i))))
      (dropUsed s) = .ok cs s')) ∧
    (∃ (s : State) (g : TileId) (c : Active) (r : ArrayRun) (ups : List Upset), (arrayAt s g c r) ∧ (c.op = Op.direct) ∧ (stepReady c.bits r = true) ∧ 
      let a := wstreamOf c.bits + 1024 * (r.pos.sc * pOf c.bits)
      
      let n := 1024 * stepsIn c.bits r.pos.sc
      (parityLanes ups 0 = [] ∨ spdServes s g 0 .r a n) ∧ 
      let code (i l : Nat) : Option CodeAt := directCode r.desc (afmtOf c.bits) r.pos.row l (4 * r.pos.step c.bits + i)
      ((∀ i, i < 4 → codesServed s g ((List.range 128).map (code i))))) :=
  ⟨⟨(atDir State.reset (rS 0)), 5, (act dirW), (rS 0), [], by refine ⟨by unfold arrayAt; decide +kernel, ?_, ?_, okv (by decide +kernel)⟩ <;> decide +kernel⟩,
   ⟨(atDir State.reset (rS 0)), 5, (act dirW), (rS 0), [], by refine ⟨by unfold arrayAt; decide +kernel, ?_, ?_, .inl (by decide +kernel), codesServed_all (by decide +kernel)⟩ <;> decide +kernel⟩⟩

theorem witness_PromotionIntoBuffer :
    (∃ (s : State) (g : TileId) (c : Active) (r : ArrayRun) (pr : Promo) (rest : List Promo), (arrayAt s g c r) ∧ (r.promo = pr :: rest)) :=
  ⟨(atSweep State.reset (rP [pr0, pr0])), 5, (act swW), (rP [pr0, pr0]), pr0, [pr0], by refine ⟨by unfold arrayAt; decide +kernel, ?_⟩ <;> decide +kernel⟩

theorem witness_SweepDirectBinComplete :
    (∃ (s : State) (g : TileId) (i : Instr) (c : Active) (r : ArrayRun) (pr : Promo), ((i = .sweep g ∧ c.op = Op.sweep) ∨ (i = .direct g ∧ c.op = Op.direct) ∨ (i = .bin g ∧ c.op = Op.bin)) ∧ ((s.tile g).units.array = [c]) ∧ (arrayAt s g c r) ∧ (r.promo = [pr]) ∧ (r.held = []) ∧ (r.pos.done (rowCount c.bits r) = true)) :=
  ⟨(atSweep State.reset (rP [pr0])), 5, (.sweep 5), (act swW), (rP [pr0]), pr0, by refine ⟨?_, ?_, by unfold arrayAt; decide +kernel, ?_, ?_, ?_⟩ <;> decide +kernel⟩

theorem witness_HeldWorkIsReleased :
    (∃ (s : State) (g : TileId) (c : Active), ((s.tile g).units.cnv = [c]) ∧ (c.op = Op.drain) ∧ (c.released = false) ∧ ((s.tile g).heldBack c = false) ∧ ((s.tile g).units.latched.look c.num = none) ∧ (spdServes s g 2 .r (drDesc c.bits) 64) ∧ 
      let d := leNat ((s.tile g).spd.data.read (drDesc c.bits) 64)
      ((convErr d = none → recordBytes d = 0 ∨ spdServes s g 2 .r (Conv.param d) (recordBytes d)))) ∧
    (∃ (s : State) (g : TileId) (w : HeldWrite), ((s.tile g).books.held = [w]) ∧ ((s.tile g).bookBusy (w.addr / 128) = false)) ∧
    (∃ (s : State) (g : TileId) (w : HeldWrite), ((s.tile g).books.heldLut = [w]) ∧ ((s.tile g).lutBusy (w.addr / 256) = false)) :=
  ⟨⟨(tile (opn State.reset 5) 5 fun t => { t with units := { t.units with cnv := [drainA], latched := [] } }), 5, drainA, by refine ⟨?_, ?_, ?_, ?_, ?_, spdServes_of (by decide +kernel), fun h => absurd h (by decide +kernel)⟩ <;> decide +kernel⟩,
   ⟨(tile State.reset 5 fun t => { t with books := { t.books with held := [⟨130, [1, 2]⟩] } }), 5, ⟨130, [1, 2]⟩, by refine ⟨?_, ?_⟩ <;> decide +kernel⟩,
   ⟨(tile State.reset 5 fun t => { t with books := { t.books with heldLut := [⟨130, [1, 2]⟩] } }), 5, ⟨130, [1, 2]⟩, by refine ⟨?_, ?_⟩ <;> decide +kernel⟩⟩

theorem witness_ConversionArithmetic :
    (∃ (r k : Nat), (Param.sh r ≤ k)) ∧
    (∃ (e : Int) (r k : Nat), (k < Param.sh r)) ∧
    (∃ (k field : Nat) (v q f : Int), (0 < k) ∧ (k ≤ 15) ∧ (field < 2 ^ 16) ∧ (v = q * 2 ^ k + f) ∧ (0 ≤ f) ∧ (f < 2 ^ k)) ∧
    (∃ (k field : Nat) (v : Int), (0 < k)) ∧
    (∃ (fresh : Bool) (old u : Int), 
      let t := if fresh then u else old + u
      
      let m : Int := 2 ^ 31 - 1
      (fresh = true ∨ (old ≠ m ∧ old ≠ -m)) ∧ (m ≤ t)) ∧
    (∃ (fresh : Bool) (old u : Int), 
      let t := if fresh then u else old + u
      
      let m : Int := 2 ^ 31 - 1
      (fresh = true ∨ (old ≠ m ∧ old ≠ -m)) ∧ (t ≤ -m)) ∧
    (∃ (fresh : Bool) (old u : Int), 
      let t := if fresh then u else old + u
      
      let m : Int := 2 ^ 31 - 1
      (fresh = true ∨ (old ≠ m ∧ old ≠ -m)) ∧ (-m < t ∧ t < m)) :=
  ⟨⟨0x12345678FFFF12, 63, by decide +kernel⟩,
   ⟨(-77), 0x3F12345678FFFF12, 2, by decide +kernel⟩,
   ⟨4, 0xB3C1, 1234567, 77160, 7, by refine ⟨?_, ?_, ?_, ?_, ?_, ?_⟩ <;> decide +kernel⟩,
   ⟨4, 0, 40, by decide +kernel⟩,
   ⟨false, 2146000000, 2000000, by refine ⟨?_, ?_⟩ <;> decide +kernel⟩,
   ⟨true, 5, (-2147483648), by refine ⟨?_, ?_⟩ <;> decide +kernel⟩,
   ⟨false, 5, (-7), by refine ⟨?_, ?_⟩ <;> decide +kernel⟩⟩

end W3

namespace W4
def rBin : ArrayRun := { run0 with window := some (0, 0), pos := ⟨0, 0, 1, 1⟩, grad := 0x2000 + 2 <<< 160 }
def binR (q : Nat) : ArrayRun := { rBin with pos := ⟨0, 0, 1, q⟩ }
def binW : CmdWord := word [(0, 7), (16, 9), (22, 3), (40, 9), (80, 8), (64, 0x20), (96, 4)]
def atBin (b : State) (r : ArrayRun) : State := tile (onArray (opn b 5) 5 (act binW) r) 5 fun t => { t with arr := { t.arr with window := [1, 2, 3] } }
def rB : ArrayRun := { run0 with window := some (0, 0), pos := ⟨0, 0, 1, 1⟩, grad := 0x2000 + 2 <<< 160 }
def swW : CmdWord := word [(0, 1), (16, 1), (22, 3), (40, 8), (80, 8), (64, 0x20), (96, 4)]
def atSweep (b : State) (r : ArrayRun) : State := onArray (opn b 5) 5 (act swW) r
def rS (q : Nat) : ArrayRun := { run0 with window := some (0, 0), pos := ⟨0, 0, 1, q⟩ }
def built (b : State) (r : ArrayRun) : State := tile (atSweep b r) 5 fun t => { t with arr := { t.arr with ready := [1, 0], table := t.arr.table.write 0 ([1, 2, 3]), residues := t.arr.residues.write 0 ([1, 2]), window := [1, 2, 3], inject := none } }
def rR (y : Retry) : ArrayRun := { rS 3 with retry := some y }
def aR0 : ArrayRun := rR ⟨[3], 2⟩
def aS0 : State := built State.reset aR0
def aM0 : M Unit := rerunPass 5 (act swW).bits aR0.desc { aR0.pos with q := 0 } []
def aR1 : ArrayRun := rR ⟨[2, 3], 0⟩
def aS1 : State := built State.reset aR1
def aM1 : M Unit := rerunPass 5 (act swW).bits aR1.desc { aR1.pos with q := 0 } [.lane 1 3 5]
def updW : CmdWord := word [(0, 8), (20, 3), (26, 2)]
def uw : Nat := 0x00400041
def updD : Nat := (4 <<< 8) + (uw <<< 32) + (uw <<< 64) + (60000 <<< 96) + (65000 <<< 112) + (0x1000 <<< 128) + (0x2000 <<< 160) + (0x3000 <<< 192) + (0x4000 <<< 224) + (uw <<< 256) + (uw <<< 288) + (uw <<< 320)
def rU (e : Nat) : ArrayRun := { run0 with desc := updD, elem := e, m1 := [1, 2, 3, 4], m2 := List.replicate 1024 1 }
def bent (b : State) (st : RowState) : State := tile (opn b 5) 5 fun t => { t with acc0 := ⟨t.acc0.mem.write (4 * 512) ([1, 2, 3]), (t.acc0.rows.put 4 (some st)).put 5 (some st)⟩, books := { t.books with tags := [(3, 0x9), (4, 0xA)] } }
def atU (b : State) (st : RowState) (w : CmdWord) (r : ArrayRun) : State := onArray (bent b st) 5 (act w) r
def rst (sat mix : Bool) : RowState := ⟨1, 2, true, mix, false, sat⟩
def uS : State := atU State.reset (rst false false) updW (rU 3)
def uM : M (Nat × Nat × Int) := do
  let x ← (ownReq 5 1 0).readNat (Upd.m1code (rU 3).desc + 3) 1
  let y ← (ownReq 5 1 0).readNat (Upd.m2code (rU 3).desc + 3) 1
  let z ← updRead 5 (act updW).bits (rU 3).desc 3
  return (x, y, z)
def updWl : CmdWord := word [(0, 8), (9, 1), (20, 3), (26, 2)]


theorem witness_BinStepFormsBins :
    (∃ (s : State) (g : TileId) (c : Active) (r : ArrayRun) (ups : List Upset), (arrayAt s g c r) ∧ (c.op = Op.bin) ∧ (stepReady c.bits r = true) ∧ (4 ≤ row0Of c.bits + nrowsOf c.bits) ∧ 
      let gs : List Int := val ((do clearLanes g r.pos ; parityCheck g c.bits r.pos 0 ups ; gradCodes g r.grad r.pos.row)) (dropUsed s) ([])
      let s' : State := M.after ((do clearLanes g r.pos ; parityCheck g c.bits r.pos 0 ups ; gradCodes g r.grad r.pos.row)) (dropUsed s)
      ((do clearLanes g r.pos ; parityCheck g c.bits r.pos 0 ups ; gradCodes g r.grad r.pos.row) (dropUsed s) = .ok gs s') ∧ 
      let a : Nat → Int := val (binCodes g c.bits r r.pos) s' (fun _ => 0)
      let s'' : State := M.after (binCodes g c.bits r r.pos) s'
      (binCodes g c.bits r r.pos s' = .ok a s'')) ∧
    (∃ (s : State) (g : TileId) (c : Active) (r : ArrayRun) (ups : List Upset), (arrayAt s g c r) ∧ (c.op = Op.bin) ∧ (centroidOf c.bits = false) ∧ (stepReady c.bits r = true) ∧ (4 ≤ row0Of c.bits + nrowsOf c.bits) ∧ 
      let wa := wstreamOf c.bits + 1024 * (r.pos.sc * pOf c.bits)
      
      let wn := 1024 * stepsIn c.bits r.pos.sc
      (parityLanes ups 0 = [] ∨ spdServes s g 0 .r wa wn) ∧ 
      let n := Grad.row0 r.grad + r.pos.row
      
      let pitch := codeBytes (Grad.fmt r.grad) 128
      
      let sa := gradBlock r.grad n + 2 * (n % 16)
      
      let ca := gradBlock r.grad n + 64 + n % 16 * pitch
      (spdServes s g 0 .r sa 2) ∧ (spdServes s g 0 .r ca pitch) ∧ (leNat ((s.tile g).spd.data.read sa 2) = Grad.gscale r.grad ∨ leNat ((s.tile g).spd.data.read sa 2) / 2048 = 0)) :=
  ⟨⟨(atBin State.reset rB), 5, (act binW), rB, [], by refine ⟨by unfold arrayAt; decide +kernel, ?_, ?_, ?_, okv (by decide +kernel), okv (by decide +kernel)⟩ <;> decide +kernel⟩,
   ⟨(atBin State.reset (binR 0)), 5, (act binW), (binR 0), [], by refine ⟨by unfold arrayAt; decide +kernel, ?_, ?_, ?_, ?_, .inl (by decide +kernel), spdServes_of (by decide +kernel), spdServes_of (by decide +kernel), ?_⟩ <;> decide +kernel⟩⟩

theorem witness_ResidueRetryClasses :
    (∃ (s : State) (g : TileId) (c : Active) (r : ArrayRun) (y : Retry) (ups : List Upset), (arrayAt s g c r) ∧ (c.op = Op.sweep) ∧ (r.retry = some y) ∧ (r.pos.done (rowCount c.bits r) = false) ∧ (0 < stepsIn c.bits r.pos.sc) ∧ ((∀ q, q < stepsIn c.bits r.pos.sc →
      let n := r.pos.sc * pOf c.bits + q
      let k := stepCodes (wfmtOf c.bits) n
      parityLanes ups q = [] ∧
      codesServed s g ((List.range k.2).map fun i => sweepCode r.desc (afmtOf c.bits) r.pos.row (k.1 + i))))) ∧
    (∃ (s s' : State) (g : TileId) (c : Active) (r r' : ArrayRun) (y : Retry) (ups : List Upset), arrayAt s g c r ∧ r.retry = some y ∧
      rerunPass g c.bits r.desc { r.pos with q := 0 } ups (dropUsed s) = .ok () s' ∧ (s'.tile g).units.arrayRun = some r' ∧
      mismatches (s'.tile g).arr r.pos.r (r'.parity ++ r'.missed) = [] ∧ (opOf c.bits = Op.bin → r'.held ≠ [])) ∧
    (∃ (s s' : State) (g : TileId) (c : Active) (r r' : ArrayRun) (y : Retry) (ups : List Upset) (lane : Nat) (ls : List Nat),
      arrayAt s g c r ∧ r.retry = some y ∧ rerunPass g c.bits r.desc { r.pos with q := 0 } ups (dropUsed s) = .ok () s' ∧
      (s'.tile g).units.arrayRun = some r' ∧
      (mismatches (s'.tile g).arr r.pos.r (r'.parity ++ r'.missed)).filter y.lanes.contains = lane :: ls) :=
  ⟨⟨(built State.reset (rR ⟨[3], 2⟩)), 5, (act swW), (rR ⟨[3], 2⟩), ⟨[3], 2⟩, [], by refine ⟨by unfold arrayAt; decide +kernel, ?_, ?_, ?_, ?_, by intro q hq; refine ⟨?_, ?_⟩; (· revert q; decide +kernel); (· revert q; exact codesServed_all (by decide +kernel))⟩ <;> decide +kernel⟩,
   ⟨aS0, aM0.after (dropUsed aS0), 5, act swW, aR0, (((aM0.after (dropUsed aS0)).tile 5).units.arrayRun).getD run0, ⟨[3], 2⟩, [],
    by unfold arrayAt; decide +kernel, rfl, okU (m := aM0) (by decide +kernel), some_getD (by decide +kernel), by decide +kernel, by decide +kernel⟩,
   ⟨aS1, aM1.after (dropUsed aS1), 5, act swW, aR1, (((aM1.after (dropUsed aS1)).tile 5).units.arrayRun).getD run0, ⟨[2, 3], 0⟩, [.lane 1 3 5], 3, [],
    by unfold arrayAt; decide +kernel, rfl, okU (m := aM1) (by decide +kernel), some_getD (by decide +kernel), by decide +kernel⟩⟩

theorem witness_UpdateElementSteps :
    (∃ (s : State) (g : TileId) (c : Active) (r : ArrayRun) (e : Nat), (arrayAt s g c r) ∧ (c.op = Op.update) ∧ (c.released = true) ∧ (updNext (s.tile g) c.bits r.desc r.elem = some e) ∧ (updNext (s.tile g) c.bits r.desc (e + 1) ≠ none) ∧ 
      let x := ((s.tile g).acc (Upd.buf r.desc)).row (updPlace (s.tile g) c.bits r.desc e).row
      (x.sat = true ∨ x.sMix = true)) ∧
    (∃ (s s' : State) (g : TileId) (c : Active) (r : ArrayRun) (e c1 c2 : Nat) (p : Int), arrayAt s g c r ∧
      c.op = Op.update ∧ updTgt c.bits = 0 ∧ c.released = true ∧ updNext (s.tile g) c.bits r.desc r.elem = some e ∧
      updNext (s.tile g) c.bits r.desc (e + 1) ≠ none ∧
      let d := r.desc
      let k := updPlace (s.tile g) c.bits d e
      let b := (s.tile g).acc (Upd.buf d)
      (b.row k.row).sat = false ∧ (b.row k.row).sMix = false ∧
      (do let x ← (ownReq g 1 0).readNat (Upd.m1code d + e) 1
          let y ← (ownReq g 1 0).readNat (Upd.m2code d + e) 1
          let z ← updRead g c.bits d e
          return (x, y, z) : M (Nat × Nat × Int)) (dropUsed s) = .ok (c1, c2, p) s' ∧
      let stoch : Bool := s.reg (.tile g .tl) TL.MODE.active = 0
      let ws := drawWords (if stoch then 1 else 0) (s.tile g).dither
      let field (i : Nat) : Nat := bitsAt (ws.1.getD 0 0).toNat (16 * i) 16
      let es1 := (leWords r.m1).map (sext 32)
      let es2 := (leWords (r.m2.take 1024)).map Int.ofNat
      let recs := (leWords (r.m2.drop 1024)).map Int.ofNat
      let mv := updMoments d k.bias (es1.getD c1 0) (es2.getD c2 0) (b.entry k.row k.lane) (b.row k.row).s
      let n1 := mapEntry stoch es1 mv.1 (field 0)
      let n2 := mapEntry stoch es2 mv.2 (field 1)
      let raw := updStepped stoch p (updDelta d k.bias (es1.getD n1.1 0) (recs.getD n2.1 0)) (field 2)
      let s1 := (s'.setTile g { s'.tile g with dither := ws.2 }).count (.tile g .dbg) DBG.MOM_CLIPS (b2n n1.2 + b2n n2.2)
      let s2 := if raw < k.lo || k.hi < raw then s1.count (.tile g .dbg) DBG.PAR_CLAMP 1 else s1
      let tM : M Unit := do
        (ownReq g 1 0).write (Upd.m1code d + e) [BitVec.ofNat 8 n1.1]
        (ownReq g 1 0).write (Upd.m2code d + e) [BitVec.ofNat 8 n2.1]
      let t1 := tM.after s2
      tM s2 = .ok () t1 ∧ updNext (t1.tile g) c.bits d (e + 1) ≠ none) ∧
    (∃ (s : State) (g : TileId) (c : Active) (r : ArrayRun) (e : Nat), (arrayAt s g c r) ∧ (c.op = Op.update) ∧ (updTgt c.bits = 0) ∧ (c.released = true) ∧ (updNext (s.tile g) c.bits r.desc r.elem = some e) ∧ (updNext (s.tile g) c.bits r.desc (e + 1) ≠ none) ∧ 
      let d := r.desc
      
      let k := updPlace (s.tile g) c.bits d e
      
      let b := (s.tile g).acc (Upd.buf d)
      ((b.row k.row).sat = false) ∧ ((b.row k.row).sMix = false) ∧ (Upd.m1code d ≠ Upd.m2code d) ∧ ((∀ a, a = Upd.m1code d + e ∨ a = Upd.m2code d + e → spdServes s g 1 .r a 1 ∧ spdServes s g 1 .w a 1))) ∧
    (∃ (s : State) (g : TileId) (c : Active) (r : ArrayRun) (e : Nat), ((s.tile g).units.array = [c]) ∧ (arrayAt s g c r) ∧ (c.op = Op.update) ∧ (c.released = true) ∧ (updNext (s.tile g) c.bits r.desc r.elem = some e) ∧ (updNext (s.tile g) c.bits r.desc (e + 1) = none) ∧ ((((s.tile g).acc (Upd.buf r.desc)).row (updPlace (s.tile g) c.bits r.desc e).row).sat = true)) :=
  ⟨⟨(atU State.reset (rst true false) updW (rU 3)), 5, (act updW), (rU 3), 3, by refine ⟨by unfold arrayAt; decide +kernel, ?_, ?_, ?_, ?_, ?_⟩ <;> decide +kernel⟩,
   ⟨uS, uM.after (dropUsed uS), 5, act updW, rU 3, 3, 0, 0, 0, by
      refine ⟨by unfold arrayAt; decide +kernel, ?_, ?_, ?_, ?_, ?_, ?_, ?_, okX (m := uM) (0, 0, 0) ?_ ?_, okU ?_, ?_⟩ <;> decide +kernel⟩,
   ⟨(atU State.reset (rst false false) updW (rU 3)), 5, (act updW), (rU 3), 3, by refine ⟨by unfold arrayAt; decide +kernel, ?_, ?_, ?_, ?_, ?_, ?_, ?_, ?_, by intro a h; rcases h with h | h <;> subst h <;> exact ⟨spdServes_of (by decide +kernel), spdServes_of (by decide +kernel)⟩⟩ <;> decide +kernel⟩,
   ⟨(atU State.reset (rst true false) updWl (rU 255)), 5, (act updWl), (rU 255), 255, by refine ⟨?_, by unfold arrayAt; decide +kernel, ?_, ?_, ?_, ?_, ?_⟩ <;> decide +kernel⟩⟩

end W4

namespace W5
def sp (b : State) : State := put (opn b 5) 5 0x110 [1, 2, 3, 0x44]
def rst (sat mix : Bool) : RowState := ⟨1, 2, true, mix, false, sat⟩
def acc (b : State) : State := tile (sp b) 5 fun t => { t with acc0 := ⟨t.acc0.mem.write (4 * 512) ([1, 2, 3, 4]), (t.acc0.rows.put 4 (some (rst true false))).put 5 (some (rst false false))⟩ }
def onCnv (s : State) (c : Active) (r : Option DrainRun) : State := tile s 5 fun t => { t with units := { t.units with array := [], lift := [], cnv := [c], drain := r } }
def drW (last : Nat) (rows : Nat) : CmdWord := word [(0, 3), (9, last), (32, 4), (40, rows), (64, 0x10), (80, 0x800), (114, 0x82)]
def rawD : Nat := 2
def rdr (n : Nat) (d : Nat) : DrainRun := ⟨d, [1, 2, 3], n, [], n, List.replicate 64 9⟩
def raw0 (b : State) (n rows : Nat) : State := onCnv (acc b) (act (drW 1 rows)) (some (rdr n rawD))
def cvD (sr : Nat) : Nat := (sr <<< 2) + (1 <<< 8) + (7 <<< 16) + (3 <<< 20) + (1 <<< 23) + (0x00400041 <<< 32) + (0x3000 <<< 64)
def hr (k : Nat) : HistRow := ⟨k, (List.range 128).map Int.ofNat, true, 0x05060708, false, 2, 0⟩
def hrun : DrainRun := { rdr 3 (cvD 1 + 8 + 0x1000000000 <<< 128) with hist := [hr 1, hr 2], done := 1 }
def stW : CmdWord := word [(0, 0x14), (9, 1), (16, 3), (19, 1), (64, 0x3008)]
def st0 (b : State) (w : CmdWord) : State := onCnv (regs (sp b) [(.tile 5 .cnv, CNV.CTX_SSE 3, 77), (.tile 5 .cnv, CNV.CTX_CLIPS 3, 5)]) (act w) none
def onLift (s : State) (c : Active) (r : Option CopyRun) : State := tile s 5 fun t => { t with units := { t.units with array := [], cnv := [], lift := [c], switch := none, list := none, copy := r } }
def mvW (n : Nat) (src dst : Nat) : CmdWord := word [(0, 5), (9, 1), (16, src), (56, dst), (96, n)]
def bkW (fmt : Nat) : CmdWord := word [(0, 4), (8, 1), (9, 1), (16, fmt), (20, 3), (26, 1), (64, 0x100)]
def bk0 (b : State) (fmt : Nat) : State := regs (tile (onLift (sp b) (act (bkW fmt)) none) 5 fun t => { t with books := { t.books with held := [] } }) [(.tile 5 .tl, TL.CMD_ERR, 0)]
def atW : CmdWord := word [(0, 6), (9, 1), (17, 3), (32, 5), (40, 2), (49, 16), (64, 0x1000000020 / 4)]
def arun : CopyRun := ⟨1, 0, 0, none⟩
def at0 (b : State) : State := part (tile (onLift (acc b) (act atW) (some arun)) 5 fun t => { t with acc0 := ⟨t.acc0.mem, t.acc0.rows.put 6 none⟩ }) 0 fun x => { x with replaying := none }
def atR : CmdWord := word [(0, 6), (9, 1), (17, 3), (20, 1), (21, 3), (32, 5), (40, 2), (49, 16), (64, 0x1000000020 / 4), (112, 9)]
def up (b : State) : State := port (regs b [(.link 0, LINK.STATE, 3), (.link 1, LINK.STATE, 0), (.link 0, LINK.UP, 8), (.link 0, LINK.STN, 4)]) 0 fun x => { x with tx := [] }
def at1 (b : State) : State := part (onLift (acc (up b)) (act atR) (some arun)) 0 fun x => { x with replaying := none }
def onList (s : State) (r : CopyRun) : State := tile s 5 fun t => { t with units := { t.units with array := [], cnv := [], lift := [], switch := none, list := some r, listAbort := false } }
def ld : Nat := 0x110 + (0x1F0 <<< 64) + (4 <<< 128)
def ls (b : State) (r : CopyRun) (n : Nat) : State := regs (onList (sp b) r) [(.tile 5 .lft, LFT.LIST_BASE, 0x2000 / 32), (.tile 5 .lft, LFT.LIST_CNT, n), (.tile 5 .lft, LFT.SW_BASE.active, 0x2000 / 32), (.tile 5 .lft, LFT.SW_CNT.active, n)]
def r0 : CopyRun := ⟨0, crc32Init, 1, none⟩
def r2 : CopyRun := ⟨0, crc32Init, 1, some ld⟩
def ld2 : Nat := 0x110 + (0x1F0 <<< 64) + (200 <<< 128)
def r1 : CopyRun := ⟨0, crc32Init, 1, some ld2⟩
def sw (b : State) : State := tile (ls b r2 2) 5 fun t => { t with units := { t.units with list := none, switch := some r2 } }
def lrun : LoadRun := ⟨77, [⟨ld2, none⟩, ⟨ld, none⟩]⟩
def ldS (b : State) : State := tile (ls b r2 0) 5 fun t => { t with units := { t.units with loading := true, loads := [lrun] } }


theorem witness_DrainWritesRows :
    (∃ (s : State) (g : TileId) (c : Active) (r : DrainRun), ((s.tile g).head .cnv = some c) ∧ (c.op = Op.drain) ∧ ((s.tile g).units.drain = some r) ∧ (Conv.ofmt r.desc = 2) ∧ (r.hist = []) ∧ (r.next + 1 < nrowsOf c.bits) ∧ (r.next % 16 ≠ 15) ∧ (r.done ≠ nrowsOf c.bits) ∧ 
      let a := drRecord c.bits r.desc r.next
      (spdServes s g 2 .w a 512)) ∧
    (∃ (s : State) (g : TileId) (c : Active) (r : DrainRun), ((s.tile g).head .cnv = some c) ∧ (c.op = Op.drain) ∧ ((s.tile g).units.drain = some r) ∧ (Conv.ofmt r.desc = 2) ∧ (r.hist = []) ∧ (r.next + 1 < nrowsOf c.bits) ∧ (r.next % 16 ≠ 15) ∧ (r.done ≠ nrowsOf c.bits) ∧ 
      let row := row0Of c.bits + r.next
      
      let s' : State := M.after (drWrite g (drRecord c.bits r.desc r.next) (((s.tile g).acc (drBuf c.bits)).mem.read (row * 512) 512)) ((do cnvStep g (drBegin g) ; cnvStep g (drRow g) : M Unit).after s)
      (drWrite g (drRecord c.bits r.desc r.next) (((s.tile g).acc (drBuf c.bits)).mem.read (row * 512) 512)
      ((do cnvStep g (drBegin g) ; cnvStep g (drRow g) : M Unit).after s) = .ok () s')) ∧
    (∃ (s : State) (g : TileId) (c : Active) (r : DrainRun), ((s.tile g).head .cnv = some c) ∧ (c.op = Op.drain) ∧ ((s.tile g).units.drain = some r) ∧ (Conv.ofmt r.desc ≠ 2) ∧ (convErr r.desc = none) ∧ (Conv.hist r.desc = false) ∧ (r.hist = []) ∧ (r.next + 1 < nrowsOf c.bits) ∧ (r.next % 16 ≠ 15) ∧ (r.done ≠ nrowsOf c.bits) ∧ 
      let a := drRecord c.bits r.desc r.next
      (spdServes s g 2 .w a (drPitch r.desc))) ∧
    (∃ (s : State) (g : TileId) (c : Active) (r : DrainRun) (h : HistRow) (rest : List HistRow), ((s.tile g).head .cnv = some c) ∧ (c.op = Op.drain) ∧ ((s.tile g).units.drain = some r) ∧ (r.hist = h :: rest) ∧ (h.arrived = false) ∧ (Conv.ofmt r.desc ≠ 2) ∧ (convErr r.desc = none) ∧ (Conv.hist r.desc = true) ∧ (h.vals.length = Conv.chans r.desc) ∧ (h.row + 1 < nrowsOf c.bits) ∧ (h.row % 16 ≠ 15) ∧ (r.done ≠ nrowsOf c.bits) ∧ 
      let a := drRecord c.bits r.desc h.row
      (spdServes s g 2 .w a (drPitch r.desc))) ∧
    (∃ (s : State) (g : TileId) (c : Active) (r : DrainRun), ((s.tile g).units.cnv = [c]) ∧ (c.op = Op.drain) ∧ ((s.tile g).units.latched.look c.num ≠ none) ∧ ((s.tile g).units.drain = some r) ∧ (Conv.ofmt r.desc = 2) ∧ (r.hist = []) ∧ (r.next + 1 = nrowsOf c.bits) ∧ (r.done ≠ nrowsOf c.bits) ∧ (r.header.length = 64) ∧ 
      let a := drBlock c.bits r.next
      (spdServes s g 2 .w a 8256)) :=
  ⟨⟨(raw0 State.reset 1 20), 5, (act (drW 1 20)), (rdr 1 rawD), by refine ⟨?_, ?_, ?_, ?_, ?_, ?_, ?_, ?_, spdServes_of (by decide +kernel)⟩ <;> decide +kernel⟩,
   ⟨(raw0 State.reset 1 20), 5, (act (drW 1 20)), (rdr 1 rawD), by refine ⟨?_, ?_, ?_, ?_, ?_, ?_, ?_, ?_, okU (by decide +kernel)⟩ <;> decide +kernel⟩,
   ⟨(onCnv (acc State.reset) (act (drW 1 20)) (some (rdr 0 (cvD 0)))), 5, (act (drW 1 20)), (rdr 0 (cvD 0)), by refine ⟨?_, ?_, ?_, ?_, ?_, ?_, ?_, ?_, ?_, ?_, spdServes_of (by decide +kernel)⟩ <;> decide +kernel⟩,
   ⟨(onCnv (acc State.reset) (act (drW 1 20)) (some hrun)), 5, (act (drW 1 20)), hrun, (hr 1), [hr 2], by refine ⟨?_, ?_, ?_, ?_, ?_, ?_, ?_, ?_, ?_, ?_, ?_, ?_, spdServes_of (by decide +kernel)⟩ <;> decide +kernel⟩,
   ⟨(tile (raw0 State.reset 15 16) 5 fun t => { t with units := { t.units with latched := [(5, ⟨rawD, [], 0, true⟩)] } }), 5, (act (drW 1 16)), (rdr 15 rawD), by refine ⟨?_, ?_, ?_, ?_, ?_, ?_, ?_, ?_, ?_, spdServes_of (by decide +kernel)⟩ <;> decide +kernel⟩⟩

theorem witness_StatisticsContexts :
    (∃ (s : State) (g : TileId) (c : Active), ((s.tile g).units.cnv = [c]) ∧ (c.op = Op.stat) ∧ (c.released = true) ∧ 
      let s' : State := M.after ((ownReq g 2 1).write (stDst c.bits) (statRecord (s.bank (.tile g .cnv)) (stCtx c.bits))) ((if stClear c.bits then clearCtx g (stCtx c.bits) else pure ()).after s)
      ((ownReq g 2 1).write (stDst c.bits) (statRecord (s.bank (.tile g .cnv)) (stCtx c.bits))
      ((if stClear c.bits then clearCtx g (stCtx c.bits) else pure ()).after s) = .ok () s')) ∧
    (∃ (s : State) (g : TileId) (c : Active), ((s.tile g).units.cnv = [c]) ∧ (c.op = Op.stat) ∧ (c.released = true) ∧ (spdServes s g 2 .w (stDst c.bits) 32)) ∧
    (∃ (s : State) (g : TileId) (v : BitVec 32), (pageWritable s (.tile g .cnv) = true)) ∧
    (∃ (s : State) (g : TileId), (pageWritable s (.tile g .cnv) = false)) :=
  ⟨⟨(st0 State.reset stW), 5, (act stW), by refine ⟨?_, ?_, ?_, okU (by decide +kernel)⟩ <;> decide +kernel⟩,
   ⟨(st0 State.reset stW), 5, (act stW), by refine ⟨?_, ?_, ?_, spdServes_of (by decide +kernel)⟩ <;> decide +kernel⟩,
   ⟨(regs State.reset [(.tile 5 .cnv, CNV.CTX_SSE 3, 77)]), 5, 0x103, by decide +kernel⟩,
   ⟨(held State.reset), 5, by decide +kernel⟩⟩

theorem witness_MoveCopiesBytes :
    (∃ (s : State) (g : TileId) (c : Active), (s.tile g).units.lift = [c] ∧ c.op = Op.move ∧ c.released = true ∧
      (s.tile g).units.switch = none ∧ (s.tile g).units.list = none ∧ (s.tile g).units.copy = none ∧ noFetch s g ∧
      let n := mvLen c.bits
      let a := mvSrc c.bits
      let b := mvDst c.bits
      0 < n ∧ a % 128 + n ≤ 128 ∧ b % 128 + n ≤ 128 ∧ a + n ≤ 0x400000 ∧ b + n ≤ 0x400000 ∧ (a + n ≤ b ∨ b + n ≤ a) ∧
      regionOk (s.bank (.tile g .spd)) 3 .r a n = true ∧ regionOk (s.bank (.tile g .spd)) 3 .w b n = true ∧
      ∀ x, (a ≤ x ∧ x < a + n) ∨ (b ≤ x ∧ x < b + n) →
        bankStat s g (x / 2 ^ 18) = 0 ∧ classify ((s.tile g).spd.codeword (x / 32)) = .clean) :=
  ⟨onLift (sp State.reset) (act (mvW 6 0x10F 0x37A)) none, 5, act (mvW 6 0x10F 0x37A), by
      refine ⟨rfl, ?_, rfl, ?_, ?_, ?_, by unfold noFetch; decide +kernel, ?_⟩
      iterate 4 (first | rfl | decide +kernel)
      refine ⟨?_, ?_, ?_, ?_, ?_, ?_, ?_, ?_, ?_⟩
      all_goals first | decide +kernel | skip
      exact fun x h => h.elim
        (fun h => inRange (lo := 0x10F) (n := 6) (P := fun x => bankStat (onLift (sp State.reset) (act (mvW 6 0x10F 0x37A)) none) 5 (x / 2 ^ 18) = 0 ∧
          classify (((onLift (sp State.reset) (act (mvW 6 0x10F 0x37A)) none).tile 5).spd.codeword (x / 32)) = .clean) (by decide +kernel) x h.1 h.2)
        (fun h => inRange (lo := 0x37A) (n := 6) (P := fun x => bankStat (onLift (sp State.reset) (act (mvW 6 0x10F 0x37A)) none) 5 (x / 2 ^ 18) = 0 ∧
          classify (((onLift (sp State.reset) (act (mvW 6 0x10F 0x37A)) none).tile 5).spd.codeword (x / 32)) = .clean) (by decide +kernel) x h.1 h.2)⟩

theorem witness_BookWritesAndTags :
    (∃ (s : State) (g : TileId) (c : Active), ((s.tile g).units.lift = [c]) ∧ (c.op = Op.book) ∧ (c.released = true) ∧ ((s.tile g).units.switch = none) ∧ ((s.tile g).units.list = none) ∧ ((s.tile g).units.copy = none) ∧ (bkCount c.bits = 1) ∧ ((s.tile g).books.held = []) ∧ ((s.tile g).bookBusy (bkBook c.bits) = false) ∧ (noFetch s g) ∧ (spdServes s g 3 .r (bkSrc c.bits) 128) ∧ 
      let bs := (s.tile g).spd.data.read (bkSrc c.bits) 128
      ((bkFmt c.bits = 0xA → c8pBad bs = false))) ∧
    (∃ (s : State) (g : TileId) (c : Active), ((s.tile g).units.lift = [c]) ∧ (c.op = Op.book) ∧ (c.released = true) ∧ ((s.tile g).units.switch = none) ∧ ((s.tile g).units.list = none) ∧ ((s.tile g).units.copy = none) ∧ (bkCount c.bits = 1) ∧ ((s.tile g).books.held = []) ∧ ((s.tile g).bookBusy (bkBook c.bits) = false) ∧ (noFetch s g) ∧ 
      let bs : List Byte := val ((ownReq g 3 2).read (bkSrc c.bits % 2 ^ 40) 128) ((readAhead (ownReq g 3 2) (bkSrc c.bits) 0 128 0).after (s.setReg (.tile g .lft) LFT.CMD_BUSY 1)) ([])
      let s' : State := M.after ((ownReq g 3 2).read (bkSrc c.bits % 2 ^ 40) 128) ((readAhead (ownReq g 3 2) (bkSrc c.bits) 0 128 0).after (s.setReg (.tile g .lft) LFT.CMD_BUSY 1))
      ((ownReq g 3 2).read (bkSrc c.bits % 2 ^ 40) 128 ((readAhead (ownReq g 3 2) (bkSrc c.bits) 0 128 0).after
      (s.setReg (.tile g .lft) LFT.CMD_BUSY 1)) = .ok bs s') ∧ (bs.length = 128) ∧ ((bkFmt c.bits = 0xA → c8pBad bs = false))) ∧
    (∃ (s : State) (g : TileId) (c : Active), ((s.tile g).units.lift = [c]) ∧ (c.op = Op.book) ∧ (c.released = true) ∧ ((s.tile g).units.switch = none) ∧ ((s.tile g).units.list = none) ∧ ((s.tile g).units.copy = none) ∧ (bkCount c.bits = 1) ∧ ((s.tile g).books.held = []) ∧ ((s.tile g).bookBusy (bkBook c.bits) = false) ∧ (noFetch s g) ∧ 
      let bs : List Byte := val ((ownReq g 3 2).read (bkSrc c.bits % 2 ^ 40) 128) ((readAhead (ownReq g 3 2) (bkSrc c.bits) 0 128 0).after (s.setReg (.tile g .lft) LFT.CMD_BUSY 1)) ([])
      let s' : State := M.after ((ownReq g 3 2).read (bkSrc c.bits % 2 ^ 40) 128) ((readAhead (ownReq g 3 2) (bkSrc c.bits) 0 128 0).after (s.setReg (.tile g .lft) LFT.CMD_BUSY 1))
      ((ownReq g 3 2).read (bkSrc c.bits % 2 ^ 40) 128 ((readAhead (ownReq g 3 2) (bkSrc c.bits) 0 128 0).after
      (s.setReg (.tile g .lft) LFT.CMD_BUSY 1)) = .ok bs s') ∧ (bs.length = 128) ∧ (bkFmt c.bits = 0xA) ∧ (c8pBad bs = true) ∧ (s'.reg (.tile g .tl) TL.CMD_ERR = Err.none)) :=
  ⟨⟨(bk0 State.reset 9), 5, (act (bkW 9)), by refine ⟨?_, ?_, ?_, ?_, ?_, ?_, ?_, ?_, ?_, by unfold noFetch; decide +kernel, spdServes_of (by decide +kernel), ?_⟩ <;> decide +kernel⟩,
   ⟨(bk0 State.reset 9), 5, (act (bkW 9)), by refine ⟨?_, ?_, ?_, ?_, ?_, ?_, ?_, ?_, ?_, by unfold noFetch; decide +kernel, okv (by decide +kernel), ?_, ?_⟩ <;> decide +kernel⟩,
   ⟨(bk0 State.reset 0xA), 5, (act (bkW 0xA)), by refine ⟨?_, ?_, ?_, ?_, ?_, ?_, ?_, ?_, ?_, by unfold noFetch; decide +kernel, okv (by decide +kernel), ?_, ?_, ?_, ?_⟩ <;> decide +kernel⟩⟩

theorem witness_AtomicRows :
    (∃ (s : State) (g : TileId) (c : Active) (r : CopyRun), ((s.tile g).units.lift = [c]) ∧ (c.op = Op.atomic) ∧ (c.released = true) ∧ ((s.tile g).units.switch = none) ∧ ((s.tile g).units.list = none) ∧ ((s.tile g).units.copy = some r) ∧ (r.done + 1 = nrowsOf c.bits) ∧ ((s.part (partOf g)).replaying = none) ∧ ((s.tile g).units.cnv = []) ∧ (noFetch s g) ∧ (atInPmem s.variant c.bits = true) ∧ (atRemote c.bits = false) ∧ 
      let x := (s.tile g).acc (atBuf c.bits)
      ((x.row (row0Of c.bits + r.done)).sat = false) ∧ 
      let sats : List Bool := val (mapAll (addPieces (atRow c.bits r.done) ((List.range (atLanes c.bits)).map (x.entry (row0Of c.bits + r.done)))) (fun q => atomicAccess g q.1 q.2)) (s.setReg (.tile g .lft) LFT.CMD_BUSY 1) ([])
      let s' : State := M.after (mapAll (addPieces (atRow c.bits r.done) ((List.range (atLanes c.bits)).map (x.entry (row0Of c.bits + r.done)))) (fun q => atomicAccess g q.1 q.2)) (s.setReg (.tile g .lft) LFT.CMD_BUSY 1)
      (mapAll (addPieces (atRow c.bits r.done) ((List.range (atLanes c.bits)).map (x.entry (row0Of c.bits + r.done))))
      (fun q => atomicAccess g q.1 q.2) (s.setReg (.tile g .lft) LFT.CMD_BUSY 1) = .ok sats s')) ∧
    (∃ (s : State) (g : TileId) (c : Active) (r : CopyRun) (n : PortId), ((s.tile g).units.lift = [c]) ∧ (c.op = Op.atomic) ∧ (c.released = true) ∧ ((s.tile g).units.switch = none) ∧ ((s.tile g).units.list = none) ∧ ((s.tile g).units.copy = some r) ∧ (r.done + 1 = nrowsOf c.bits) ∧ ((s.part (partOf g)).replaying = none) ∧ ((s.tile g).units.cnv = []) ∧ (noFetch s g) ∧ (atInPmem s.variant c.bits = true) ∧ (atRemote c.bits = true) ∧ (portFor s (partOf g) (atStn c.bits) = some n) ∧ (stationUp s n (atStn c.bits) = true) ∧ (((s.port n).tx.filter fun t => t.dst = atStn c.bits).length < 1024)) :=
  ⟨⟨(at0 State.reset), 5, (act atW), arun, by refine ⟨?_, ?_, ?_, ?_, ?_, ?_, ?_, ?_, ?_, by unfold noFetch; decide +kernel, ?_, ?_, ?_, okv (by decide +kernel)⟩ <;> decide +kernel⟩,
   ⟨(at1 State.reset), 5, (act atR), arun, 0, by refine ⟨?_, ?_, ?_, ?_, ?_, ?_, ?_, ?_, ?_, by unfold noFetch; decide +kernel, ?_, ?_, ?_, ?_, ?_⟩ <;> decide +kernel⟩⟩

theorem witness_LiftAndSwitchLists :
    (∃ (s : State) (g : TileId), (pageWritable s (.tile g .lft) = true) ∧ (s.reg (.tile g .lft) LFT.LIST_BUSY = 0) ∧ (s.reg (.tile g .lft) LFT.LIST_CNT ≠ 0)) ∧
    (∃ (s : State) (g : TileId), (pageWritable s (.tile g .lft) = true) ∧ (s.reg (.tile g .lft) LFT.LIST_BUSY ≠ 0)) ∧
    (∃ (s : State) (g : TileId), (pageWritable s (.tile g .lft) = true) ∧ ((s.tile g).units.list ≠ none) ∧ (listInPiece s g = false)) ∧
    (∃ (s : State) (g : TileId) (d : Nat) (r : CopyRun), ((s.tile g).units.switch = none) ∧ ((s.tile g).units.lift = []) ∧ ((s.tile g).units.list = some r) ∧ ((s.tile g).units.loading = false) ∧ ((s.tile g).units.listAbort = false) ∧ (noFetch s g) ∧ (pieceServed s g d r) ∧ 
      let n := pieceLen (LiftD.dst d) (LiftD.len d) r.done
      (r.done + n ≠ LiftD.len d)) ∧
    (∃ (s : State) (g : TileId) (d : Nat) (r : CopyRun), ((s.tile g).units.switch = none) ∧ ((s.tile g).units.lift = []) ∧ ((s.tile g).units.list = some r) ∧ ((s.tile g).units.loading = false) ∧ (noFetch s g) ∧ (pieceServed s g d r) ∧ 
      let n := pieceLen (LiftD.dst d) (LiftD.len d) r.done
      (r.done + n = LiftD.len d) ∧ (LiftD.sig d = false) ∧ ((LiftD.chk d = true →
      crc32Final (crc32Run r.crc ((s.tile g).spd.data.read (LiftD.src d + r.done) n)) = LiftD.crc d)) ∧ (s.reg (.tile g .lft) LFT.LIST_CNT = r.idx + 1)) ∧
    (∃ (s : State) (g : TileId) (d : Nat) (r : CopyRun), ((s.tile g).units.switch = some r) ∧ (pieceServed s g d r) ∧ 
      let n := pieceLen (LiftD.dst d) (LiftD.len d) r.done
      (r.done + n = LiftD.len d) ∧ (LiftD.sig d = false) ∧ ((LiftD.chk d = true →
      crc32Final (crc32Run r.crc ((s.tile g).spd.data.read (LiftD.src d + r.done) n)) = LiftD.crc d)) ∧ (s.reg (.tile g .lft) LFT.SW_CNT.active = r.idx + 1)) ∧
    (∃ (s : State) (g : TileId) (r : CopyRun), ((s.tile g).units.switch = none) ∧ ((s.tile g).units.lift = []) ∧ ((s.tile g).units.list = some r) ∧ ((s.tile g).units.loading = false) ∧ ((s.tile g).units.listAbort = false) ∧ (noFetch s g) ∧ 
      let r' : CopyRun := val (descStep g (listReq g 4) (s.reg (.tile g .lft) LFT.LIST_BASE) r) s (⟨0, 0, 0, none⟩)
      let s' : State := M.after (descStep g (listReq g 4) (s.reg (.tile g .lft) LFT.LIST_BASE) r) s
      (descStep g (listReq g 4) (s.reg (.tile g .lft) LFT.LIST_BASE) r s = .ok r' s') ∧ (r'.idx = r.idx)) ∧
    (∃ (s : State) (g : TileId) (r : CopyRun), ((s.tile g).units.switch = none) ∧ ((s.tile g).units.lift = []) ∧ ((s.tile g).units.list = some r) ∧ ((s.tile g).units.loading = false) ∧ (noFetch s g) ∧ 
      let r' : CopyRun := val (descStep g (listReq g 4) (s.reg (.tile g .lft) LFT.LIST_BASE) r) s (⟨0, 0, 0, none⟩)
      let s' : State := M.after (descStep g (listReq g 4) (s.reg (.tile g .lft) LFT.LIST_BASE) r) s
      (descStep g (listReq g 4) (s.reg (.tile g .lft) LFT.LIST_BASE) r s = .ok r' s') ∧ (r'.idx = r.idx + 1) ∧ (s.reg (.tile g .lft) LFT.LIST_CNT = r'.idx)) ∧
    (∃ (s : State) (g : TileId) (r : CopyRun) (l : LoadRun) (rest : List LoadRun), ((s.tile g).units.switch = none) ∧ ((s.tile g).units.lift = []) ∧ ((s.tile g).units.list = some r) ∧ ((s.tile g).units.loading = true) ∧ ((s.tile g).units.loads = l :: rest) ∧ (noFetch s g) ∧ 
      let r' : CopyRun := val (loadStep g l r) s (⟨0, 0, 0, none⟩)
      let s' : State := M.after (loadStep g l r) s
      (loadStep g l r s = .ok r' s') ∧ (r'.idx = r.idx + 1) ∧ (l.descs.length = r'.idx)) ∧
    (∃ (s : State) (g : TileId) (r : CopyRun), ((s.tile g).units.switch = some r) ∧ 
      let r' : CopyRun := val (descStep g (listReq g 7) (s.reg (.tile g .lft) LFT.SW_BASE.active) r) s (⟨0, 0, 0, none⟩)
      let s' : State := M.after (descStep g (listReq g 7) (s.reg (.tile g .lft) LFT.SW_BASE.active) r) s
      (descStep g (listReq g 7) (s.reg (.tile g .lft) LFT.SW_BASE.active) r s = .ok r' s') ∧ (r'.idx = r.idx + 1) ∧ (s.reg (.tile g .lft) LFT.SW_CNT.active = r'.idx)) :=
  ⟨⟨(regs State.reset [(.tile 5 .lft, LFT.LIST_BUSY, 0), (.tile 5 .lft, LFT.LIST_CNT, 3)]), 5, by refine ⟨?_, ?_, ?_⟩ <;> decide +kernel⟩,
   ⟨(regs State.reset [(.tile 5 .lft, LFT.LIST_BUSY, 1), (.tile 5 .lft, LFT.LIST_CNT, 3)]), 5, by refine ⟨?_, ?_⟩ <;> decide +kernel⟩,
   ⟨(onList State.reset arun), 5, by refine ⟨?_, ?_, ?_⟩ <;> decide +kernel⟩,
   ⟨(ls State.reset r1 2), 5, ld2, r1, by refine ⟨?_, ?_, ?_, ?_, ?_, by unfold noFetch; decide +kernel, pieceServed_of (by decide +kernel) (by decide +kernel) (by decide +kernel), ?_⟩ <;> decide +kernel⟩,
   ⟨(ls State.reset r2 2), 5, ld, r2, by refine ⟨?_, ?_, ?_, ?_, by unfold noFetch; decide +kernel, pieceServed_of (by decide +kernel) (by decide +kernel) (by decide +kernel), ?_, ?_, ?_, ?_⟩ <;> decide +kernel⟩,
   ⟨(tile (ls State.reset r2 2) 5 fun t => { t with units := { t.units with list := none, switch := some r2 } }), 5, ld, r2, by refine ⟨?_, pieceServed_of (by decide +kernel) (by decide +kernel) (by decide +kernel), ?_, ?_, ?_, ?_⟩ <;> decide +kernel⟩,
   ⟨(ls State.reset r0 2), 5, r0, by refine ⟨?_, ?_, ?_, ?_, ?_, by unfold noFetch; decide +kernel, okv (by decide +kernel), ?_⟩ <;> decide +kernel⟩,
   ⟨(ls State.reset r2 2), 5, r2, by refine ⟨?_, ?_, ?_, ?_, by unfold noFetch; decide +kernel, okv (by decide +kernel), ?_, ?_⟩ <;> decide +kernel⟩,
   ⟨(ldS State.reset), 5, r2, lrun, [], by refine ⟨?_, ?_, ?_, ?_, ?_, by unfold noFetch; decide +kernel, okv (by decide +kernel), ?_, ?_⟩ <;> decide +kernel⟩,
   ⟨(sw State.reset), 5, r2, by refine ⟨?_, okv (by decide +kernel), ?_, ?_⟩ <;> decide +kernel⟩⟩

end W5

namespace W6
def fr (l : List (PageId × Fld × Nat)) (b : State) : State := regs b (l ++ [(.link 0, LINK.STN, 4), (.link 0, LINK.LAPSYNC, 1), (.link 0, LINK.LAPMAP_ACT 0, 0x1004_0504), (.link 0, LINK.LAPMAP_ACT 1, 0x10040504), (.link 0, LINK.LAPMAP_ACT 2, 0x10040504), (.link 0, LINK.LAPMAP_ACT 3, 0x10040504), (.link 0, LINK.MEMBER, 0x38), (.link 0, LINK.UP, 0x38), (.link 1, LINK.STATE, 0), (.link 0, LINK.KGEN_CUR, 3), (.link 0, LINK.JOB, 77), (.link 0, LINK.DEPOCH, 9), (.peer 0, PEER.P_DEPOCH 5, 6), (.link 0, LINK.LAP, 100), (.link 0, LINK.MAPVER, 7)] ++ (List.range 4).flatMap fun p => [(.peer 0, PEER.XR_HEAD p, 9), (.peer 0, PEER.XR_TAIL p, 9)])
def pt (st : Nat) (b : State) : State := port (fr [(.link 0, LINK.STATE, st), (.link 0, LINK.MASTER, 1)] b) 0 fun x => { x with slot := 1, muted := none, tx := [], joinAcks := [], newMap := none, keyCur := 5, out := [], held := [], dark := 0, badLaps := 0 }
def f0 : Frame := ⟨5, 1, 2, 1, 3, 6, 100, 77, 3, 7, [], (List.range 12).map fun i => ⟨8, 9, i = 4⟩, 5⟩
def outp (b : State) (f : Frame) : State := port (pt 3 b) 0 fun x => { x with out := [f], backoff := 0, collisions := 2 }
def f2 : Frame := { f0 with slot := 2, msgs := [mkMsg 1 7 0 0 [1]] }
def f3 : Frame := { f0 with slot := 3 }
def fa : Frame := { f0 with slot := 1 }
def noXfer (s : State) : State := (List.finRange 4).foldl (fun s p => part s p fun x => { x with xfer := none }) s
def sd : Sender := ⟨5, 1, 3⟩
def mg (t arg : Nat) (d : List Byte) : Msg := mkMsg t 4 2 arg d
def ended (b : State) : State := port (pt 3 b) 0 fun x => { x with epochsEnded := x.epochsEnded.put 21 (some 4) }
def live (b : State) : State := port (opn (pput (pt 3 b) 2 0x1000 [1, 2, 3, 4]) 24) 0 fun x => { x with epochsEnded := x.epochsEnded.put 21 (some 2) }
def lw (b : State) : State := regs (eng (live b) fun e => { e with windows := [(6, ⟨88, 3, 2 ^ 21 + 2 ^ 3⟩)] }) [(.peer 0, PEER.WSTATE 6, 1), (.peer 0, PEER.ARRIVED 6, 8)]
def gs (b : State) : State := withGate (live b) 2 ⟨9, true⟩ (gate0 5 0x400000)
def xf (op sig : Nat) : Xfer := ⟨op + (5 <<< 2) + (1 <<< 6) + (9 <<< 8) + (1 <<< 18) + (sig <<< 19) + (24 <<< 32) + (0x1000 <<< 64) + (0x2000 <<< 128), 24, [(77, 8, 16), (76, 0, 8)], 0, 0⟩
def lx (op : Nat) (b : State) : State := regs (part (live b) 2 fun x => { x with xfer := some (xf op 0) }) [(.dlw, DLW.STATE 2, 0), (.peer 0, PEER.OWN_PEPOCH, 7 * 2 ^ 24)]
def nm : NewMap := ⟨[1, 2, 3, 4], 99, 9, false, []⟩
def tw0 (b : State) : State := regs (part (pput (live b) 2 (0x4000 + 32 * 5) ((leBytes 32 (xf 0 1).desc).take 18)) 2 fun x => { x with xfer := none }) [(.peer 0, PEER.XR_BASE 2, 0x4000 / 32), (.peer 0, PEER.XR_LOG2 2, 3), (.peer 0, PEER.XR_TAIL 2, 5), (.peer 0, PEER.XR_HEAD 2, 5)]
def xd (b : State) (sig : Nat) : State := regs (part (live b) 2 fun x => { x with xfer := some { xf 0 sig with open_ := [] } }) [(.peer 0, PEER.XR_BASE 2, 0x4000 / 32), (.peer 0, PEER.XR_LOG2 2, 3), (.peer 0, PEER.XR_TAIL 2, 5), (.peer 0, PEER.XR_HEAD 2, 6)]
def fj : Frame := { f0 with slot := 3, lap := 99, msgs := [mkMsg MsgType.join 7 0 0 []] }


theorem witness_PisteSlotsAndEchoes :
    (∃ (s : State) (n : PortId), (n.val < s.variant.ports) ∧ (s.reg (.link n) LINK.LAPSYNC = 1) ∧ (portState s n = PortState.member) ∧ ((s.port n).slot < 15) ∧ (muted s n = false) ∧ (ownsSlot s n (ownStn s n) ((s.port n).slot + 1) = true) ∧ ((s.port n).tx = []) ∧ ((s.port n).joinAcks = []) ∧ ((s.port n).newMap = none) ∧ (fenceMsgs s = [])) ∧
    (∃ (s : State) (n : PortId) (wl : Fin 4) (f : Frame) (burst : List Byte) (energy : Bool), ((s.port n).out.find? (fun f => f.wl = wl) = some f) ∧ (contentionSlot s n f.slot.val = false) ∧ (echoClean f burst energy = true)) ∧
    (∃ (s : State) (n : PortId) (wl : Fin 4) (f : Frame), ((s.port n).out.find? (fun f => f.wl = wl) = some f)) ∧
    (∃ (s : State) (n : PortId) (wl : Fin 4) (f : Frame) (burst : List Byte) (energy : Bool), ((s.port n).out.find? (fun f => f.wl = wl) = some f) ∧ (contentionSlot s n f.slot.val = true) ∧ (echoClean f burst energy = false)) ∧
    (∃ (s : State) (n : PortId) (wl : Fin 4) (f : Frame) (burst : List Byte) (energy : Bool), ((s.port n).out.find? (fun f => f.wl = wl) = some f) ∧ (contentionSlot s n f.slot.val = false) ∧ (echoClean f burst energy = false)) :=
  ⟨⟨(pt 3 State.reset), 0, by refine ⟨?_, ?_, ?_, ?_, ?_, ?_, ?_, ?_, ?_, ?_⟩ <;> decide +kernel⟩,
   ⟨(outp State.reset f2), 0, 2, f2, (burstOf f2), false, by refine ⟨?_, ?_, ?_⟩ <;> decide +kernel⟩,
   ⟨(outp State.reset f3), 0, 2, f3, by decide +kernel⟩,
   ⟨(outp State.reset f3), 0, 2, f3, (burstOf f2), false, by refine ⟨?_, ?_, ?_⟩ <;> decide +kernel⟩,
   ⟨(outp State.reset f2), 0, 2, f2, (burstOf f3), false, by refine ⟨?_, ?_, ?_⟩ <;> decide +kernel⟩⟩

theorem witness_FramesReadBack :
    (∃ (body : List Byte), (body.length ≤ 4608)) ∧
    (∃ (f : Frame), (f.stn < 2 ^ 4) ∧ (f.epoch < 2 ^ 12) ∧ (f.depoch < 2 ^ 12) ∧ (f.lap < 2 ^ 48) ∧ (f.kgen < 2 ^ 8) ∧ (f.mapver < 2 ^ 8) ∧ ((∀ m ∈ f.msgs, wfMsg m = true ∧ m.type ≠ 0 ∧ m.data.length < 2 ^ 12)) ∧ ((payload f).length ≤ 4096) ∧ (f.acks.length = 12) ∧ ((∀ e ∈ f.acks, e.rxNext < 2 ^ 16 ∧ e.depoch < 2 ^ 12))) :=
  ⟨⟨[1, 2, 3], by decide +kernel⟩,
   ⟨{ f0 with msgs := [mkMsg 1 7 0 0 [1, 2, 3], mkMsg 9 7 2 0x123456789A []] }, by refine ⟨?_, ?_, ?_, ?_, ?_, ?_, ?_, ?_, ?_, ?_⟩ <;> decide +kernel⟩⟩

theorem witness_FrameClasses :
    (∃ (s : State) (n : PortId), (portState s n = PortState.off ∨ portState s n = PortState.starDown)) ∧
    (∃ (s : State) (n : PortId) (burst : List Byte), (portState s n ≠ PortState.off) ∧ (portState s n ≠ PortState.starDown) ∧ ((received s n burst).2 = none)) ∧
    (∃ (s : State) (n : PortId) (burst : List Byte), (portState s n ≠ PortState.off) ∧ (portState s n ≠ PortState.starDown) ∧ ((received s n burst).2 = some none)) ∧
    (∃ (s : State) (n : PortId) (burst : List Byte) (f : Frame), (portState s n = PortState.member) ∧ ((received s n burst).2 = some (some f)) ∧ (singleJoin f = false) ∧ ((12 ≤ f.stn ∨ (s.reg (.link n) LINK.MEMBER).testBit f.stn = false ∨ ownsSlot s n f.stn f.slot.val = false))) ∧
    (∃ (s : State) (n : PortId) (burst : List Byte) (f : Frame), (portState s n = PortState.member) ∧ ((received s n burst).2 = some (some f)) ∧ (f.stn < 12) ∧ ((s.reg (.link n) LINK.MEMBER).testBit f.stn = true) ∧ (ownsSlot s n f.stn f.slot.val = true) ∧ (singleJoin f = false) ∧ (newerEpoch (s.reg (.peer n) (PEER.P_DEPOCH f.stn)) f.depoch = true)) ∧
    (∃ (s : State) (n : PortId) (burst : List Byte) (f : Frame) (e : AckEntry), (portState s n = PortState.member) ∧ ((received s n burst).2 = some (some f)) ∧ (f.stn < 12) ∧ (f.stn ≠ ownStn s n) ∧ ((s.reg (.link n) LINK.MEMBER).testBit f.stn = true) ∧ (ownsSlot s n f.stn f.slot.val = true) ∧ (f.msgs = []) ∧ (s.reg (.peer n) (PEER.P_DEPOCH f.stn) = f.depoch) ∧ (peerEpoch s n f.stn f.part.val = f.epoch) ∧ (f.lap * 16 + f.slot.val ≤ s.reg (.link n) LINK.LAP * 16 + (s.port n).slot) ∧ (s.reg (.link n) LINK.LAPSYNC = 1) ∧ (f.acks[ownStn s n]? = some e) ∧ (e.valid = true) ∧ (e.depoch = s.reg (.link n) LINK.DEPOCH) ∧ ((s.port n).held = []) ∧ ((∀ p, (s.part p).xfer = none ∧ s.reg (.peer 0) (PEER.XR_TAIL p.val) = s.reg (.peer 0) (PEER.XR_HEAD p.val)))) ∧
    (∃ (s : State) (n : PortId) (burst : List Byte) (f : Frame) (e : AckEntry), (portState s n = PortState.member) ∧ ((received s n burst).2 = some (some f)) ∧ (f.stn < 12) ∧ (f.stn ≠ ownStn s n) ∧ (singleJoin f = true) ∧ (contentionSlot s n f.slot.val = true) ∧ (f.lap * 16 + f.slot.val ≤ s.reg (.link n) LINK.LAP * 16 + (s.port n).slot) ∧ (s.reg (.link n) LINK.LAPSYNC = 1) ∧ (f.acks[ownStn s n]? = some e) ∧ (e.valid = true) ∧ (e.depoch = s.reg (.link n) LINK.DEPOCH) ∧ ((s.port n).held = []) ∧ ((∀ p, (s.part p).xfer = none ∧ s.reg (.peer 0) (PEER.XR_TAIL p.val) = s.reg (.peer 0) (PEER.XR_HEAD p.val)))) :=
  ⟨⟨(pt 0 State.reset), 0, by decide +kernel⟩,
   ⟨(pt 1 State.reset), 0, [1, 2], by refine ⟨?_, ?_, ?_⟩ <;> decide +kernel⟩,
   ⟨(pt 3 State.reset), 0, (burstOf { f0 with key := 4 }), by refine ⟨?_, ?_, ?_⟩ <;> decide +kernel⟩,
   ⟨(pt 3 State.reset), 0, (burstOf { f0 with stn := 7 }), { f0 with stn := 7 }, by refine ⟨?_, ?_, ?_, ?_⟩ <;> decide +kernel⟩,
   ⟨(pt 3 State.reset), 0, (burstOf { f0 with depoch := 5, slot := 1 }), { f0 with depoch := 5, slot := 1 }, by refine ⟨?_, ?_, ?_, ?_, ?_, ?_, ?_⟩ <;> decide +kernel⟩,
   ⟨(noXfer (port (pt 3 (regs State.reset [(.peer 0, PEER.P_PEPOCH 5, 3 * 2 ^ 12)])) 0 fun x => { x with tx := [⟨5, 1, 3, mkMsg 1 7 0 0 [1], some 7, 9, false, .port⟩, ⟨5, 1, 3, mkMsg 1 7 0 0 [1], some 8, 9, false, .port⟩, ⟨6, 1, 3, mkMsg 1 7 0 0 [1], some 2, 0, false, .port⟩] })), 0, (burstOf fa), fa, ⟨8, 9, true⟩, by refine ⟨?_, ?_, ?_, ?_, ?_, ?_, ?_, ?_, ?_, ?_, ?_, ?_, ?_, ?_, ?_, ?_⟩ <;> decide +kernel⟩,
   ⟨(noXfer (pt 3 State.reset)), 0, (burstOf fj), fj, ⟨8, 9, true⟩, by refine ⟨?_, ?_, ?_, ?_, ?_, ?_, ?_, ?_, ?_, ?_, ?_, ?_, ?_⟩ <;> decide +kernel⟩⟩

theorem witness_PisteMessagesDelivered :
    (∃ (s : State) (n : PortId) (src : Sender) (m : Msg) (i : Instr), (i ∈ [Instr.write n src m, .read n src m, .writeAck n src m, .readData n src m, .atomAdd n src m, .gateSig n src m]) ∧ (epochEnded (s.port n) src.stn.val src.part.val src.epoch = true)) ∧
    (∃ (s : State) (n k : PortId) (src : Sender) (m : Msg), (epochLives s n src) ∧ (replyPort s n m.dpart src.stn.val = k) ∧ (replyRoom s n m.dpart src.stn.val = true) ∧ (portOk s m.dpart .w (msgArg m 39 0) m.data.length) ∧ 
      let s' : State := M.after (mcWriteOp m.dpart 6 (msgArg m 39 0) m.data [] []) s
      (mcWriteOp m.dpart 6 (msgArg m 39 0) m.data [] [] s = .ok () s')) ∧
    (∃ (s : State) (n k : PortId) (src : Sender) (m : Msg), (epochLives s n src) ∧ (replyPort s n m.dpart src.stn.val = k) ∧ (replyRoom s n m.dpart src.stn.val = true) ∧ (portOk s m.dpart .r (msgArg m 39 0) (4 * msgArg m 49 40)) ∧ 
      let bs : List Byte := val (mcReadOp m.dpart 6 (msgArg m 39 0) (4 * msgArg m 49 40) [] [] false) s ([])
      let s' : State := M.after (mcReadOp m.dpart 6 (msgArg m 39 0) (4 * msgArg m 49 40) [] [] false) s
      (mcReadOp m.dpart 6 (msgArg m 39 0) (4 * msgArg m 49 40) [] [] false s = .ok bs s')) ∧
    (∃ (s : State) (n k : PortId) (src : Sender) (m : Msg), (epochLives s n src) ∧ (replyPort s n m.dpart src.stn.val = k) ∧ (replyRoom s n m.dpart src.stn.val = true) ∧ (portOk s m.dpart .w (msgArg m 39 0) m.data.length) ∧ (m.data ≠ []) ∧ (msgArg m 39 0 % 64 + m.data.length ≤ 64) ∧ ((∀ c, ((s.part m.dpart).ctl c).fixups = [])) ∧ 
      let v := interleave s.variant (msgArg m 39 0 / 64 * 64)
      (classify (((s.part m.dpart).ctl v.1).burst v.2) = .clean)) ∧
    (∃ (s : State) (n k : PortId) (src : Sender) (m : Msg), (epochLives s n src) ∧ (replyPort s n m.dpart src.stn.val = k) ∧ (replyRoom s n m.dpart src.stn.val = true) ∧ (portOk s m.dpart .r (msgArg m 39 0) (4 * msgArg m 49 40)) ∧ (burstsClean s m.dpart (msgArg m 39 0) (4 * msgArg m 49 40))) ∧
    (∃ (s : State) (n : PortId) (src : Sender) (m : Msg), (epochLives s n src) ∧ (m.data ≠ []) ∧ (m.data.length % 4 = 0) ∧ (portOk s m.dpart .a (msgArg m 39 0) m.data.length) ∧ (msgArg m 39 0 % 4 = 0) ∧ (msgArg m 39 0 % 64 + m.data.length ≤ 64) ∧ ((∀ c, ((s.part m.dpart).ctl c).fixups = [])) ∧ (winFor s (msgArg m 55 40) = none) ∧ 
      let v := interleave s.variant (msgArg m 39 0 / 64 * 64)
      (classify (((s.part m.dpart).ctl v.1).burst v.2) = .clean)) ∧
    (∃ (s : State) (n : PortId) (src : Sender) (m : Msg), (epochLives s n src) ∧ (portOk s m.dpart .a (msgArg m 39 0) m.data.length) ∧ 
      let sat : Bool := val (atomAll m.dpart (msgArg m 39 0) ((leWords m.data).map (sext 32))) s (false)
      let s' : State := M.after (atomAll m.dpart (msgArg m 39 0) ((leWords m.data).map (sext 32))) s
      (atomAll m.dpart (msgArg m 39 0) ((leWords m.data).map (sext 32)) s = .ok sat s') ∧ (winFor s (msgArg m 55 40) = none)) ∧
    (∃ (s : State) (n : PortId) (src : Sender) (m : Msg) (w : Nat), (epochLives s n src) ∧ (portOk s m.dpart .a (msgArg m 39 0) m.data.length) ∧ 
      let sat : Bool := val (atomAll m.dpart (msgArg m 39 0) ((leWords m.data).map (sext 32))) s (false)
      let s' : State := M.after (atomAll m.dpart (msgArg m 39 0) ((leWords m.data).map (sext 32))) s
      (atomAll m.dpart (msgArg m 39 0) ((leWords m.data).map (sext 32)) s = .ok sat s') ∧ (winFor s (msgArg m 55 40) = some w) ∧ ((winLatch s w).expect.testBit (4 * src.stn.val + src.part.val) = true) ∧ (m.last = true) ∧ ((s.reg (.peer 0) (PEER.ARRIVED w)).testBit (4 * src.stn.val + src.part.val) = false)) ∧
    (∃ (s : State) (n : PortId) (src : Sender) (m : Msg), (epochLives s n src) ∧ 
      let r : GateRef := ⟨msgArg m 7 0, true⟩
      ((s.gate m.dpart r).valid = true) ∧ ((s.gate m.dpart r).cfg.testBit 22 = true)) ∧
    (∃ (s : State) (n : PortId) (src : Sender) (m : Msg) (x : Xfer) (e : Nat × Nat × Nat), (epochLives s n src) ∧ (msgArg m 51 40 = ownEpoch s m.dpart) ∧ (partFenced s m.dpart = false) ∧ ((s.part m.dpart).xfer = some x) ∧ (x.open_.find? (fun o => o.1 = msgArg m 29 16) = some e) ∧ (XferD.stn x.desc = src.stn.val) ∧ (msgArg m 15 0 ≠ Err.none ∨ XferD.op x.desc ≠ 1)) ∧
    (∃ (s : State) (n : PortId) (src : Sender) (m : Msg) (x : Xfer) (e : Nat × Nat × Nat), (epochLives s n src) ∧ (msgArg m 51 40 = ownEpoch s m.dpart) ∧ (partFenced s m.dpart = false) ∧ ((s.part m.dpart).xfer = some x) ∧ (x.open_.find? (fun o => o.1 = msgArg m 29 16) = some e) ∧ (XferD.stn x.desc = src.stn.val) ∧ (msgArg m 15 0 = Err.none) ∧ (XferD.op x.desc = 1) ∧ (portOk s m.dpart .w (XferD.local_ x.desc + e.2.1) e.2.2) ∧ 
      let s' : State := M.after (mcWriteOp m.dpart 6 (XferD.local_ x.desc + e.2.1) (m.data.take e.2.2) [] []) s
      (mcWriteOp m.dpart 6 (XferD.local_ x.desc + e.2.1) (m.data.take e.2.2) [] [] s = .ok () s')) :=
  ⟨⟨(ended State.reset), 0, sd, (mg 1 0 [1]), (.write 0 sd (mg 1 0 [1])), by refine ⟨?_, ?_⟩ <;> decide +kernel⟩,
   ⟨(live State.reset), 0, 0, sd, (mg 1 (0x1004 + 9 <<< 50) [1, 2, 3, 4]), by refine ⟨by unfold epochLives; decide +kernel, ?_, ?_, by unfold portOk; decide +kernel, okU (by decide +kernel)⟩ <;> decide +kernel⟩,
   ⟨(live State.reset), 0, 0, sd, (mg 3 (0x1004 + 9 <<< 50 + 3 <<< 40) []), by refine ⟨by unfold epochLives; decide +kernel, ?_, ?_, by unfold portOk; decide +kernel, okv (by decide +kernel)⟩ <;> decide +kernel⟩,
   ⟨(live State.reset), 0, 0, sd, (mg 1 (0x1004 + 9 <<< 50) [1, 2, 3, 4]), by refine ⟨by unfold epochLives; decide +kernel, ?_, ?_, by unfold portOk; decide +kernel, ?_, ?_, ?_, ?_⟩ <;> decide +kernel⟩,
   ⟨(live State.reset), 0, 0, sd, (mg 3 (0x1004 + 9 <<< 50 + 30 <<< 40) []), by refine ⟨by unfold epochLives; decide +kernel, ?_, ?_, by unfold portOk; decide +kernel, by unfold burstsClean; decide +kernel⟩ <;> decide +kernel⟩,
   ⟨(live State.reset), 0, sd, (mg 5 0x1000 (leBytes 4 5 ++ leBytes 4 (2^32-7))), by refine ⟨by unfold epochLives; decide +kernel, ?_, ?_, by unfold portOk; decide +kernel, ?_, ?_, ?_, ?_, ?_⟩ <;> decide +kernel⟩,
   ⟨(live State.reset), 0, sd, (mg 5 0x1004 (leBytes 4 5 ++ leBytes 4 (2^32-7))), by refine ⟨by unfold epochLives; decide +kernel, by unfold portOk; decide +kernel, okv (by decide +kernel), ?_⟩ <;> decide +kernel⟩,
   ⟨(lw State.reset), 0, sd, { mg 5 (0x1004 + 88 <<< 40) (leBytes 4 5 ++ leBytes 4 (2^32-7)) with last := true }, 6, by refine ⟨by unfold epochLives; decide +kernel, by unfold portOk; decide +kernel, okv (by decide +kernel), ?_, ?_, ?_, ?_⟩ <;> decide +kernel⟩,
   ⟨(gs State.reset), 0, sd, (mg 6 (9 + 3 <<< 8) []), by refine ⟨by unfold epochLives; decide +kernel, ?_, ?_⟩ <;> decide +kernel⟩,
   ⟨(lx 0 State.reset), 0, sd, (mg 2 (77 <<< 16 + 7 <<< 40) []), (xf 0 0), (77, 8, 16), by refine ⟨by unfold epochLives; decide +kernel, ?_, ?_, ?_, ?_, ?_, ?_⟩ <;> decide +kernel⟩,
   ⟨(lx 1 State.reset), 0, sd, (mg 4 (77 <<< 16 + 7 <<< 40) (List.replicate 20 9)), (xf 1 0), (77, 8, 16), by refine ⟨by unfold epochLives; decide +kernel, ?_, ?_, ?_, ?_, ?_, ?_, ?_, by unfold portOk; decide +kernel, okU (by decide +kernel)⟩ <;> decide +kernel⟩⟩

theorem witness_PisteMembership :
    (∃ (m : Msg) (p : Fin 4) (w : Nat), ((leWords m.data)[p.val]? = some w)) ∧
    (∃ (s : State) (n : PortId) (src : Sender) (m : Msg), ((s.port n).epochsEnded.look (4 * src.stn.val + msgArg m 1 0) = none)) ∧
    (∃ (s : State) (n : PortId) (m : Msg), (s.reg (.link n) LINK.MASTER = 1) ∧ (portState s n = PortState.member) ∧ (msgArg m 11 0 = 0xFFF)) ∧
    (∃ (s : State) (n : PortId) (m : Msg), (m.dst < 12) ∧ (m.dst = ownStn s n) ∧ (portState s n = PortState.joining) ∧ (mapGives s n m.dst = true)) ∧
    (∃ (s : State) (n : PortId) (m : Msg), (m.dst < 12) ∧ (m.dst = ownStn s n) ∧ (portState s n = PortState.joining) ∧ (mapGives s n m.dst = false)) ∧
    (∃ (s : State) (n : PortId) (m : Msg), (m.dst < 12) ∧ (m.dst ≠ ownStn s n)) ∧
    (∃ (s : State) (n : PortId) (src : Sender), (stationUp s n src.stn.val = true)) ∧
    (∃ (s : State) (n : PortId) (stn : StnId), (stationUp s n stn.val = true) ∧ (s.reg (.link n) LINK.DOWN_LAPS ≤ ((s.port n).downLaps.look stn.val).getD 0)) ∧
    (∃ (s : State) (n : PortId) (src : Sender) (m : Msg), (src.stn.val ≠ ownStn s n) ∧ (newerMap (msgArg m 55 48) (s.reg (.link n) LINK.MAPVER) = true)) ∧
    (∃ (s : State) (n : PortId) (m : NewMap), ((s.port n).newMap = some m) ∧ (m.eff ≤ s.reg (.link n) LINK.LAP) ∧ (m.mine = false) ∧ ((s.port n).joinAcked = false)) ∧
    (∃ (s : State) (n : PortId) (m : NewMap), ((s.port n).newMap = some m) ∧ (m.eff ≤ s.reg (.link n) LINK.LAP) ∧ ((s.port n).joinAcked = true) ∧ (portState s n = PortState.joining)) ∧
    (∃ (s : State) (n : PortId), (portState s n ≠ PortState.off) ∧ (portState s n ≠ PortState.starDown) ∧ (s.reg (.link n) LINK.DOWN_LAPS ≤ (s.port n).badLaps ∨ 2000 ≤ (s.port n).dark) ∧ (portMember s (1 - n) = true)) ∧
    (∃ (s : State) (n : PortId), ((s.port n).badLaps < s.reg (.link n) LINK.DOWN_LAPS) ∧ ((s.port n).dark < 2000)) :=
  ⟨⟨(mg 7 0 ((List.range 16).map (BitVec.ofNat 8))), 2, (leNat [8, 9, 10, 11]), by decide +kernel⟩,
   ⟨(port (pt 3 State.reset) 0 fun x => { x with epochsEnded := [] }), 0, sd, (mg 8 (1 + 9 * 2 ^ 12) []), by decide +kernel⟩,
   ⟨(pt 3 State.reset), 0, (mg 9 0xFFF []), by refine ⟨?_, ?_, ?_⟩ <;> decide +kernel⟩,
   ⟨(pt 2 State.reset), 0, (mg 10 (9 + 0x123456789ABC <<< 12) []), by refine ⟨?_, ?_, ?_, ?_⟩ <;> decide +kernel⟩,
   ⟨(regs (pt 2 State.reset) [(.link 0, LINK.STN, 7)]), 0, { mg 10 (9 + 0x123456789ABC <<< 12) [] with dst := 7 }, by refine ⟨?_, ?_, ?_, ?_⟩ <;> decide +kernel⟩,
   ⟨(pt 3 State.reset), 0, { mg 10 (9 + 0x123456789ABC <<< 12) [] with dst := 6 }, by refine ⟨?_, ?_⟩ <;> decide +kernel⟩,
   ⟨(pt 3 State.reset), 0, sd, by decide +kernel⟩,
   ⟨(port (pt 3 (regs State.reset [(.link 0, LINK.DOWN_LAPS, 4)])) 0 fun x => { x with downLaps := [(5, 4)] }), 0, 5, by refine ⟨?_, ?_⟩ <;> decide +kernel⟩,
   ⟨(pt 3 State.reset), 0, sd, (mg 12 (123 + 9 <<< 48) ((List.range 16).map (BitVec.ofNat 8))), by refine ⟨?_, ?_⟩ <;> decide +kernel⟩,
   ⟨(port (pt 3 State.reset) 0 fun x => { x with newMap := some nm, joinAcked := false }), 0, nm, by refine ⟨?_, ?_, ?_, ?_⟩ <;> decide +kernel⟩,
   ⟨(port (pt 2 State.reset) 0 fun x => { x with newMap := some { nm with words := [0x10101010, 0x10101010, 0x10101010, 0x10101010] }, joinAcked := true }), 0, { nm with words := [0x10101010, 0x10101010, 0x10101010, 0x10101010] }, by refine ⟨?_, ?_, ?_, ?_⟩ <;> decide +kernel⟩,
   ⟨(port (regs (pt 3 { State.reset with variant := .m8i2 }) [(.link 1, LINK.STATE, 3)]) 0 fun x => { x with tx := [⟨5, 1, 3, mkMsg 1 7 0 0 [1], some 7, 9, false, .port⟩], badLaps := 16 }), 0, by refine ⟨?_, ?_, ?_, ?_⟩ <;> decide +kernel⟩,
   ⟨(pt 3 (regs State.reset [(.link 0, LINK.DOWN_LAPS, 4)])), 0, by refine ⟨?_, ?_⟩ <;> decide +kernel⟩⟩

theorem witness_PistePortControl :
    (∃ (s : State) (n : PortId) (v : BitVec 32), (pageWritable s (.link n) = true) ∧ (v.toNat.testBit 0 = true) ∧ (v.toNat.testBit 6 = false) ∧ (v.toNat.testBit 7 = false) ∧ (portState s n = PortState.off) ∧ (98000 ≤ s.reg .pwr (PWR.OSC_CAL_T n.val)) ∧ (s.reg .pwr (PWR.OSC_CAL_T n.val) ≤ 102000)) ∧
    (∃ (s : State) (n : PortId) (v : BitVec 32), (pageWritable s (.link n) = true) ∧ (v.toNat.testBit 0 = false)) ∧
    (∃ (s : State) (n : PortId), (pageWritable s (.link n) = true) ∧ (portState s n = PortState.listen) ∧ (s.reg (.link n) LINK.LAPSYNC = 1) ∧ (ownStn s n < 12)) ∧
    (∃ (s : State) (n : PortId), (pageWritable s (.link n) = true) ∧ (portState s n = PortState.joining)) ∧
    (∃ (s : State) (n : PortId), (pageWritable s (.link n) = true) ∧ (portState s n = PortState.member)) ∧
    (∃ (s : State) (n : PortId), (pageWritable s (.link n) = true) ∧ (s.reg (.link n) LINK.NEXT_VALID = 1)) ∧
    (∃ (s : State) (n : PortId), (pageWritable s (.link n) = true) ∧ (s.reg (.link n) LINK.MASTER = 1)) :=
  ⟨⟨(regs (pt 0 State.reset) [(.pwr, PWR.OSC_CAL_T 0, 98000)]), 0, 9, by refine ⟨?_, ?_, ?_, ?_, ?_, ?_, ?_⟩ <;> decide +kernel⟩,
   ⟨(pt 3 State.reset), 0, 8, by refine ⟨?_, ?_⟩ <;> decide +kernel⟩,
   ⟨(pt 1 State.reset), 0, by refine ⟨?_, ?_, ?_, ?_⟩ <;> decide +kernel⟩,
   ⟨(pt 2 State.reset), 0, by refine ⟨?_, ?_⟩ <;> decide +kernel⟩,
   ⟨(pt 3 State.reset), 0, by refine ⟨?_, ?_⟩ <;> decide +kernel⟩,
   ⟨(regs (pt 3 State.reset) [(.link 0, LINK.NEXT_VALID, 1)]), 0, by refine ⟨?_, ?_⟩ <;> decide +kernel⟩,
   ⟨(pt 3 State.reset), 0, by refine ⟨?_, ?_⟩ <;> decide +kernel⟩⟩

theorem witness_TransfersAndWindows :
    (∃ (s : State) (p : PartId) (head : BitVec 16) (n : PortId), (pageWritable s (.peer 0) = true) ∧ ((s.part p).xfer = none) ∧ (s.reg (.peer 0) (PEER.XR_TAIL p.val) ≠ head.toNat) ∧ 
      let s0 := s.setReg (.peer 0) (PEER.XR_HEAD p.val) head.toNat
      
      let a := xferEntry s p
      
      let bs : List Byte := val (portAccess p .r a 32 (mcReadOp p 6 a 32 [] [] false)) s0 ([])
      let s1 : State := M.after (portAccess p .r a 32 (mcReadOp p 6 a 32 [] [] false)) s0
      (portAccess p .r a 32 (mcReadOp p 6 a 32 [] [] false) s0 = .ok bs s1) ∧ 
      let d := leNat bs
      (XferD.bad d = false) ∧ (XferD.op d = 0) ∧ (XferD.len d ≤ 4064) ∧ 
      let data : List Byte := val (portAccess p .r (XferD.local_ d) (XferD.len d) (mcReadOp p 6 (XferD.local_ d) (XferD.len d) [] [] false)) (s1.setPart p { s1.part p with xfer := some ⟨d, 0, [], 0, 0⟩ }) ([])
      let s2 : State := M.after (portAccess p .r (XferD.local_ d) (XferD.len d) (mcReadOp p 6 (XferD.local_ d) (XferD.len d) [] [] false)) (s1.setPart p { s1.part p with xfer := some ⟨d, 0, [], 0, 0⟩ })
      (portAccess p .r (XferD.local_ d) (XferD.len d) (mcReadOp p 6 (XferD.local_ d) (XferD.len d) [] [] false)
      (s1.setPart p { s1.part p with xfer := some ⟨d, 0, [], 0, 0⟩ }) = .ok data s2) ∧ (portFor s p (XferD.stn d) = some n) ∧ (stationUp s n (XferD.stn d) = true) ∧ (((s.port n).tx.filter fun t => t.dst = XferD.stn d).length < 1024)) ∧
    (∃ (s : State) (p : PartId) (head : BitVec 16) (n : PortId), (pageWritable s (.peer 0) = true) ∧ ((s.part p).xfer = none) ∧ (s.reg (.peer 0) (PEER.XR_TAIL p.val) ≠ head.toNat) ∧ (portOk s p .r (xferEntry s p) 32) ∧ (burstsClean s p (xferEntry s p) 32) ∧ 
      let d := leNat (storedBytes s p (xferEntry s p) 32)
      (XferD.bad d = false) ∧ (XferD.op d = 0) ∧ (XferD.len d ≤ 4064) ∧ (portOk s p .r (XferD.local_ d) (XferD.len d)) ∧ (burstsClean s p (XferD.local_ d) (XferD.len d)) ∧ (portFor s p (XferD.stn d) = some n) ∧ (stationUp s n (XferD.stn d) = true) ∧ (((s.port n).tx.filter fun t => t.dst = XferD.stn d).length < 1024)) ∧
    (∃ (s : State), (pageWritable s (.peer 0) = false)) ∧
    (∃ (s : State) (p : PartId) (x : Xfer), ((s.part p).xfer = some x) ∧ (xferDone x = true) ∧ (x.err = Err.none) ∧ (XferD.sig x.desc = false) ∧ ((s.reg (.peer 0) (PEER.XR_TAIL p.val) + 1) % 2 ^ 16 = s.reg (.peer 0) (PEER.XR_HEAD p.val))) ∧
    (∃ (s : State) (p : PartId) (x : Xfer), ((s.part p).xfer = some x) ∧ (xferDone x = true) ∧ (x.err = Err.none) ∧ (XferD.sig x.desc = true) ∧ ((s.reg (.peer 0) (PEER.XR_TAIL p.val) + 1) % 2 ^ 16 = s.reg (.peer 0) (PEER.XR_HEAD p.val)) ∧ 
      let r := XferD.gate x.desc
      ((s.gate p r).valid = true) ∧ ((s.gate p r).cfg.testBit 23 = true)) ∧
    (∃ (s : State) (p : PartId) (x : Xfer), ((s.part p).xfer = some x) ∧ (XferD.sig x.desc = false) ∧ ((s.reg (.peer 0) (PEER.XR_TAIL p.val) + 1) % 2 ^ 16 = s.reg (.peer 0) (PEER.XR_HEAD p.val))) ∧
    (∃ (s : State) (w : Fin 32), (pageWritable s (.peer 0) = true) ∧ (winOpen s w.val = false) ∧ (s.reg (.peer 0) (PEER.EXPECT w.val) ≠ 0)) ∧
    (∃ (s : State), (pageWritable s (.peer 0) = true)) ∧
    (∃ (s : State) (w : Fin 32), (winOpen s w.val = true) ∧ (s.reg (.peer 0) (PEER.ARRIVED w.val) = (winLatch s w.val).expect) ∧ 
      let r : GateRef := ⟨(winLatch s w.val).gate, true⟩
      ((s.gate 0 r).valid = true) ∧ ((s.gate 0 r).cfg.testBit 23 = true)) :=
  ⟨⟨(tw0 State.reset), 2, 6, 0, by refine ⟨?_, ?_, ?_, okv (by decide +kernel), ?_, ?_, ?_, okv (by decide +kernel), ?_, ?_, ?_⟩ <;> decide +kernel⟩,
   ⟨(tw0 State.reset), 2, 6, 0, by refine ⟨?_, ?_, ?_, by unfold portOk; decide +kernel, by unfold burstsClean; decide +kernel, ?_, ?_, ?_, by unfold portOk; decide +kernel, by unfold burstsClean; decide +kernel, ?_, ?_, ?_⟩ <;> decide +kernel⟩,
   ⟨(held State.reset), by decide +kernel⟩,
   ⟨(xd State.reset 0), 2, { xf 0 0 with open_ := [] }, by refine ⟨?_, ?_, ?_, ?_, ?_⟩ <;> decide +kernel⟩,
   ⟨(withGate (xd State.reset 1) 2 ⟨9, true⟩ (gate0 5 0x800000)), 2, { xf 0 1 with open_ := [] }, by refine ⟨?_, ?_, ?_, ?_, ?_, ?_, ?_⟩ <;> decide +kernel⟩,
   ⟨(xd State.reset 0), 2, { xf 0 0 with open_ := [] }, by refine ⟨?_, ?_, ?_⟩ <;> decide +kernel⟩,
   ⟨(regs State.reset [(.peer 0, PEER.WSTATE 6, 2), (.peer 0, PEER.EXPECT 6, 9)]), 6, by refine ⟨?_, ?_, ?_⟩ <;> decide +kernel⟩,
   ⟨(lw State.reset), by decide +kernel⟩,
   ⟨(withGate (regs (lw State.reset) [(.peer 0, PEER.ARRIVED 6, 2 ^ 21 + 2 ^ 3)]) 0 ⟨3, true⟩ (gate0 5 0x800000)), 6, by refine ⟨?_, ?_, ?_, ?_⟩ <;> decide +kernel⟩⟩

end W6

namespace W7
def rdy (b : State) : State := onPage (onPage (part b 1 fun x => { x with jobs := [], suspects := [], fw := none, replies := [], events := [], replaying := none, chainWrites := [], heads := [], actHold := false, switchWait := false }) (.pctl 1) [(PCTL.FW_READY, 1), (PCTL.HOST, 0), (PCTL.DB_IGNORE, 0), (PCTL.BND_REQ, 0), (PCTL.FR_BASE, 0x1800008000 / 64), (PCTL.FR_LOG2, 6), (PCTL.FR_HEAD, 70), (PCTL.FR_TAIL, 60), (PCTL.FC_BASE, 0x1800009000 / 64), (PCTL.FC_LOG2, 6), (PCTL.FC_HEAD, 3), (PCTL.FC_DB, 4), (PCTL.LG_BASE, 0x180000A000 / 64), (PCTL.LG_LOG2, 4), (PCTL.TR_BASE, 0x180000B000 / 64), (PCTL.TR_LOG2, 4), (PCTL.TR_MODE, 0)]) (.qmg 1) [(QMG.Q_STATE 3, 1), (QMG.Q_EN 3, 1), (QMG.Q_STANDING 3, 0), (QMG.Q_HEAD 3, 5), (QMG.Q_DB 3, 5), (QMG.Q_LOG2 3, 4), (QMG.Q_BASE 3, 0x180000C000 / 64), (QMG.CR_BASE 3, 0x180000D000 / 64), (QMG.CR_LOG2 3, 4), (QMG.CR_HEAD 3, 9), (QMG.CR_TAIL 3, 7), (QMG.Q_PRIO 3, 1)]
def jd : Nat := 1 + (1 <<< 8) + (6 <<< 32) + (0x2000 <<< 64) + (0x100 <<< 128) + (9 <<< 160) + (55 <<< 192) + (66 <<< 224)
def idle (b : State) : State := [13, 14].foldl (fun s g => regs (tile s g fun t => { t with job := none, units := .reset }) [(.tile g .tl, TL.STATE, 0)]) (eng b fun e => { e with faulted := [], models := [] })
def posted (b : State) (d : Nat) : State := regs (pput (rdy (idle b)) 1 (0xC000 + 64 * 5) (leBytes 64 d)) [(.qmg 1, QMG.Q_DB 3, 6), (.pwr, PWR.TILE_GATED 1, 0)]
def offerOf (b : State) (d : Nat) : Offer := ⟨3, ⟨5, 5, none, none⟩, d⟩
def stdb (b : State) : State := withGate (regs (part (pput (rdy (idle b)) 1 0xC000 ((leBytes 64 jd).take 32 ++ List.replicate 32 0 ++ (leBytes 64 jd).take 32)) 1 fun x => { x with chains := [], grace := [], only2 := false }) [(.pwr, PWR.TILE_GATED 1, 0), (.qmg 1, QMG.Q_STANDING 3, 1), (.qmg 1, QMG.STD_SEQ 3, 4), (.qmg 1, QMG.STD_LEN 3, 2), (.qmg 1, QMG.STD_FGATE 3, 7), (.qmg 1, QMG.STD_FGLOBAL 3, 0), (.qmg 1, QMG.STD_FBASE 3, 100), (.qmg 1, QMG.STD_MAXLAG 3, 2)]) 1 ⟨7, false⟩ (gate0 109 0)
def jdS : Nat := jd - (1 <<< 8) + (1 <<< 12)
def jb (d : Nat) : Job := ⟨12, 3, d, 5, 66, 100, 0, 255, false, none, false, 3, 500, 0, 0⟩
def allIdle (b : State) : State := (tilesOf 1).foldl (fun s g => regs s [(.tile g .tl, TL.STATE, 0)]) (rdy b)
def fcw (b : State) (d : Nat) : State := pput (rdy b) 1 (0x9000 + 64 * 3) (leBytes 64 d)
def fwc (b : State) (c : FwCmd) : State := part (rdy b) 1 fun x => { x with fw := some c }
def grace (b : State) (c : FwCmd) : State := regs (fwc b c) [(.pctl 1, PCTL.HOST, 1)]
def decl : List Byte := leBytes 32 ((0x1000 <<< 32) + (64 <<< 64)) ++ leBytes 16 (2 + (1 <<< 32) + (4096 <<< 64))
def imgH : List Byte := leBytes 4 0x494D4C4B ++ leBytes 4 1 ++ leBytes 4 112 ++ leBytes 4 (1 + (1 <<< 8)) ++ leBytes 4 7 ++ leBytes 4 8 ++ leBytes 4 64 ++ leBytes 4 112 ++ leBytes 4 0 ++ leBytes 4 112 ++ leBytes 4 0 ++ List.replicate 12 0
def img : List Byte := imgH ++ leBytes 4 (crc32c imgH) ++ leBytes 4 (crc32c decl) ++ decl
def lc : FwCmd := ⟨0x01 + (99 <<< 32) + (0x1800020000 <<< 64) + (3 <<< 128) + (1 <<< 320), 3, 0⟩
def ldm (b : State) : State := pput (fwc b lc) 1 0x20000 img
def theImg : Image := (parseImage img).getD ⟨[], 0, 0, [], [], [], []⟩
def psOf : List PartId := ((placement theImg lc.bits).getD ([], [])).1
def gsOf : List TileId := ((placement theImg lc.bits).getD ([], [])).2
def l1 (b : State) : State := (settle (imageBytes 1 (bitsAt lc.bits 64 40))).after (ldm b)
def hOf (b : State) : Nat := (l1 b).eng.nextHandle
def acM : M (Nat × Nat) := acceptImage theImg lc.bits
def l2 (b : State) : State := (fwPhase 1 lc (hOf b)).after (acM.after (l1 b))
def lM : M Unit := forAll (List.finRange 48) fun g => driveLoads g (hOf State.reset)
def full (b : State) : State := eng (ldm b) fun e => { e with models := [⟨77, 1, 2, [⟨15, 0, 0x400000, 0, 64, 0, 0, 0, 0, 0, 0, 0⟩], [⟨1, 0, 1024, 0, 0, 4096⟩], [], 0, 0, 0, 0, [], []⟩] }
def mdl : Model := ⟨77, 1, 2, [⟨15, 0, 0x1000, 0, 0, 0, 0, 0, 0, 0, 0, 0⟩], [⟨1, 5, 2, 8, 0, 4096⟩], [], 1, 0, 0, 0, [], []⟩
def withM (b : State) : State := eng b fun e => { e with models := [mdl] }
def uc : FwCmd := ⟨0x02 + (99 <<< 32) + (77 <<< 64), 3, 0⟩
def sc (ph : Nat) : FwCmd := ⟨0x03 + (99 <<< 32) + (77 <<< 64) + (8 <<< 96), 3, ph⟩
def gc (gl : Nat) : FwCmd := ⟨0x04 + (99 <<< 32) + (3 <<< 64) + (gl <<< 80) + (0x100001 <<< 128) + (44 <<< 192), 3, 0⟩
def dc : FwCmd := ⟨0x05 + (99 <<< 32) + (3 <<< 64) + (2 <<< 74), 3, 0⟩
def bc : FwCmd := ⟨0x06 + (99 <<< 32) + (3 <<< 64) + (2 <<< 80) + (7 <<< 96) + (5 <<< 112), 3, 0⟩
def bnd (b : State) : State := pput (withGate (fwc b bc) 1 ⟨7, false⟩ (gate0 109 0)) 1 0xC000 (leBytes 64 jd ++ leBytes 64 jd)
def ubc : FwCmd := ⟨0x07 + (99 <<< 32) + (3 <<< 64), 3, 0⟩
def ac : FwCmd := ⟨0x08 + (99 <<< 32), 3, 0⟩
def fa (ph : Nat) : FwCmd := ⟨0x09 + (99 <<< 32), 3, ph⟩
def lvl0 (b : State) : State := regs b [(.pwr, PWR.EMG_LEVEL, 0)]
def qc (i : Nat) : FwCmd := ⟨0x0A + (99 <<< 32) + (i <<< 64), 3, 0⟩
def qs (b : State) (i : Nat) : State := part (part (part (fwc b (qc i)) 0 fun x => { x with events := [] }) 2 fun x => { x with events := [] }) 3 fun x => { x with events := [] }


theorem witness_DoorbellsAndRings :
    (∃ (s : State) (p : PartId) (q : QueueId) (v : BitVec 32), (pageWritable s (.qmg p) = true) ∧ (s.reg (.pctl p) PCTL.FW_READY ≠ 0) ∧ (s.reg (.pctl p) PCTL.DB_IGNORE ≠ 1) ∧ (qr s p (QMG.Q_STANDING q.val) ≠ 1) ∧ ((v.toNat + 2 ^ 32 - qr s p (QMG.Q_HEAD q.val)) % 2 ^ 32 ≤ 2 ^ qr s p (QMG.Q_LOG2 q.val))) ∧
    (∃ (s : State) (p : PartId) (q : QueueId) (v : BitVec 32), (pageWritable s (.qmg p) = true) ∧ (s.reg (.pctl p) PCTL.FW_READY ≠ 0) ∧ (s.reg (.pctl p) PCTL.DB_IGNORE ≠ 1) ∧ (qr s p (QMG.Q_STANDING q.val) = 1 ∨
      2 ^ qr s p (QMG.Q_LOG2 q.val) < (v.toNat + 2 ^ 32 - qr s p (QMG.Q_HEAD q.val)) % 2 ^ 32)) ∧
    (∃ (s : State) (p : PartId), (pageWritable s (.qmg p) = true) ∧ (s.reg (.pctl p) PCTL.FW_READY ≠ 0) ∧ (s.reg (.pctl p) PCTL.DB_IGNORE = 1)) ∧
    (∃ (s : State) (p : PartId), (s.reg (.pctl p) PCTL.FW_READY = 0 ∨ pageWritable s (.qmg p) = false)) ∧
    (∃ (s : State) (p : PartId) (q : QueueId), (pageWritable s (.qmg p) = true) ∧ (qr s p (QMG.Q_EN q.val) = 0)) ∧
    (∃ (s : State) (p : PartId) (q : QueueId), (pageWritable s (.qmg p) = true) ∧ (qr s p (QMG.Q_EN q.val) = 1)) ∧
    (∃ (s : State) (p : PartId), (pageWritable s (.qmg p) = true) ∧ ((s.part p).jobs.any Job.ended = false)) ∧
    (∃ (s : State) (p : PartId), (pageWritable s (.pctl p) = true) ∧ ((∀ g ∈ tilesOf p, ∀ c ∈ (s.tile g).seq.sync, c.op ≠ Op.mark))) ∧
    (∃ (s : State) (p : PartId) (v : BitVec 32), (pageWritable s (.pctl p) = true) ∧ (s.reg (.pctl p) PCTL.FW_READY = 1) ∧ ((v.toNat + 2 ^ 32 - s.reg (.pctl p) PCTL.FC_HEAD) % 2 ^ 32 ≤ 2 ^ s.reg (.pctl p) PCTL.FC_LOG2)) ∧
    (∃ (s : State) (p : PartId), (pageWritable s (.pctl p) = true) ∧ ((s.part p).replies = [])) ∧
    (∃ (s : State) (p : PartId), (pageWritable s (.pctl p) = true)) :=
  ⟨⟨(rdy State.reset), 1, 3, 9, by refine ⟨?_, ?_, ?_, ?_, ?_⟩ <;> decide +kernel⟩,
   ⟨(rdy State.reset), 1, 3, 22, by refine ⟨?_, ?_, ?_, ?_⟩ <;> decide +kernel⟩,
   ⟨(regs (rdy State.reset) [(.pctl 1, PCTL.DB_IGNORE, 1)]), 1, by refine ⟨?_, ?_, ?_⟩ <;> decide +kernel⟩,
   ⟨(regs (rdy State.reset) [(.pctl 1, PCTL.FW_READY, 0)]), 1, by decide +kernel⟩,
   ⟨(rdy State.reset), 1, 4, by refine ⟨?_, ?_⟩ <;> decide +kernel⟩,
   ⟨(rdy State.reset), 1, 3, by refine ⟨?_, ?_⟩ <;> decide +kernel⟩,
   ⟨(rdy State.reset), 1, by refine ⟨?_, ?_⟩ <;> decide +kernel⟩,
   ⟨(rdy State.reset), 1, by refine ⟨?_, ?_⟩ <;> decide +kernel⟩,
   ⟨(rdy State.reset), 1, 67, by refine ⟨?_, ?_, ?_⟩ <;> decide +kernel⟩,
   ⟨(rdy State.reset), 1, by refine ⟨?_, ?_⟩ <;> decide +kernel⟩,
   ⟨(rdy State.reset), 1, by decide +kernel⟩⟩

theorem witness_JobsDispatchAndComplete :
    (∃ (s : State) (p : PartId) (o : Offer), (nextOffer ((prepare p).after s) p = some o) ∧ (offerAsleep ((prepare p).after s) p o = false) ∧ (jobRefusal ((prepare p).after s) p o.desc = Err.none) ∧ (JobD.type o.desc = 1) ∧ (o.head.again = none) ∧ (o.head.inst = none) ∧ ((∀ g ∈ jobTiles p o.desc, (((prepare p).after s).tile g).units.switchErr = Err.none)) ∧ 
      let s' := (prepare p).after s
      ((∀ k ∈ (s'.part p).jobs, k.id ≠ (s'.part p).nextJob))) ∧
    (∃ (s : State) (p : PartId) (q : QueueId) (o : Offer) (n e i : Nat) (a : Option Job), (headOf ((prepare p).after s) p q.val = some ⟨i, e, some (n, 0), a⟩) ∧ 
      let s1 := (attempt (fetchHead p q.val)).after ((prepare p).after s)
      (nextOffer s1 p = some o) ∧ (o.q = q.val) ∧ (o.head.inst = some (n, 0)) ∧ (o.head.again = none) ∧ (offerAsleep s1 p o = false) ∧ (jobRefusal s1 p o.desc = Err.none) ∧ (JobD.type o.desc = 1) ∧ ((∀ g ∈ jobTiles p o.desc, (s1.tile g).units.switchErr = Err.none)) ∧ ((∀ k ∈ (s1.part p).jobs, k.id ≠ (s1.part p).nextJob)) ∧ (nextOffer ((attempt (fetchHead p q.val)).after ((dispatchOffer p o).after s1)) p = none)) ∧
    (∃ (s : State) (p : PartId) (j : Job), 
      let s1 := (forAll (tilesOf p) collectTile).after s
      ((s1.part p).jobs = [j]) ∧ (j.ended = false) ∧ (j.queue < 16) ∧ (jobRuns s1 p j = false) ∧ ((s.part p).replaying = none) ∧ ((s.part p).chainWrites = []) ∧ (j.status = Err.none) ∧ (JobD.compl j.desc = true) ∧ (JobD.csig j.desc = false) ∧ (crFull s1 p j.queue = false) ∧ ((∃ q off, pccTarget s.variant (ringAddr (qr s p (QMG.CR_BASE j.queue)) (qr s p (QMG.CR_LOG2 j.queue)) 32
      (qr s p (QMG.CR_HEAD j.queue))) = some (.pmem q off)))) ∧
    (∃ (s : State) (p : PartId) (j : Job), 
      let s1 := (forAll (tilesOf p) collectTile).after s
      ((s1.part p).jobs = [j]) ∧ (j.ended = false) ∧ (j.queue < 16) ∧ (jobRuns s1 p j = false) ∧ ((s.part p).replaying = none) ∧ ((s.part p).chainWrites = []) ∧ (j.status = Err.none) ∧ (JobD.compl j.desc = false) ∧ (JobD.csig j.desc = true) ∧ 
      let x := s.gate p (JobD.gate j.desc)
      (x.valid = true) ∧ ((Signaler.queue p j.queue).allowed x.cfg (JobD.gate j.desc).global = true)) :=
  ⟨⟨(posted State.reset jd), 1, (offerOf State.reset jd), by refine ⟨?_, ?_, ?_, ?_, ?_, ?_, ?_, ?_⟩ <;> decide +kernel⟩,
   ⟨(stdb State.reset), 1, 3, ⟨3, ⟨8, 0, some (4, 0), none⟩, jd⟩, 4, 0, 8, none, by refine ⟨?_, ?_, ?_, ?_, ?_, ?_, ?_, ?_, ?_, ?_, ?_⟩ <;> decide +kernel⟩,
   ⟨(part (rdy (idle State.reset)) 1 fun x => { x with jobs := [jb jd] }), 1, (jb jd), by refine ⟨?_, ?_, ?_, ?_, ?_, ?_, ?_, ?_, ?_, ?_, ⟨1, 0xD120, by decide +kernel⟩⟩ <;> decide +kernel⟩,
   ⟨(withGate (part (rdy (idle State.reset)) 1 fun x => { x with jobs := [jb jdS] }) 1 ⟨9, false⟩ (gate0 5 8)), 1, (jb jdS), by refine ⟨?_, ?_, ?_, ?_, ?_, ?_, ?_, ?_, ?_, ?_, ?_⟩ <;> decide +kernel⟩⟩

theorem witness_BoundariesAndSwaps :
    (∃ (s : State) (p : PartId), (s.reg (.pctl p) PCTL.BND_REQ = 1) ∧ (s.reg .dlw (DLW.STATE p.val) = 0) ∧ (allBetween s p = true)) ∧
    (∃ (s : State) (p : PartId), (s.reg (.pctl p) PCTL.BND_REQ ≠ 1 ∨ s.reg .dlw (DLW.STATE p.val) ≠ 0 ∨ allBetween s p = false)) ∧
    (∃ (s : State) (page : Nat) (i : PageId), (fittedPage s page = some i) ∧ (pageWritable s i = true)) :=
  ⟨⟨(regs (allIdle State.reset) [(.pctl 1, PCTL.BND_REQ, 1)]), 1, by refine ⟨?_, ?_, ?_⟩ <;> decide +kernel⟩,
   ⟨(allIdle State.reset), 1, by decide +kernel⟩,
   ⟨State.reset, 0x141, (.tile 2 .lut), by refine ⟨?_, ?_⟩ <;> decide +kernel⟩⟩

theorem witness_FirmwareCommands_a :
    (∃ (s : State) (p : PartId), (fwRuns s p = true) ∧ ((s.part p).replies = []) ∧ ((s.part p).fw = none) ∧ (s.reg (.pctl p) PCTL.FC_HEAD ≠ s.reg (.pctl p) PCTL.FC_DB) ∧ 
      let bs : List Byte := val (settle (pccRead p (.fw p) (ringAddr (s.reg (.pctl p) PCTL.FC_BASE) (s.reg (.pctl p) PCTL.FC_LOG2) 64 (s.reg (.pctl p) PCTL.FC_HEAD)) 64)) s ([])
      let s1 : State := M.after (settle (pccRead p (.fw p) (ringAddr (s.reg (.pctl p) PCTL.FC_BASE) (s.reg (.pctl p) PCTL.FC_LOG2) 64 (s.reg (.pctl p) PCTL.FC_HEAD)) 64)) s
      (settle (pccRead p (.fw p) (ringAddr (s.reg (.pctl p) PCTL.FC_BASE) (s.reg (.pctl p) PCTL.FC_LOG2) 64
      (s.reg (.pctl p) PCTL.FC_HEAD)) 64) s = .ok bs s1)) ∧
    (∃ (s : State) (p q : PartId) (off : Nat), (fwRuns s p = true) ∧ ((s.part p).replies = []) ∧ ((s.part p).fw = none) ∧ (s.reg (.pctl p) PCTL.FC_HEAD ≠ s.reg (.pctl p) PCTL.FC_DB) ∧ (coreReads s p (ringAddr (s.reg (.pctl p) PCTL.FC_BASE) (s.reg (.pctl p) PCTL.FC_LOG2) 64
      (s.reg (.pctl p) PCTL.FC_HEAD)) 64 q off) ∧ (fwBad (leNat (storedBytes s q off 64)) = false)) ∧
    (∃ (s : State) (p : PartId) (c : FwCmd) (i : Instr), (i ∈ [Instr.loadModel p, .unloadModel p, .switchModel p, .gateCreate p, .gateDestroy p, .bindStanding p,
      .unbindStanding p, .fwActivate p]) ∧ (fwRuns s p = true) ∧ (s.reg (.pctl p) PCTL.HOST ≠ 0) ∧ ((s.part p).fw = some c) ∧ (c.phase = 0) ∧ (i = ([Instr.loadModel p, .unloadModel p, .switchModel p, .gateCreate p, .gateDestroy p, .bindStanding p,
      .unbindStanding p, Instr.attach p, .fwActivate p].getD (bitsAt c.bits 0 8 - 1) (.query p))) ∧ (0 < bitsAt c.bits 0 8) ∧ (replyFits s p)) ∧
    (∃ (s s2 s3 : State) (p : PartId) (c : FwCmd) (h : Nat) (y : Model), fwHolds s p 0x01 c ∧
      ((c.phase = h ∧ h ≠ 0 ∧ s2 = s) ∨ (c.phase = 0 ∧ ∃ b m s0 s1,
        settle (imageBytes p (bitsAt c.bits 64 40)) s = .ok (some b) s0 ∧ parseImage b = some m ∧
        acceptImage m c.bits s0 = .ok (Err.none, h) s1 ∧ s2 = (fwPhase p c h).after s1)) ∧
      (forAll (List.finRange 48) fun g => driveLoads g h) s2 = .ok () s3 ∧ modelNamed s3 h = some y) :=
  ⟨⟨(fcw State.reset (0x02 + 77 <<< 64)), 1, by refine ⟨?_, ?_, ?_, ?_, okv (by decide +kernel)⟩ <;> decide +kernel⟩,
   ⟨(fcw State.reset (0x02 + 77 <<< 64)), 1, 1, (0x9000 + 64 * 3), by refine ⟨?_, ?_, ?_, ?_, by unfold coreReads burstsClean; decide +kernel, ?_⟩ <;> decide +kernel⟩,
   ⟨(grace State.reset ⟨0x02 + 77 <<< 64, 3, 0⟩), 1, ⟨0x02 + 77 <<< 64, 3, 0⟩, (.unloadModel 1), by refine ⟨?_, ?_, ?_, ?_, ?_, ?_, ?_, replyFits_of (by decide +kernel) (by decide +kernel) (by decide +kernel)⟩ <;> decide +kernel⟩,
   ⟨ldm State.reset, l2 State.reset, lM.after (l2 State.reset), 1, lc, hOf State.reset,
    (modelNamed (lM.after (l2 State.reset)) (hOf State.reset)).getD mdl, by unfold fwHolds; decide +kernel,
    .inr ⟨by decide +kernel, img, theImg, l1 State.reset, acM.after (l1 State.reset), okX none (by decide +kernel) (by decide +kernel),
      by decide +kernel, okX (0, 0) (by decide +kernel) (by decide +kernel), rfl⟩,
    okU (by decide +kernel), some_getD (by decide +kernel)⟩⟩

theorem witness_FirmwareCommands_b :
    (∃ (s : State) (p : PartId) (c : FwCmd) (b : List Byte) (m : Image) (ps : List PartId) (gs : List TileId), (fwHolds s p 0x01 c) ∧ (c.phase = 0) ∧ (replyFits s p) ∧ 
      let s1 : State := M.after (settle (imageBytes p (bitsAt c.bits 64 40))) s
      (settle (imageBytes p (bitsAt c.bits 64 40)) s = .ok (some b) s1) ∧ (parseImage b = some m) ∧ (placement m c.bits = some (ps, gs)) ∧ (fitCheck s1 m ps gs ≠ Err.none)) ∧
    (∃ (s : State) (p q : PartId) (c : FwCmd) (m : Image) (ps : List PartId) (gs : List TileId) (off n : Nat), (fwHolds s p 0x01 c) ∧ (c.phase = 0) ∧ (replyFits s p) ∧ (64 ≤ n) ∧ (coreReads s p (bitsAt c.bits 64 40) n q off) ∧ (imageLen ((storedBytes s q off n).take 64) = some n) ∧ (parseImage (storedBytes s q off n) = some m) ∧ (m.sects = []) ∧ (placement m c.bits = some (ps, gs)) ∧ (fitCheck s m ps gs = Err.none) ∧ ((∀ x ∈ s.eng.models, x.handle < s.eng.nextHandle)) ∧ ((∀ g, ∀ l ∈ (s.tile g).units.loads, l.handle < s.eng.nextHandle))) ∧
    (∃ (s : State) (p : PartId) (c : FwCmd) (m : Model), (fwHolds s p 0x02 c) ∧ (replyFits s p) ∧ (residentNamed s (bitsAt c.bits 64 32) = some m) ∧ 
      let busy : Bool := val (settle (modelBusy p m)) s (false)
      let s1 : State := M.after (settle (modelBusy p m)) s
      (settle (modelBusy p m) s = .ok busy s1)) ∧
    (∃ (s : State) (p : PartId) (c : FwCmd) (m : Model), (fwHolds s p 0x02 c) ∧ (replyFits s p) ∧ (residentNamed s (bitsAt c.bits 64 32) = some m) ∧ ((∀ q, (s.part q).jobs = [] ∧ (s.part q).suspects = [] ∧ ∀ k, k < 16 → entriesOf s q k = []))) :=
  ⟨⟨(full State.reset), 1, lc, img, theImg, psOf, gsOf, by refine ⟨by unfold fwHolds; decide +kernel, ?_, replyFits_of (by decide +kernel) (by decide +kernel) (by decide +kernel), okv (d := none) (by decide +kernel), ?_, ?_, ?_⟩ <;> decide +kernel⟩,
   ⟨(eng (ldm State.reset) fun e => { e with models := [] }), 1, 1, lc, theImg, psOf, gsOf, 0x20000, 112, by refine ⟨by unfold fwHolds; decide +kernel, ?_, replyFits_of (by decide +kernel) (by decide +kernel) (by decide +kernel), ?_, by unfold coreReads burstsClean; decide +kernel, ?_, ?_, ?_, ?_, ?_, ?_, ?_⟩ <;> decide +kernel⟩,
   ⟨(withM (fwc State.reset uc)), 1, uc, mdl, by refine ⟨by unfold fwHolds; decide +kernel, replyFits_of (by decide +kernel) (by decide +kernel) (by decide +kernel), ?_, okv (by decide +kernel)⟩ <;> decide +kernel⟩,
   ⟨(List.range 16 |>.foldl (fun s k => (List.finRange 4).foldl (fun s q => regs s [(.qmg q, QMG.Q_STANDING k, 0), (.qmg q, QMG.Q_EN k, 0)]) s) ((List.finRange 4).foldl (fun s q => part s q fun x => { x with jobs := [], suspects := [] }) (withM (fwc State.reset uc)))), 1, uc, mdl, by refine ⟨by unfold fwHolds; decide +kernel, replyFits_of (by decide +kernel) (by decide +kernel) (by decide +kernel), ?_, ?_⟩ <;> decide +kernel⟩⟩

theorem witness_FirmwareCommands_c :
    (∃ (s : State) (p : PartId) (c : FwCmd), (fwHolds s p 0x03 c) ∧ ∃ (m : Model), (c.phase = 0) ∧ (residentNamed s (bitsAt c.bits 64 32) = some m) ∧ ((∀ g ∈ tilesOf p, ∀ k, k < 17 → bankStat s g k ≠ 3))) ∧
    (∃ (s : State) (p : PartId) (c : FwCmd), (fwHolds s p 0x03 c) ∧ (c.phase ≠ 0) ∧ ((s.part p).switchWait = false) ∧ (replyFits s p)) ∧
    (∃ (s : State) (p : PartId) (c : FwCmd) (b : Nat), (fwHolds s p 0x04 c) ∧ (replyFits s p) ∧ (bitsAt c.bits 64 11 ≠ 0) ∧ (bitsAt c.bits 64 11 ≤ 1024) ∧ (cfgBad (bitsAt c.bits 128 64) (bitAt c.bits 80) = false) ∧ (findGates s p (bitAt c.bits 80) (bitsAt c.bits 64 11) = some b)) ∧
    (∃ (s : State) (p : PartId) (c : FwCmd), (fwHolds s p 0x05 c) ∧ (replyFits s p) ∧ (bitsAt c.bits 74 11 ≠ 0) ∧ ((∀ k, k < bitsAt c.bits 74 11 → (s.gate p ⟨bitsAt c.bits 64 10 + k, bitAt c.bits 85⟩).valid = true ∧
      gateInUse s p ⟨bitsAt c.bits 64 10 + k, bitAt c.bits 85⟩ = false))) :=
  ⟨⟨(withM (fwc State.reset (sc 0))), 1, (sc 0), by refine ⟨by unfold fwHolds; decide +kernel, mdl, ?_, ?_, ?_⟩ <;> decide +kernel⟩,
   ⟨(withM (fwc State.reset (sc 6))), 1, (sc 6), by refine ⟨by unfold fwHolds; decide +kernel, ?_, ?_, replyFits_of (by decide +kernel) (by decide +kernel) (by decide +kernel)⟩ <;> decide +kernel⟩,
   ⟨(fwc State.reset (gc 0)), 1, (gc 0), 0, by refine ⟨by unfold fwHolds; decide +kernel, replyFits_of (by decide +kernel) (by decide +kernel) (by decide +kernel), ?_, ?_, ?_, ?_⟩ <;> decide +kernel⟩,
   ⟨(withGate (withGate (fwc State.reset dc) 1 ⟨3, false⟩ (gate0 1 0)) 1 ⟨4, false⟩ (gate0 2 0)), 1, dc, by refine ⟨by unfold fwHolds; decide +kernel, replyFits_of (by decide +kernel) (by decide +kernel) (by decide +kernel), ?_, ?_⟩ <;> decide +kernel⟩⟩

theorem witness_FirmwareCommands_d :
    (∃ (s : State) (p : PartId) (c : FwCmd), (fwHolds s p 0x06 c) ∧ (replyFits s p) ∧ 
      let q := bitsAt c.bits 64 4
      
      let l := bitsAt c.bits 80 16
      
      let gate : GateRef := ⟨bitsAt c.bits 96 10, bitAt c.bits 106⟩
      
      let len := if l = 0 then 65536 else l
      (qr s p (QMG.Q_EN q) ≠ 0) ∧ (qr s p (QMG.Q_STANDING q) ≠ 1) ∧ (qr s p (QMG.Q_DB q) = qr s p (QMG.Q_HEAD q)) ∧ (len ≤ 2 ^ qr s p (QMG.Q_LOG2 q)) ∧ ((s.gate p gate).valid = true) ∧ 
      let ds : List Nat := val (settle (mapAll (List.range len) fun k => do return leNat (← pccRead p (.fw p) (qr s p (QMG.Q_BASE q) * 64 + k * 64) 64))) s ([])
      let s1 : State := M.after (settle (mapAll (List.range len) fun k => do return leNat (← pccRead p (.fw p) (qr s p (QMG.Q_BASE q) * 64 + k * 64) 64))) s
      (settle (mapAll (List.range len) fun k => do
      return leNat (← pccRead p (.fw p) (qr s p (QMG.Q_BASE q) * 64 + k * 64) 64)) s = .ok ds s1) ∧ (ds.any JobD.bad = false)) ∧
    (∃ (s : State) (p r : PartId) (c : FwCmd) (off : Nat), (fwHolds s p 0x06 c) ∧ (replyFits s p) ∧ 
      let q := bitsAt c.bits 64 4
      
      let l := bitsAt c.bits 80 16
      
      let gate : GateRef := ⟨bitsAt c.bits 96 10, bitAt c.bits 106⟩
      
      let len := if l = 0 then 65536 else l
      (qr s p (QMG.Q_EN q) ≠ 0) ∧ (qr s p (QMG.Q_STANDING q) ≠ 1) ∧ (qr s p (QMG.Q_DB q) = qr s p (QMG.Q_HEAD q)) ∧ (len ≤ 2 ^ qr s p (QMG.Q_LOG2 q)) ∧ ((s.gate p gate).valid = true) ∧ (coreReads s p (qr s p (QMG.Q_BASE q) * 64) (len * 64) r off) ∧ ((∀ k, k < len → JobD.bad (leNat (storedBytes s r (off + k * 64) 64)) = false))) ∧
    (∃ (s : State) (p : PartId) (c : FwCmd), (fwHolds s p 0x07 c) ∧ (replyFits s p) ∧ 
      let q := bitsAt c.bits 64 4
      (qr s p (QMG.Q_STANDING q) = 1) ∧ ((s.part p).chainBusy q = false) ∧ (((s.part p).chain q).next = 0)) :=
  ⟨⟨(bnd State.reset), 1, bc, by refine ⟨by unfold fwHolds; decide +kernel, replyFits_of (by decide +kernel) (by decide +kernel) (by decide +kernel), ?_, ?_, ?_, ?_, ?_, okv (by decide +kernel), ?_⟩ <;> decide +kernel⟩,
   ⟨(bnd State.reset), 1, 1, bc, 0xC000, by refine ⟨by unfold fwHolds; decide +kernel, replyFits_of (by decide +kernel) (by decide +kernel) (by decide +kernel), ?_, ?_, ?_, ?_, ?_, by unfold coreReads burstsClean; decide +kernel, ?_⟩ <;> decide +kernel⟩,
   ⟨(regs (fwc (stdb State.reset) ubc) [(.qmg 1, QMG.Q_STANDING 3, 1)]), 1, ubc, by refine ⟨by unfold fwHolds; decide +kernel, replyFits_of (by decide +kernel) (by decide +kernel) (by decide +kernel), ?_, ?_, ?_⟩ <;> decide +kernel⟩⟩

theorem witness_HostAndActivation :
    (∃ (s : State) (p : PartId) (c : FwCmd), (fwRuns s p = true) ∧ ((s.part p).fw = some c) ∧ (bitsAt c.bits 0 8 = 0x08) ∧ (replyFits s p)) ∧
    (∃ (s : State) (p : PartId) (c : FwCmd), (fwHolds s p 0x09 c) ∧ (s.reg .pwr PWR.EMG_LEVEL = 0) ∧ (s.eng.activating = some p) ∧ ((∀ q, inReset s q = false ∧ allBetween s q = true)) ∧ (s.eng.heldMailbox = none) ∧ (replyFits s p)) ∧
    (∃ (s : State) (p : PartId) (c : FwCmd), (fwHolds s p 0x09 c) ∧ (s.reg .pwr PWR.EMG_LEVEL = 0) ∧ (s.eng.activating = none) ∧ ((∀ q, inReset s q = false)) ∧ (replyFits s p)) ∧
    (∃ (s : State) (p q : PartId) (c : FwCmd) (off : Nat), (fwRuns s p = true) ∧ ((s.part p).fw = some c) ∧ (bitsAt c.bits 0 8 = 0x0A) ∧ ((s.part p).replies = []) ∧ (frFull s p = false) ∧ ((∀ r, (s.part r).events = [])) ∧ 
      let a := ringAddr (s.reg (.pctl p) PCTL.FR_BASE) (s.reg (.pctl p) PCTL.FR_LOG2) 32 (s.reg (.pctl p) PCTL.FR_HEAD)
      
      let x := queryItem s p (bitsAt c.bits 64 8) (bitsAt c.bits 96 32)
      (pccTarget s.variant a = some (.pmem q off)) ∧ 
      let s1 : State := M.after (settle (pccWrite p (.fw p) a (replyRecord s p ⟨0x0A, c.count, x.1, bitsAt c.bits 32 32, x.2⟩))) ((fwReply p c x.1 x.2).after s)
      (settle (pccWrite p (.fw p) a (replyRecord s p ⟨0x0A, c.count, x.1, bitsAt c.bits 32 32, x.2⟩))
      ((fwReply p c x.1 x.2).after s) = .ok () s1) ∧ ((∀ r, (s1.part r).events = []))) ∧
    (∃ (s : State) (p : PartId) (c : FwCmd), (fwRuns s p = true) ∧ ((s.part p).fw = some c) ∧ (bitsAt c.bits 0 8 = 0x0A) ∧ (replyFits s p)) ∧
    (∃ (s : State) (p : PartId), (fwRuns s p = true) ∧ (s.reg (.pctl p) PCTL.HOST = 0) ∧ (s.reg (.pctl p) PCTL.HB_TMO ≠ 0)) ∧
    (∃ (s : State) (p : PartId), (fwRuns s p = true) ∧ (s.reg (.pctl p) PCTL.HOST = 1) ∧ ((s.part p).jobs = []) ∧ ((s.part p).suspects = []) ∧ ((∀ q, q < 16 → graceDone s p q = true))) :=
  ⟨⟨(fwc State.reset ac), 1, ac, by refine ⟨?_, ?_, ?_, replyFits_of (by decide +kernel) (by decide +kernel) (by decide +kernel)⟩ <;> decide +kernel⟩,
   ⟨(eng (lvl0 (fwc State.reset (fa 2))) fun e => { e with activating := some 1, heldMailbox := none }), 1, (fa 2), by refine ⟨by unfold fwHolds; decide +kernel, ?_, ?_, ?_, ?_, replyFits_of (by decide +kernel) (by decide +kernel) (by decide +kernel)⟩ <;> decide +kernel⟩,
   ⟨(eng (lvl0 (fwc State.reset (fa 0))) fun e => { e with activating := none }), 1, (fa 0), by refine ⟨by unfold fwHolds; decide +kernel, ?_, ?_, ?_, replyFits_of (by decide +kernel) (by decide +kernel) (by decide +kernel)⟩ <;> decide +kernel⟩,
   ⟨(qs State.reset 0), 1, 1, (qc 0), (0x8000 + 32 * 6), by refine ⟨?_, ?_, ?_, ?_, ?_, ?_, ?_, okU (by decide +kernel), ?_⟩ <;> decide +kernel⟩,
   ⟨(qs State.reset 7), 1, (qc 7), by refine ⟨?_, ?_, ?_, replyFits_of (by decide +kernel) (by decide +kernel) (by decide +kernel)⟩ <;> decide +kernel⟩,
   ⟨(regs (rdy State.reset) [(.pctl 1, PCTL.HB_TMO, 500), (.pctl 1, PCTL.HB_AGE, 3)]), 1, by refine ⟨?_, ?_, ?_⟩ <;> decide +kernel⟩,
   ⟨(regs (rdy State.reset) [(.pctl 1, PCTL.HOST, 1), (.pctl 1, PCTL.ORPH_ALERT, 1)]), 1, by refine ⟨?_, ?_, ?_, ?_, ?_⟩ <;> decide +kernel⟩⟩

end W7

namespace W8
def rdy (b : State) : State := onPage (onPage (part b 1 fun x => { x with jobs := [], suspects := [], fw := none, replies := [], events := [], replaying := none, chainWrites := [], heads := [], actHold := false, switchWait := false }) (.pctl 1) [(PCTL.FW_READY, 1), (PCTL.HOST, 0), (PCTL.DB_IGNORE, 0), (PCTL.BND_REQ, 0), (PCTL.FR_BASE, 0x1800008000 / 64), (PCTL.FR_LOG2, 6), (PCTL.FR_HEAD, 70), (PCTL.FR_TAIL, 60), (PCTL.FC_BASE, 0x1800009000 / 64), (PCTL.FC_LOG2, 6), (PCTL.FC_HEAD, 3), (PCTL.FC_DB, 4), (PCTL.LG_BASE, 0x180000A000 / 64), (PCTL.LG_LOG2, 4), (PCTL.TR_BASE, 0x180000B000 / 64), (PCTL.TR_LOG2, 4), (PCTL.TR_MODE, 0)]) (.qmg 1) [(QMG.Q_STATE 3, 1), (QMG.Q_EN 3, 1), (QMG.Q_STANDING 3, 0), (QMG.Q_HEAD 3, 5), (QMG.Q_DB 3, 5), (QMG.Q_LOG2 3, 4), (QMG.Q_BASE 3, 0x180000C000 / 64), (QMG.CR_BASE 3, 0x180000D000 / 64), (QMG.CR_LOG2 3, 4), (QMG.CR_HEAD 3, 9), (QMG.CR_TAIL 3, 7), (QMG.Q_PRIO 3, 1)]
def idle (b : State) : State := [13, 14].foldl (fun s g => regs (tile s g fun t => { t with job := none, units := .reset }) [(.tile g .tl, TL.STATE, 0)]) (eng b fun e => { e with faulted := [], models := [] })
def jd : Nat := 1 + (1 <<< 8) + (6 <<< 32) + (0x2000 <<< 64) + (0x100 <<< 128) + (9 <<< 160) + (55 <<< 192) + (66 <<< 224)
def jb (d : Nat) : Job := ⟨12, 3, d, 5, 66, 100, 0, 255, false, none, false, 3, 500, 0, 0⟩
def live (b : State) : State := regs (part (rdy (idle b)) 1 fun x => { x with jobs := [jb jd] }) [(.tile 13 .tl, TL.STATE, 1)]
def liveJ (b : State) : State := tile (live b) 13 fun t => { t with job := some ⟨12, 3, 5, 40⟩ }
def st (k : Nat) (b : State) : State := regs b [(.dlw, DLW.STATE 1, k)]
def cyc (b : State) (a : Nat) : State := withGate (tile (regs (liveJ b) [(.dlw, DLW.EN, 1), (.dlw, DLW.AUTO_RESET, a), (.tile 13 .tl, TL.STATE, 2)]) 13 fun t => { t with seq := ⟨some 0x120, [], [{ act (word [(0, 0x10), (16, 3), (64, 5)]) with begun := false }], 3, false⟩ }) 1 ⟨3, false⟩ (gate0 4 8)
def pe (b : State) : State := regs b [(.dlw, DLW.STATUS 2, 0)]
def rr : ResetRun := ⟨⟨1, 8, [3], 0⟩, 0, 0, 0, 50, false, true, false⟩
def fen (b : State) : State := part (st 1 b) 1 fun x => { x with rst := some rr }
def noReq (b : State) : State := withReqs b []
def offr : ResetRun := { rr with toOff := true }
def dmp (b : State) (k : Nat) (sf : Bool) : State := part (st 2 b) 1 fun x => { x with rst := some { rr with elem := k, slotFree := sf, bytes := 160 } }
def noEv (b : State) : State := part (part (part (part b 0 fun x => { x with events := [] }) 1 fun x => { x with events := [] }) 2 fun x => { x with events := [] }) 3 fun x => { x with events := [] }
def sus : Suspect := ⟨jb jd, none⟩
def rep (b : State) : State := st 6 (rdy (idle b))
def allI (b : State) : State := (tilesOf 1).foldl (fun s g => regs (tile s g fun t => { t with job := none, units := .reset }) [(.tile g .tl, TL.STATE, 0)]) b
def run1 (b : State) (c : Nat) : State := part (allI (rep b)) 1 fun x => { x with suspects := [sus], replaying := some 12, jobs := [{ jb jd with status := c }] }
theorem widen_one {s : State} {k : QueueAt} (h : (mustHold s k).all (fun j => decide (j = k)) = true) :
    widen s [k] = allQueues.filter fun j => decide (j = k) := by
  unfold widen
  refine List.filter_congr fun j _ => ?_
  rw [List.all_eq_true] at h
  by_cases e : j = k
  · simp [e]
  · have : (mustHold s k).contains j = false := by
      rw [Bool.eq_false_iff]; intro m
      exact e (of_decide_eq_true (h j (List.contains_iff_mem.mp m)))
    simp only [List.any_cons, List.any_nil, this, decide_eq_false e, Bool.or_false, List.contains_cons, List.contains_nil]
    simp [e]
theorem allQueues_one : ∀ k ∈ allQueues, (allQueues.filter fun j => decide (j = k)) = [k] := by decide +kernel
theorem closure_one {s : State} {k : QueueAt} (h : widen s [k] = [k]) : closure s k = [k] := by
  unfold closure
  generalize List.range 64 = l
  induction l with
  | nil => rfl
  | cons _ l ih => rw [List.foldl_cons, h]; exact ih
theorem cycles_one {s : State} (h : ∀ k ∈ allQueues, (mustHold s k).all (fun j => decide (j = k)) = true) :
    cycles s = (((allQueues.map fun k => [k]).filter (isCycle s)).eraseDups).filter fun c =>
      !(((allQueues.map fun k => [k]).filter (isCycle s)).eraseDups).any fun d => d ≠ c && d.all c.contains := by
  have e : allQueues.map (closure s) = allQueues.map fun k => [k] :=
    List.map_congr_left fun k hk => closure_one ((widen_one (h k hk)).trans (allQueues_one k hk))
  unfold cycles
  rw [e]


theorem witness_PartitionResetStarts :
    (∃ (s : State) (p : PartId) (i : Instr) (cause : Nat), ((i, cause) ∈ [(Instr.pccWdogExpire p, 5), (.partitionFence p, 4)]) ∧ (s.reg .dlw (DLW.STATE p.val) = PState.run)) ∧
    (∃ (s : State) (p : PartId) (i : Instr), (i ∈ [Instr.pccWdogExpire p, .partitionFence p]) ∧ (s.reg .dlw (DLW.STATE p.val) ≠ PState.run) ∧ (s.reg .dlw (DLW.STATE p.val) ≠ PState.fence)) ∧
    (∃ (s : State) (bits : BitVec 4), (pageWritable s .dlw = true) ∧ ((∀ p : PartId, bits.toNat.testBit p.val = true → s.reg .dlw (DLW.STATE p.val) = PState.run))) ∧
    (∃ (s : State) (g : TileId), (s.reg .dlw DLW.EN = 1) ∧ (tlState s g ∈ [TlState.run, TlState.stopping, TlState.fenceWait]) ∧ (s.reg .dlw (DLW.STATE (partOf g).val) = PState.run)) ∧
    (∃ (s : State) (qs : List QueueAt), s.reg .dlw DLW.EN = 1 ∧ cycles s = [qs] ∧ ∀ k ∈ qs, s.reg .dlw (DLW.STATE k.p.val) = PState.run) ∧
    (∃ (s : State) (k : Fin 8) (v : BitVec 64), (pageWritable s .dlw = true) ∧ (s.reg .dlw (DLW.STATUS k.val) = Pair.none_) ∧ (bitAt v.toNat 12 = true) ∧ (bitsAt v.toNat 0 2 = bitsAt v.toNat 6 2)) ∧
    (∃ (s : State) (k : Fin 8) (v : BitVec 64), (pageWritable s .dlw = true) ∧ (s.reg .dlw (DLW.STATUS k.val) = Pair.none_) ∧ (bitAt v.toNat 12 = true) ∧ (bitsAt v.toNat 0 2 ≠ bitsAt v.toNat 6 2) ∧ (s.reg .dlw (DLW.STATE (bitsAt v.toNat 0 2)) = PState.run) ∧ (s.reg .dlw (DLW.STATE (bitsAt v.toNat 6 2)) = PState.run)) :=
  ⟨⟨(liveJ State.reset), 1, (.pccWdogExpire 1), 5, by refine ⟨?_, ?_⟩ <;> decide +kernel⟩,
   ⟨(st 3 State.reset), 1, (.pccWdogExpire 1), by refine ⟨?_, ?_, ?_⟩ <;> decide +kernel⟩,
   ⟨State.reset, 5, by refine ⟨?_, ?_⟩ <;> decide +kernel⟩,
   ⟨(regs (live State.reset) [(.dlw, DLW.EN, 1)]), 13, by refine ⟨?_, ?_, ?_⟩ <;> decide +kernel⟩,
   ⟨cyc State.reset 1, [⟨1, 3⟩], by decide +kernel, (cycles_one (by decide +kernel)).trans (by decide +kernel), by decide +kernel⟩,
   ⟨(pe State.reset), 2, (0x1000 + 1 + 1 * 64), by refine ⟨?_, ?_, ?_, ?_⟩ <;> decide +kernel⟩,
   ⟨(pe State.reset), 2, (0x1000 + 1 + 2 * 64 + 3 * 4), by refine ⟨?_, ?_, ?_, ?_, ?_, ?_⟩ <;> decide +kernel⟩⟩

theorem witness_FenceAndDump :
    (∃ (s : State) (p : PartId) (r : ResetRun), (s.reg .dlw (DLW.STATE p.val) = PState.fence) ∧ ((s.part p).rst = some r) ∧ (r.toOff = false) ∧ (outstanding s p = false)) ∧
    (∃ (s : State) (p : PartId), (s.reg .dlw (DLW.STATE p.val) ≠ PState.fence ∨ outstanding s p = true)) ∧
    (∃ (s : State) (p : PartId) (r : ResetRun), (s.reg .dlw (DLW.STATE p.val) = PState.fence) ∧ ((s.part p).rst = some r) ∧ (r.toOff = true) ∧ (outstanding s p = false) ∧ ((s.part p).suspects = []) ∧ ((s.part p).jobs = []) ∧ (3 ≤ s.reg .pwr PWR.EMG_LEVEL)) ∧
    (∃ (s : State) (p : PartId) (r : ResetRun), (s.reg .dlw (DLW.STATE p.val) = PState.fence) ∧ ((s.part p).rst = some r) ∧ (r.toOff = false) ∧ (outstanding s p = true)) ∧
    (∃ (s : State) (p : PartId) (r : ResetRun) (code idx : Nat), (s.reg .dlw (DLW.STATE p.val) = PState.dump) ∧ ((s.part p).rst = some r) ∧ ((dumpList s r.slotFree)[r.elem]? = some (code, idx))) ∧
    (∃ (s : State), (pageWritable s .dlw = true)) :=
  ⟨⟨(noReq (fen State.reset)), 1, rr, by refine ⟨?_, ?_, ?_, ?_⟩ <;> decide +kernel⟩,
   ⟨(st 0 State.reset), 1, by decide +kernel⟩,
   ⟨(regs (noReq (part (rdy (st 1 State.reset)) 1 fun x => { x with rst := some offr })) [(.pwr, PWR.EMG_LEVEL, 3)]), 1, offr, by refine ⟨?_, ?_, ?_, ?_, ?_, ?_, ?_⟩ <;> decide +kernel⟩,
   ⟨(withReqs (fen State.reset) [{ readReq with who := .fw 1 }]), 1, rr, by refine ⟨?_, ?_, ?_, ?_⟩ <;> decide +kernel⟩,
   ⟨(dmp State.reset 1 true), 1, { rr with elem := 1, slotFree := true, bytes := 160 }, 0x10, 1, by refine ⟨?_, ?_, ?_⟩ <;> decide +kernel⟩,
   ⟨(regs State.reset [(.dlw, DLW.VALID, 7)]), by decide +kernel⟩⟩

theorem witness_ResetStages :
    (∃ (s : State) (p : PartId) (r : ResetRun), (s.reg .dlw (DLW.STATE p.val) = PState.dump) ∧ ((s.part p).rst = some r) ∧ (r.elem < (dumpList s r.slotFree).length)) ∧
    (∃ (s : State) (p : PartId) (r : ResetRun), (s.reg .dlw (DLW.STATE p.val) = PState.dump) ∧ ((s.part p).rst = some r) ∧ ((dumpList s r.slotFree).length ≤ r.elem)) ∧
    (∃ (s : State) (p : PartId) (c : Fin 2) (pass : List Bool), (s.reg .dlw (DLW.STATE p.val) = PState.retrain) ∧ (c.val < s.variant.groups) ∧ ((∀ q, (s.part q).events = [])) ∧ ((∀ h, h < 8 → pass.getD h false = true))) ∧
    (∃ (s : State) (p : PartId) (c : Fin 2) (pass : List Bool) (h : Nat), (s.reg .dlw (DLW.STATE p.val) = PState.retrain) ∧ (c.val < s.variant.groups) ∧ ((s.part p).events = []) ∧ (h < 8) ∧ (pass.getD h false = false)) ∧
    (∃ (s : State) (p : PartId), (s.reg .dlw (DLW.STATE p.val) = PState.retrain) ∧ ((∀ c : Fin 2, c.val < s.variant.groups → s.reg (.mc p c) MC.TRAINED = 1))) ∧
    (∃ (s : State) (p : PartId), (s.reg .dlw (DLW.STATE p.val) = PState.restart) ∧ (s.reg (.pctl p) PCTL.FW_READY = 0) ∧ ((s.part p).suspects = []) ∧ ((s.part p).jobs = [])) ∧
    (∃ (s : State) (p : PartId) (r : ResetRun) (y : Suspect), (s.reg .dlw (DLW.STATE p.val) = PState.restart) ∧ ((s.part p).rst = some r) ∧ (r.replay = true) ∧ (s.reg .dlw DLW.REPLAY_EN = 1) ∧ (y ∈ (s.part p).suspects) ∧ (y.verdict = none)) ∧
    (∃ (s : State) (p : PartId), (s.reg .dlw (DLW.STATE p.val) ∈ [PState.reset, PState.retrain, PState.restart])) ∧
    (∃ (s : State) (p : PartId), (s.reg .dlw (DLW.STATE p.val) ∉ [PState.reset, PState.retrain, PState.restart])) :=
  ⟨⟨(dmp State.reset 1 true), 1, { rr with elem := 1, slotFree := true, bytes := 160 }, by refine ⟨?_, ?_, ?_⟩ <;> decide +kernel⟩,
   ⟨(dmp State.reset 60 true), 1, { rr with elem := 60, slotFree := true, bytes := 160 }, by refine ⟨?_, ?_, ?_⟩ <;> decide +kernel⟩,
   ⟨(noEv (st 4 State.reset)), 1, 0, (List.replicate 8 true), by refine ⟨?_, ?_, ?_, ?_⟩ <;> decide +kernel⟩,
   ⟨(noEv (st 4 State.reset)), 1, 0, [true, true, false, true, true, true, true, true], 2, by refine ⟨?_, ?_, ?_, ?_, ?_⟩ <;> decide +kernel⟩,
   ⟨(regs (st 4 State.reset) [(.mc 1 0, MC.TRAINED, 1), (.mc 1 1, MC.TRAINED, 1), (.dlw, DLW.DIRTY 1, 0)]), 1, by refine ⟨?_, ?_⟩ <;> decide +kernel⟩,
   ⟨(regs (rdy (st 5 State.reset)) [(.pctl 1, PCTL.FW_READY, 0)]), 1, by refine ⟨?_, ?_, ?_, ?_⟩ <;> decide +kernel⟩,
   ⟨(regs (part (rdy (st 5 State.reset)) 1 fun x => { x with suspects := [sus], rst := some rr }) [(.dlw, DLW.REPLAY_EN, 1), (.pctl 1, PCTL.FW_READY, 0)]), 1, rr, sus, by refine ⟨?_, ?_, ?_, ?_, ?_, ?_⟩ <;> decide +kernel⟩,
   ⟨(st 3 State.reset), 1, by decide +kernel⟩,
   ⟨(st 6 State.reset), 1, by decide +kernel⟩⟩

theorem witness_ReplayVerdicts :
    (∃ (s : State) (p : PartId), (s.reg .dlw (DLW.STATE p.val) = PState.replay) ∧ 
      let s1 := (forAll (tilesOf p) collectTile).after s
      ((s1.part p).replaying = none) ∧ ((s1.part p).suspects.find? (fun x => x.verdict = none) = none)) ∧
    (∃ (s : State) (p : PartId), (s.reg .dlw (DLW.STATE p.val) = PState.replay) ∧ 
      let s1 := (forAll (tilesOf p) collectTile).after s
      ∃ (x : Suspect), ((s1.part p).replaying = none) ∧ ((s1.part p).suspects.find? (fun x => x.verdict = none) = some x) ∧ (allBetween s1 p = true) ∧ ((∀ g ∈ jobTiles p x.job.desc, (s1.tile g).units.switchErr = Err.none)) ∧ ((∀ k ∈ (s1.part p).jobs, k.id ≠ x.job.id))) ∧
    (∃ (s : State) (p : PartId), (s.reg .dlw (DLW.STATE p.val) = PState.replay) ∧ 
      let s1 := (forAll (tilesOf p) collectTile).after s
      ∃ (j : Job), ((s1.part p).replaying = some j.id) ∧ ((s1.part p).jobs.find? (fun k => k.id = j.id) = some j) ∧ (jobRuns s1 p j = false) ∧ (j.status = Err.none) ∧ (j.inst = none)) ∧
    (∃ (s : State) (p : PartId), (s.reg .dlw (DLW.STATE p.val) = PState.replay) ∧ 
      let s1 := (forAll (tilesOf p) collectTile).after s
      ∃ (j : Job), ((s1.part p).replaying = some j.id) ∧ ((s1.part p).jobs.find? (fun k => k.id = j.id) = some j) ∧ (jobRuns s1 p j = false) ∧ (j.status ≠ Err.none)) ∧
    (∃ (s : State) (p : PartId) (j : Job), (s.reg .dlw (DLW.STATE p.val) = PState.replay) ∧ (replayJob s p = some j)) ∧
    (∃ (s : State) (p : PartId), (s.reg .dlw (DLW.STATE p.val) ≠ PState.replay)) :=
  ⟨⟨(rep State.reset), 1, by refine ⟨?_, ?_, ?_⟩ <;> decide +kernel⟩,
   ⟨(part (allI (rep State.reset)) 1 fun x => { x with suspects := [sus] }), 1, by refine ⟨?_, sus, ?_, ?_, ?_, ?_, ?_⟩ <;> decide +kernel⟩,
   ⟨(run1 State.reset 0), 1, by refine ⟨?_, (jb jd), ?_, ?_, ?_, ?_, ?_⟩ <;> decide +kernel⟩,
   ⟨(run1 State.reset 5), 1, by refine ⟨?_, { jb jd with status := 5 }, ?_, ?_, ?_, ?_⟩ <;> decide +kernel⟩,
   ⟨(run1 State.reset 0), 1, (jb jd), by refine ⟨?_, ?_⟩ <;> decide +kernel⟩,
   ⟨(st 0 State.reset), 1, by decide +kernel⟩⟩

end W8

namespace W9
def hdr (ver : Nat) : List Byte := leBytes 4 0x4E424C4B ++ leBytes 4 1 ++ leBytes 4 512 ++ leBytes 4 ver ++ leBytes 1 2 ++ leBytes 1 3 ++ leBytes 1 1 ++ [0] ++ leBytes 1 48 ++ [0, 0, 0] ++ leBytes 4 256 ++ leBytes 4 8 ++ leBytes 4 256 ++ leBytes 4 256 ++ leBytes 4 512 ++ leBytes 4 0 ++ List.replicate 208 0 ++ List.replicate 256 0
def tg (tag : List Byte) : List Byte := leBytes 4 0x47544B46 ++ leBytes 4 512 ++ List.replicate 8 0 ++ tag
def cop0 (b : State) (k ver : Nat) : State := eng b fun e => { e with flash := e.flash.write (copyBase k) (hdr ver) }
def cop (b : State) (k ver : Nat) : State := eng (cop0 b k ver) fun e => { e with flash := e.flash.write (copyBase k + 0x7FFFC0) (tg (deviceTag (cop0 b k ver) (copyBytes (cop0 b k ver) k))) }
def wiped (b : State) : State := regs (eng b fun e => { e with flash := .empty, inReset := true, bootWait := false, loader := ⟨false, .empty, none, [], []⟩, otp := { e.otp with returned := false } }) [(.sec, SEC.KEY_PROV, 8), (.sec, SEC.KEY_REVOKED, 0), (.sec, SEC.SVN_CTR, 1), (.sec, SEC.LC_STATE, 1), (.pwr, PWR.OSC_CAL_E, 100000)]
def mb (b : State) : State := regs (eng b fun e => { e with activating := none, otp := { e.otp with hashes := [] } }) [(.sec, SEC.BUSY, 0), (.sec, SEC.LC_STATE, 1), (.sec, SEC.KEY_PROV, 9), (.sec, SEC.KEY_REVOKED, 0)]
def pkg : List Byte := hdr 9 ++ leBytes 4 1 ++ leBytes 4 97 ++ leBytes 4 96 ++ leBytes 4 0 ++ List.replicate 193 0
def pkgB : List Byte := ((package pkg).map Prod.fst).getD []
def pkgX : SigBlock := ((package pkg).map Prod.snd).getD ⟨0, [], []⟩
def fr0 (ty : Byte) (p : List Byte) : UartFrame := ⟨ty, 7, p, BitVec.ofNat 16 (crc16 (frameBody ty 7 p))⟩
def ldr (b : State) : State := regs (eng b fun e => { e with inReset := true, loader := ⟨true, (Memory.empty).write 0 pkg, none, [1], [9]⟩ }) [(.sec, SEC.LC_STATE, 1), (.sec, SEC.KEY_PROV, 9)]
def fb (ty : Byte) (p : List Byte) : List Byte := frameBytes ty 7 p
def noEv (b : State) : State := part (part (part (part b 0 fun x => { x with events := [] }) 1 fun x => { x with events := [] }) 2 fun x => { x with events := [] }) 3 fun x => { x with events := [] }


theorem witness_EngineResetAndBoot :
    (∃ (s : State), (lcState s ∈ [Lc.develop, Lc.secured, Lc.returned]) ∧ (s.reg .sec SEC.SVN_CTR < 2 ^ SEC.SVN_CTR.width)) ∧
    (∃ (s : State) (errA errB : Bool), (s.reg .sec SEC.SVN_CTR < 2 ^ SEC.SVN_CTR.width) ∧ (lcState s = Lc.blank)) ∧
    (∃ (s : State) (errA errB : Bool), (s.reg .sec SEC.SVN_CTR < 2 ^ SEC.SVN_CTR.width) ∧ (lcState s = Lc.void)) ∧
    (∃ (s : State) (strap errA errB : Bool), (s.reg .sec SEC.SVN_CTR < 2 ^ SEC.SVN_CTR.width) ∧ (lcState s ∈ [Lc.develop, Lc.secured, Lc.returned]) ∧ (strap = true)) ∧
    (∃ (s : State) (strap errA errB : Bool), (s.reg .sec SEC.SVN_CTR < 2 ^ SEC.SVN_CTR.width) ∧ (lcState s ∈ [Lc.develop, Lc.secured, Lc.returned]) ∧ (strap = false)) :=
  ⟨⟨(wiped State.reset), by refine ⟨?_, ?_⟩ <;> decide +kernel⟩,
   ⟨(regs (wiped State.reset) [(.sec, SEC.LC_STATE, 0)]), false, false, by refine ⟨?_, ?_⟩ <;> decide +kernel⟩,
   ⟨(regs (wiped State.reset) [(.sec, SEC.LC_STATE, 4)]), false, false, by refine ⟨?_, ?_⟩ <;> decide +kernel⟩,
   ⟨(wiped State.reset), true, false, false, by refine ⟨?_, ?_, ?_⟩ <;> decide +kernel⟩,
   ⟨(cop (cop (wiped State.reset) 0 5) 1 4), false, false, false, by refine ⟨?_, ?_, ?_⟩ <;> decide +kernel⟩⟩

theorem witness_MailboxCommands :
    (∃ (s : State) (pkg bundle : List Byte) (x : SigBlock), (mbReached s = true) ∧ (s.reg .sec SEC.BUSY = 0) ∧ (lcOpen s = true) ∧ (s.eng.activating = none) ∧ (package pkg = some (bundle, x))) ∧
    (∃ (s : State), (mbReached s = true) ∧ (s.reg .sec SEC.BUSY = 0) ∧ (lcOpen s = true) ∧ (s.eng.activating ≠ none)) ∧
    (∃ (s : State) (pkg bundle : List Byte) (x : SigBlock) (n : Nat), (mbReached s = true) ∧ (s.reg .sec SEC.BUSY = 0) ∧ (lcOpen s = true) ∧ (s.eng.activating = none) ∧ (package pkg = some (bundle, x)) ∧ (n < bundle.length + 64)) ∧
    (∃ (s : State) (i : Instr) (k : Package) (b : List Byte), (i ∈ [Instr.install k, .commitSvn, .revoke b, .mbStatus]) ∧ (mbReached s = true) ∧ (s.reg .sec SEC.BUSY = 1)) ∧
    (∃ (s : State), (mbReached s = true) ∧ (s.reg .sec SEC.BUSY = 0) ∧ (lcOpen s = true)) ∧
    (∃ (s : State), (mbReached s = true) ∧ (s.reg .sec SEC.BUSY = 0) ∧ (lcState s ≠ Lc.blank)) :=
  ⟨⟨(mb State.reset), pkg, pkgB, pkgX, by refine ⟨?_, ?_, ?_, ?_, ?_⟩ <;> decide +kernel⟩,
   ⟨(eng (mb State.reset) fun e => { e with activating := some 2 }), by refine ⟨?_, ?_, ?_, ?_⟩ <;> decide +kernel⟩,
   ⟨(mb State.reset), pkg, pkgB, pkgX, 9, by refine ⟨?_, ?_, ?_, ?_, ?_, ?_⟩ <;> decide +kernel⟩,
   ⟨(regs (mb State.reset) [(.sec, SEC.BUSY, 1)]), .commitSvn, ⟨[], none⟩, [], by refine ⟨?_, ?_, ?_⟩ <;> decide +kernel⟩,
   ⟨(eng (mb State.reset) fun e => { e with runSvn := 9 }), by refine ⟨?_, ?_, ?_⟩ <;> decide +kernel⟩,
   ⟨(mb State.reset), by refine ⟨?_, ?_, ?_⟩ <;> decide +kernel⟩⟩

theorem witness_LifeCycleRequests :
    (∃ (s : State) (req : List Byte) (i : Instr) (word target : Nat), (mbReached s = true) ∧ (s.reg .sec SEC.BUSY = 0) ∧ ((i, word, target) ∈ [(Instr.lcSecure req, 0x4345534C, Lc.secured), (.lcVoid req, 0x44494F56, Lc.void)]) ∧ (lcState s = Lc.develop ∨ lcState s = Lc.secured)) ∧
    (∃ (s : State), (mbReached s = true) ∧ (s.reg .sec SEC.BUSY = 0) ∧ (lcOpen s = true)) :=
  ⟨⟨(mb State.reset), [1, 2], (.lcSecure [1, 2]), 0x4345534C, Lc.secured, by refine ⟨?_, ?_, ?_, ?_⟩ <;> decide +kernel⟩,
   ⟨(mb State.reset), by refine ⟨?_, ?_, ?_⟩ <;> decide +kernel⟩⟩

theorem witness_RecoveryLoader :
    (∃ (s : State) (b rest : List Byte) (f : UartFrame), (s.eng.loader.running = true) ∧ (uartTake (s.eng.loader.rx ++ b) = some (f, rest)) ∧ (frameGood f = true) ∧ ((∀ r, s.eng.loader.prev ≠ some (f, r))) ∧ (f.type = 1) ∧ (f.payload = [])) ∧
    (∃ (s : State) (b rest : List Byte) (f : UartFrame), (s.eng.loader.running = true) ∧ (uartTake (s.eng.loader.rx ++ b) = some (f, rest)) ∧ (frameGood f = true) ∧ ((∀ r, s.eng.loader.prev ≠ some (f, r))) ∧ (f.type = 1) ∧ (f.payload ≠ [])) ∧
    (∃ (s : State) (b rest : List Byte) (f : UartFrame), (s.eng.loader.running = true) ∧ (uartTake (s.eng.loader.rx ++ b) = some (f, rest)) ∧ (frameGood f = true) ∧ ((∀ r, s.eng.loader.prev ≠ some (f, r))) ∧ (f.type = 2) ∧ (lcState s ≠ Lc.blank) ∧ (5 ≤ f.payload.length) ∧ (f.payload.length ≤ 1020) ∧ (leNat (f.payload.take 4) + (f.payload.length - 4) ≤ stagingSize)) ∧
    (∃ (s : State) (b rest : List Byte) (f : UartFrame), (s.eng.loader.running = true) ∧ (uartTake (s.eng.loader.rx ++ b) = some (f, rest)) ∧ (frameGood f = true) ∧ ((∀ r, s.eng.loader.prev ≠ some (f, r))) ∧ (f.type = 2) ∧ (lcState s = Lc.blank)) ∧
    (∃ (s : State) (b rest : List Byte) (f : UartFrame), (s.eng.loader.running = true) ∧ (uartTake (s.eng.loader.rx ++ b) = some (f, rest)) ∧ (frameGood f = true) ∧ ((∀ r, s.eng.loader.prev ≠ some (f, r))) ∧ (f.type = 3) ∧ (lcState s ≠ Lc.blank) ∧ (f.payload.length = 4) ∧ (leNat f.payload ≤ stagingSize) ∧ ∃ (bundle : List Byte) (x : SigBlock), (package (s.eng.loader.staging.read 0 (leNat f.payload)) = some (bundle, x))) ∧
    (∃ (s : State) (b rest : List Byte) (f : UartFrame), (s.eng.loader.running = true) ∧ (uartTake (s.eng.loader.rx ++ b) = some (f, rest)) ∧ (frameGood f = true) ∧ ((∀ r, s.eng.loader.prev ≠ some (f, r))) ∧ (f.type = 4) ∧ (f.payload ≠ []) ∧ (f.payload.length ≤ 1024)) ∧
    (∃ (s : State) (b rest : List Byte) (f : UartFrame), (s.eng.loader.running = true) ∧ (uartTake (s.eng.loader.rx ++ b) = some (f, rest)) ∧ (frameGood f = true) ∧ ((∀ r, s.eng.loader.prev ≠ some (f, r))) ∧ (f.type = 5) ∧ (f.payload = [])) ∧
    (∃ (s : State) (b rest : List Byte) (f : UartFrame), (s.eng.loader.running = true) ∧ (uartTake (s.eng.loader.rx ++ b) = some (f, rest)) ∧ (frameGood f = true) ∧ ((∀ r, s.eng.loader.prev ≠ some (f, r))) ∧ (frameKnown f = false)) ∧
    (∃ (s : State) (b rest : List Byte) (f : UartFrame), (s.eng.loader.running = true) ∧ (uartTake (s.eng.loader.rx ++ b) = some (f, rest)) ∧ (frameGood f = false)) ∧
    (∃ (s : State) (b rest : List Byte) (f : UartFrame) (r : List Byte) (i : Instr), (s.eng.loader.running = true) ∧ (i ∈ [Instr.hello b, .stage b, .rcvInstall b, .lcRequest b, .reboot b]) ∧ (uartTake (s.eng.loader.rx ++ b) = some (f, rest)) ∧ (frameGood f = true) ∧ (s.eng.loader.prev = some (f, r))) ∧
    (∃ (s : State) (b : List Byte) (i : Instr), (i ∈ [Instr.hello b, .stage b, .rcvInstall b, .lcRequest b, .reboot b, .nak b]) ∧ (s.eng.loader.running = false)) ∧
    (∃ (s : State) (b : List Byte) (i : Instr), (i ∈ [Instr.hello b, .stage b, .rcvInstall b, .lcRequest b, .reboot b, .nak b]) ∧ (s.eng.loader.running = true) ∧ (uartTake (s.eng.loader.rx ++ b) = none)) :=
  ⟨⟨(ldr State.reset), (fb 1 []), [], (fr0 1 []), by refine ⟨?_, ?_, ?_, (by intro r h; cases h), ?_, ?_⟩ <;> decide +kernel⟩,
   ⟨(ldr State.reset), (fb 1 [1]), [], (fr0 1 [1]), by refine ⟨?_, ?_, ?_, (by intro r h; cases h), ?_, ?_⟩ <;> decide +kernel⟩,
   ⟨(ldr State.reset), (fb 2 [9, 1, 0, 0, 7, 8, 9]), [], (fr0 2 [9, 1, 0, 0, 7, 8, 9]), by refine ⟨?_, ?_, ?_, (by intro r h; cases h), ?_, ?_, ?_, ?_, ?_⟩ <;> decide +kernel⟩,
   ⟨(regs (ldr State.reset) [(.sec, SEC.LC_STATE, 0)]), (fb 2 [9, 1, 0, 0, 7, 8, 9]), [], (fr0 2 [9, 1, 0, 0, 7, 8, 9]), by refine ⟨?_, ?_, ?_, (by intro r h; cases h), ?_, ?_⟩ <;> decide +kernel⟩,
   ⟨(ldr State.reset), (fb 3 (leBytes 4 pkg.length)), [], (fr0 3 (leBytes 4 pkg.length)), by refine ⟨?_, ?_, ?_, (by intro r h; cases h), ?_, ?_, ?_, ?_, pkgB, pkgX, ?_⟩ <;> decide +kernel⟩,
   ⟨(ldr State.reset), (fb 4 [4, 5]), [], (fr0 4 [4, 5]), by refine ⟨?_, ?_, ?_, (by intro r h; cases h), ?_, ?_, ?_⟩ <;> decide +kernel⟩,
   ⟨(ldr State.reset), (fb 5 []), [], (fr0 5 []), by refine ⟨?_, ?_, ?_, (by intro r h; cases h), ?_, ?_⟩ <;> decide +kernel⟩,
   ⟨(ldr State.reset), (fb 9 []), [], (fr0 9 []), by refine ⟨?_, ?_, ?_, (by intro r h; cases h), ?_⟩ <;> decide +kernel⟩,
   ⟨(ldr State.reset), ((fb 9 []).take 6 ++ [1, 2, 3]), [3], ⟨9, 7, [], 0x201⟩, by refine ⟨?_, ?_, ?_⟩ <;> decide +kernel⟩,
   ⟨(eng (ldr State.reset) fun e => { e with loader := { e.loader with prev := some (fr0 2 [9, 1, 0, 0, 7, 8, 9], [4, 4]) } }), (fb 2 [9, 1, 0, 0, 7, 8, 9]), [], (fr0 2 [9, 1, 0, 0, 7, 8, 9]), [4, 4], (.stage (fb 2 [9, 1, 0, 0, 7, 8, 9])), by refine ⟨?_, ?_, ?_, ?_, ?_⟩ <;> decide +kernel⟩,
   ⟨(eng State.reset fun e => { e with loader := { e.loader with running := false } }), [1], (.stage [1]), by refine ⟨?_, ?_⟩ <;> decide +kernel⟩,
   ⟨(ldr State.reset), [0xA5, 0x5A], (.stage [0xA5, 0x5A]), by refine ⟨?_, ?_, ?_⟩ <;> decide +kernel⟩⟩

theorem witness_RegisterWindow :
    (∃ (s : State) (addr : Nat) (cls : SrcClass) (i : PageId), ((∀ p, (s.part p).events = [])) ∧ (addr % 4 = 0) ∧ (apertureAt addr = none) ∧ (fittedPage s (addr / 0x1000) = some i) ∧ (pageWritable s i = true) ∧ (viaDebug cls = false ∨ debugReaches s cls (fittedPage s (addr / 0x1000)) = true) ∧ (0x040 ≤ addr % 0x1000) ∧ (wideAt i (addr % 0x1000) = false) ∧ (wideAt i (addr % 0x1000 - 4) = false) ∧ (i = .eng ∨ (∃ p c, i = .mc p c) ∨ (∃ g, ∃ k ∈ [TPage.tl, .rot, .spd, .dbg], i = .tile g k))) ∧
    (∃ (s : State) (addr size : Nat), ((∀ p, (s.part p).events = [])) ∧ (wellSized addr size = false)) ∧
    (∃ (s : State) (addr size : Nat) (cls : SrcClass), ((∀ p, (s.part p).events = [])) ∧ (wellSized addr size = true) ∧ (viaDebug cls = true) ∧ (debugReaches s cls (fittedPage s (addr / 0x1000)) = false)) ∧
    (∃ (s : State) (addr size : Nat) (cls : SrcClass), ((∀ p, (s.part p).events = [])) ∧ (wellSized addr size = true) ∧ (apertureAt addr = none) ∧ (viaDebug cls = false) ∧ ((∀ i, fittedPage s (addr / 0x1000) = some i → pageWritable s i = false))) ∧
    (∃ (s : State) (addr size : Nat) (cls : SrcClass) (i : PageId), (wellSized addr size = true) ∧ (apertureAt addr = none) ∧ (fittedPage s (addr / 0x1000) = some i) ∧ (pageAwake s i = true) ∧ (viaDebug cls = false ∨ debugReaches s cls (fittedPage s (addr / 0x1000)) = true)) ∧
    (∃ (s : State) (n : Nat) (cls : SrcClass) (f : Fld), (f ∈ [DLW.HANG_CNT, DLW.STALL_CNT, DLW.RESET_CNT]) ∧ (viaDebug cls = false) ∧ (fittedPage s n = some .dlw) ∧ (apertureAt (n * 0x1000 + f.off) = none) ∧ (s.eng.inReset = false)) ∧
    (∃ (s : State) (page : Nat) (i : PageId), (fittedPage s page = some i) ∧ (pageWritable s i = true)) ∧
    (∃ (s : State) (page : Nat), ((∀ i, fittedPage s page = some i → pageWritable s i = false))) ∧
    (∃ (s : State) (g : TileId) (v : BitVec 32), (pageWritable s (.tile g .acc) = true) ∧ 
      let b := bitsAt v.toNat 17 1
      ((s.tile g).bufState b = 0)) ∧
    (∃ (s : State) (g : TileId) (v : BitVec 32), (pageWritable s (.tile g .acc) = true) ∧ 
      let b := bitsAt v.toNat 17 1
      ((s.tile g).bufState b ≠ 0)) ∧
    (∃ (s : State) (g : TileId) (v : BitVec 32), (pageWritable s (.tile g .lut) = true) ∧ (v.toNat.testBit 7 = true)) :=
  ⟨⟨(noEv State.reset), 0x40, .host, .eng, by refine ⟨?_, ?_, ?_, ?_, ?_, ?_, ?_, ?_, ?_, ?_⟩ <;> decide +kernel⟩,
   ⟨(noEv State.reset), 0x42, 4, by refine ⟨?_, ?_⟩ <;> decide +kernel⟩,
   ⟨(noEv State.reset), 0x40, 4, .debug, by refine ⟨?_, ?_, ?_, ?_⟩ <;> decide +kernel⟩,
   ⟨(noEv State.reset), 0xFF000, 4, .host, by refine ⟨?_, ?_, ?_, ?_, ?_⟩ <;> decide +kernel⟩,
   ⟨State.reset, 0x40, 4, .host, .eng, by refine ⟨?_, ?_, ?_, ?_, ?_⟩ <;> decide +kernel⟩,
   ⟨State.reset, 1, .host, DLW.HANG_CNT, by refine ⟨?_, ?_, ?_, ?_, ?_⟩ <;> decide +kernel⟩,
   ⟨State.reset, 0x141, (.tile 2 .lut), by refine ⟨?_, ?_⟩ <;> decide +kernel⟩,
   ⟨State.reset, 6, by decide +kernel⟩,
   ⟨(tile State.reset 7 fun t => { t with units := .reset }), 7, (3 + 5 * 256 + 1 * 2 ^ 17 + 9 * 2 ^ 18), by refine ⟨?_, ?_⟩ <;> decide +kernel⟩,
   ⟨(tile State.reset 7 fun t => { t with units := { Units.reset with array := [⟨1, 1, 1, [0], true, true, 0⟩] } }), 7, (3 + 5 * 256 + 9 * 2 ^ 18), by refine ⟨?_, ?_⟩ <;> decide +kernel⟩,
   ⟨State.reset, 7, 0x85, by refine ⟨?_, ?_⟩ <;> decide +kernel⟩⟩

end W9

/-! ### Worked examples of the spec -/

/-- "123456789" -/
def digits : List Byte := [0x31, 0x32, 0x33, 0x34, 0x35, 0x36, 0x37, 0x38, 0x39]
/-- R272 -/
theorem test_crc32c : crc32c digits = 0xE3069283 := by decide +kernel
/-- R444 -/
theorem test_crc16 : crc16 digits = 0x29B1 := by decide +kernel
/-- Chapter 8, "check bytes and one correction" -/
theorem test_check_bytes : checkOf (List.replicate 31 0 ++ [1]) = [0x07, 0x0E, 0x08] ∧
    classify (List.replicate 31 0 ++ [0x11, 0x07, 0x0E, 0x08]) = .one 3 0x10 := by decide +kernel
/-- Chapter 3, "a B2 lookup bit by bit" -/
def b2Codes (i : Nat) : Int := [10, -3, 5, 7].getD i 0
theorem test_b2_tables :
    (List.range 16).map (tableEntry 2 b2Codes [] 1) = [-19, 1, -25, -5, -9, 11, -15, 5, -5, 15, -11, 9, 5, 25, -1, 19] ∧
    (List.range 16).map (tableEntry 2 b2Codes [] 0) = [-19, -9, -22, -12, -14, -4, -17, -7, -12, -2, -15, -5, -7, 3, -10, 0] ∧
    planeWeight 2 0 * tableEntry 2 b2Codes [] 0 5 + planeWeight 2 1 * tableEntry 2 b2Codes [] 1 6 = 11 := by decide +kernel
/-- Chapter 3, "a C8P lookup" -/
def c8pBook : List Byte := List.replicate 12 0 ++ [0x0C, 0xFB, 0x00, 0x28] ++ List.replicate 88 0 ++ [0xFD, 0x07, 0x3F, 0xC0] ++ List.replicate 20 0
theorem test_c8p_lookup : tableEntry 10 b2Codes c8pBook 0 3 = 415 ∧ tableEntry 10 b2Codes c8pBook 1 10 = -184 ∧
    laneIndices [0xA3] = [3, 10] := by decide +kernel
/-- Chapter 4, "one promotion in STOCH and NEAREST" -/
theorem test_promotion_rounds : ditherField [0, 0x4F1D62A0B3C17E08] 5 = 0xB3C1 ∧
    shiftRound true 4 0xB3C1 1234567 = 77161 ∧ shiftRound true 4 0x62A0 (-1234567) = -77161 ∧
    [1234567, 40, 56, -40].map (shiftRound false 4 0) = [77160, 2, 4, -2] := by decide +kernel
/-- Chapter 4, "cancellation and saturation" -/
theorem test_accumulator_saturates : promoteEntry false 2146000000 2000000 = (0x7FFFFFFF, true) ∧
    (promoteEntry false 0x7FFFFFFF (-2000000)).1 = 0x7FFFFFFF := by decide +kernel
/-- Chapter 5, "requantising one entry" -/
theorem test_requantise : requant 4660 0xFFFFFDC400144000 3 = 10 := by decide +kernel
/-- Chapter 5, "one spike, rotated" -/
theorem test_rotation : walsh 16 ([16, 0, 0, 0, 0, 1600] ++ List.replicate 10 0) =
    [1616, -1584, 1616, -1584, -1584, 1616, -1584, 1616, 1616, -1584, 1616, -1584, -1584, 1616, -1584, 1616] ∧
    curScale ⟨1616, 4096⟩ 127 = (0x7CBA, false) := by decide +kernel
/-- Chapter 5, "a HIST row with ties and a clip" -/
theorem test_history_row : histL ⟨515, 256⟩ 127 = 0x91 ∧ histWord 0x90 = 0x9000 ∧
    ([10, 14, -10, 515] : List Int).map (fun y => codeOf false 127 0 ⟨y, 4⟩) = [(2, false), (4, false), (-2, false), (127, true)] ∧
    (([(10, 2), (14, 4), (-10, -2), (515, 127)] : List (Int × Int)).map fun e => sqErr ⟨e.1, 4⟩ e.2).foldl (· + ·) 0 = 0x3D000 := by
  decide +kernel
/-- Chapter 9, "locating one word" -/
theorem test_word_located : interleave .m8i1 0x40003A40 = (1, 0x20001A40) ∧ channelOf 0x20001A40 = 2 ∧
    checkBytes 0x20001A40 = 0x3D0D68AE7 ∧ channelOf (checkBlock 0x20001A40) = 6 := by decide +kernel
/-- Chapter 1, "reaching one accumulator entry" -/
theorem test_accumulator_entry_reached : pageOf 0x1193 = some (.tile 31 .cnv) ∧
    targetOf .m8i2 31 0x00420A0C = some (.here (.acc 1) 0xA0C) ∧
    targetOf .m8i2 28 0x0107420A0C = some (.peer 31 (.acc 1) 0xA0C) := by decide +kernel
/-- Chapter 7, "one adaptation step of a C4 head": bin (4, 5) from lanes 2 and 7, and what entry 5 receives in CENTROID -/
def binImage : List (List Nat) := [[], [], [0, 0, 0, 0, 5], [], [0, 0, 0, 0, 9], [], [], [0, 0, 0, 0, 5]]
theorem test_bin_contributions : binContribs binImage [0, 0, -40, 0, 12, 0, 0, 25] 4 5 = [-40, 25] ∧
    binContribs binImage [0, 0, -40, 0, 12, 0, 0, 25] 4 9 = [12] := by decide +kernel

/-! ### One step -/

/-- The step takes the front of the queue and leaves the rest. -/
theorem test_front_first : (isNext (step (State.reset.withPending [.emgLevelRise 1, .pstWake])) fun t =>
    t.pending == [.pstWake] && t.reg .pwr PWR.EMG_LEVEL == 1) = true := by decide +kernel
/-- R362 to R364: a signal from an allowed class adds to the gate, one from another class leaves it and is counted. -/
theorem test_gate_signal : (isNext (exec (.gtSignal 1 .host ⟨3, false⟩ 9) (withGate State.reset 1 ⟨3, false⟩ (gate0 5 0x100000))) fun t =>
      (t.gate 1 ⟨3, false⟩).value == 14 && !(t.gate 1 ⟨3, false⟩).err) = true ∧
    (isNext (exec (.gtSignal 1 .xsrc ⟨3, false⟩ 9) (withGate State.reset 1 ⟨3, false⟩ (gate0 5 0x100000))) fun t =>
      (t.gate 1 ⟨3, false⟩).value == 5 && !(t.gate 1 ⟨3, false⟩).err && t.reg (.qmg 1) QMG.GT_REFUSED == 1) = true := by decide +kernel
theorem test_no_word_spells_a_command : State.reset.withFetchWord 8 0 = State.reset := rfl

/-! ### Well-formed commands -/

def msg0 : Msg := ⟨1, 2, 0, false, false, 7, 0, 0, []⟩
def src0 : Sender := ⟨5, 1, 3⟩
def from0 (cls : Nat) : Origin := ⟨cls, ⟨1, 3, 2, []⟩⟩
def adds0 (n : Nat) : Addends := ⟨List.replicate n none, [], []⟩
def push0 (fs : List Flip) : HistoryPush := ⟨5, ⟨1, 3, 2, []⟩, fs, []⟩
def wellFormed : List Instr := [.spdRead 5 (from0 0) 0x3FFF80 128 [] [⟨139, 1⟩], .peerAccess 5 8 6 0xFFFFFFFFFF (.read 128),
  .apertureAccess 1 0x4FFFFF 4 (.read 4), .mcRead 1 (from0 8) 0x7FFFFFFFF 1 [⟨66, 1⟩] ⟨[⟨66, 1⟩], true⟩,
  .mcAtomicAdd 1 (from0 8) 64 (adds0 16), .historyPush 1 4 (push0 [⟨66, 1⟩]), .mr4Poll 1 0 (List.replicate 8 3),
  .memTraining 1 0 (List.replicate 8 true), .frameRx 0 (List.replicate 104 0), .echoCheck 0 1 (.heard (List.replicate 104 0) 97 true) 0,
  .write 0 src0 msg0, .create 1 .fw ⟨1023, false⟩, .swapRevert 0x3FFF, .restartDone 1 (List.replicate 12 1),
  .install ⟨[1, 2], some 1⟩, .hello (List.replicate 1032 0), .rcCounterRead 0x3FFFFFF 4 .host]
theorem test_well_formed : wellFormed.all wfInstr = true := by decide +kernel
/-- One term per check, which the check refuses. -/
def illFormed : List Instr := [.spdRead 5 (from0 0) 0x3FFF80 128 [] [⟨140, 1⟩], .spdRead 5 (from0 9) 0 1 [] [],
  .spdRead 5 (from0 0) 0x400000 1 [] [], .spdWrite 5 (from0 0) 0 [] [] [], .spdRead 5 (from0 0) 1 128 [] [], .spdScrub 5 [⟨140, 1⟩],
  .peerAccess 5 9 6 0 (.read 1), .peerAccess 5 8 6 0x10000000000 (.read 1), .peerAccess 5 8 6 0 (.read 129),
  .peerAccess 5 8 6 0 (.write []), .apertureAccess 1 0x500000 4 (.read 4), .apertureAccess 1 0 4 (.read 8),
  .mcRead 1 (from0 9) 0 1 [] ⟨[], false⟩, .mcRead 1 (from0 8) 0x800000000 1 [] ⟨[], false⟩, .mcWrite 1 (from0 8) 0 [] [] [],
  .mcRead 1 (from0 8) 0 1 [⟨67, 1⟩] ⟨[], false⟩, .mcRead 1 (from0 8) 0 1 [] ⟨[⟨67, 1⟩], true⟩, .mcAtomicAdd 1 (from0 8) 4 (adds0 16),
  .mcAtomicAdd 1 (from0 8) 0 (adds0 15), .historyPush 1 2 (push0 []), .historyMerge 1 4 (push0 [⟨67, 1⟩]), .mr4Poll 1 0 [],
  .memTraining 1 0 [true], .frameRx 0 (List.replicate 103 0), .frameRx 0 (List.replicate 4329 0), .echoCheck 0 1 (.heard [] 97 true) 0,
  .echoCheck 0 1 (.heard (List.replicate 104 0) 98 true) 0, .write 0 src0 { msg0 with type := 256 }, .write 0 src0 { msg0 with dst := 16 },
  .read 0 src0 { msg0 with seq := 65536 }, .leave 0 src0 { msg0 with oseq := 65536 }, .join 0 { src0 with epoch := 4096 } msg0,
  .create 1 .fw ⟨1024, false⟩, .gtSignal 1 .host ⟨1024, true⟩ 1, .swapRevert 0x4000, .irqForce 0x4000 1, .cntClr 0x4000,
  .restartDone 1 [], .hello (List.replicate 1033 0), .nak (List.replicate 1033 0), .rcCounterRead 0x4000000 4 .host]
theorem test_ill_formed : illFormed.any wfInstr = false := by decide +kernel
theorem test_package_too_long (b : Package) (h : b.bytes.length = 2 ^ 24) : wfInstr (.install b) = false :=
  decide_eq_false (by rw [h]; exact Nat.lt_irrefl _)

/-! ### Codes and seals -/

/-- R322: the check bytes of the single body byte 1 are the coefficients of the product of the x + α^j, j from 0 to 7, below
x⁸; the product has each α^j as a root; and four wrong symbols of a codeword are put right, five are not. -/
theorem test_frame_code : FrameCode.encode [1] 1 = [0x01, 0xFF, 0x0B, 0x51, 0x36, 0xEF, 0xAD, 0xC8, 0x18] ∧
    ((List.range 8).all fun j => FrameCode.evalAt [0x18, 0xC8, 0xAD, 0xEF, 0x36, 0x51, 0x0B, 0xFF, 1] (FrameCode.power 2 j) = 0) = true ∧
    FrameCode.correct [0x09, 0xFF, 0x4B, 0x51, 0x36, 0xED, 0xAD, 0xC8, 0x99] = some (4, [1]) ∧
    FrameCode.correct [0x09, 0xFF, 0x4B, 0x51, 0x36, 0xED, 0xAD, 0x48, 0x99] = none := by decide +kernel
/-- R336 names AES-128-GCM. FIPS 197, appendix C.1; and the tag of no text under the zero key and nonce. -/
theorem test_cipher : Aes.cipher (Aes.schedule (List.range 16)) ((List.range 16).map (17 * ·)) =
      Aes.bigBytes 16 0x69C4E0D86A7B0430D8CDB78070B4C55A ∧
    Aes.tag (Aes.schedule (List.replicate 16 0)) (List.replicate 12 0) [] [] = Aes.bigBytes 16 0x58E2FCCEFA7E3061367F1D57A4E7455A := by
  decide +kernel
/-- R433 names SHA-384: its value of "abc" (FIPS 180-4). -/
theorem test_sha384 : beNat (sha384 [0x61, 0x62, 0x63]) =
    0xCB00753F45A35E8BB5A03D699AC65007272C32AB0EDED1631A8B605A43FF5BED8086072BA1E7CC2358BAECA134C825A7 := by decide +kernel
/-- R433 names ML-DSA, which hashes with SHAKE: SHAKE128 of no bytes (FIPS 202). -/
theorem test_shake128 : beNat (shake128 [] 16) = 0x7F9C2BA4E88F827D616045507605853E := by decide +kernel
/-- A frame goes out and comes back under its key, and under no other (R333 to R336). -/
def frame0 : Frame := ⟨5, 1, 0, 1, 3, 6, 100, 77, 3, 7, [{ msg0 with data := [1, 2, 3] }], List.replicate 12 ⟨9, 4, true⟩, 8⟩
theorem test_frame_round_trip : openFrame (sealFrame frame0) 8 = some frame0 ∧ openFrame (sealFrame frame0) 9 = none ∧
    FrameCode.decode (burstOf frame0) 18 = (0, some (sealFrame frame0)) := by decide +kernel

/-! ### Witnesses of the statements about every step -/

theorem witness_IdleStepCountsTime : (∃ s : State, s.pending = [] ∧ s.eng.inReset = false ∧
      (∀ p c, ((s.part p).ctl c).fixups = []) ∧ (∀ n, (s.port n).held = [])) ∧
    (∃ s : State, s.pending = [] ∧ s.eng.inReset = true) :=
  ⟨⟨State.reset, rfl, rfl, by decide +kernel, by decide +kernel⟩, ⟨held State.reset, rfl, rfl⟩⟩
theorem witness_StepKeepsMemoriesCanonical : ∃ s t : State, s.memWf = true ∧ step s = .next t :=
  ⟨State.reset.withPending [.rateUpdate 1 40], (whileAwake (wr .pwr (PWR.RATE 1) 40)).after State.reset, by decide +kernel, rfl⟩

end Sys2Proof.Machine.Slice0Tests
end

section
/-! SUPPORT. Reads of byte memories as lists, the pieces and runs of an access, and where a scratchpad serves. -/
namespace Sys2Proof.Machine

/-! ### Reads of a byte memory as lists -/

theorem Memory.read_append (m : Memory) (a n k : Nat) : m.read a (n + k) = m.read a n ++ m.read (a + n) k := by
  induction n generalizing a with
  | zero => simp
  | succ n ih =>
    rw [Nat.succ_add]
    simp only [Memory.read, ih, List.cons_append, Nat.add_right_comm a 1 n, Nat.add_assoc]

theorem Memory.drop_read (m : Memory) (a n k : Nat) : (m.read a n).drop k = m.read (a + k) (n - k) := by
  induction k generalizing a n with
  | zero => rfl
  | succ k ih =>
    cases n with
    | zero => simp
    | succ n => rw [Memory.read, List.drop_succ_cons, ih, Nat.add_right_comm, Nat.add_assoc, Nat.succ_sub_succ]

theorem Memory.take_read (m : Memory) {a n k : Nat} (h : k ≤ n) : (m.read a n).take k = m.read a k := by
  obtain ⟨d, rfl⟩ := Nat.exists_eq_add_of_le h
  rw [Memory.read_append, List.take_left' (m.read_length a k)]

theorem Memory.getElem?_read (m : Memory) (a n i : Nat) :
    (m.read a n)[i]? = if i < n then some (m.get (a + i)) else none := by
  induction n generalizing a i with
  | zero => simp
  | succ n ih =>
    cases i with
    | zero => simp [Memory.read]
    | succ i => simp [Memory.read, ih, Nat.add_assoc, Nat.add_comm 1 i]

/-- Neighbouring blocks of 32 bytes read as one. -/
theorem Memory.flatten_read_blocks (m : Memory) (k n : Nat) :
    ((List.range n).map fun i => m.read (32 * (k + i)) 32).flatten = m.read (32 * k) (32 * n) := by
  induction n with
  | zero => rfl
  | succ n ih =>
    rw [List.range_succ, List.map_append, List.flatten_append, ih, Nat.mul_succ, Memory.read_append]
    simp [Nat.mul_add]

/-- A list of keys with the values of a function at them gives that function's value at every listed key. -/
theorem Assoc.look_of_forall {α : Type} {l : Assoc α} {f : Nat → α} {a : Nat} (h : ∀ e ∈ l, e.2 = f e.1)
    (ha : ∃ e ∈ l, e.1 = a) : l.look a = some (f a) := by
  induction l with
  | nil => simp at ha
  | cons e t ih =>
    obtain ⟨j, x⟩ := e
    have hx : x = f j := h _ (List.mem_cons_self ..)
    by_cases hj : j = a
    · subst hj; simp [Assoc.look, hx]
    · simp only [Assoc.look, if_neg hj]
      refine ih (fun e he => h e (List.mem_cons_of_mem _ he)) ?_
      obtain ⟨e, he, hea⟩ := ha
      rcases List.mem_cons.1 he with rfl | he
      · exact absurd hea hj
      · exact ⟨e, he, hea⟩

/-! ### Pieces and runs of an access -/

/-- A piece of a split access lies within the access. -/
theorem mem_splitAt {a : Nat} {p : Nat × Nat} {fuel i n : Nat} (h : p ∈ splitAt 128 a fuel i n) :
    0 < p.2 ∧ i ≤ p.1 ∧ p.1 + p.2 ≤ i + n := by
  induction fuel generalizing i n with
  | zero => simp [splitAt] at h
  | succ fuel ih =>
    rw [splitAt] at h
    split at h
    · simp at h
    · rcases List.mem_cons.1 h with rfl | h
      · dsimp only; omega
      · obtain ⟨h1, h2, h3⟩ := ih h
        omega

/-- The pieces of a split access cover it, where the fuel suffices. -/
theorem flatten_read_splitAt (m : Memory) (a : Nat) {fuel i n : Nat} (h : (a + i) % 128 + n ≤ 128 * fuel) :
    ((splitAt 128 a fuel i n).map fun p => m.read (a + p.1) p.2).flatten = m.read (a + i) n := by
  induction fuel generalizing i n with
  | zero => rw [show n = 0 by omega]; rfl
  | succ fuel ih =>
    rw [splitAt]
    split
    · rename_i hn; rw [hn]; rfl
    · rename_i hn
      dsimp only
      by_cases hm : n ≤ 128 - (a + i) % 128
      · have hnil : ∀ j, splitAt 128 a fuel j 0 = [] := fun j => by cases fuel <;> rfl
        simp [Nat.min_eq_left hm, hnil]
      · rw [Nat.min_eq_right (by omega), List.map_cons, List.flatten_cons, ih (by omega), ← Nat.add_assoc,
          ← Memory.read_append, Nat.add_sub_cancel' (by omega)]

/-- Every byte of a run is one of the addresses. -/
theorem mem_runsOf {as : List Nat} {p : Nat × Nat} (h : p ∈ runsOf as) :
    0 < p.2 ∧ ∀ x, p.1 ≤ x → x < p.1 + p.2 → x ∈ as := by
  induction as generalizing p with
  | nil => simp [runsOf] at h
  | cons a t ih =>
    have tail : ∀ q ∈ runsOf t, 0 < q.2 ∧ ∀ x, q.1 ≤ x → x < q.1 + q.2 → x ∈ a :: t :=
      fun q hq => ⟨(ih hq).1, fun x h1 h2 => List.mem_cons_of_mem _ ((ih hq).2 x h1 h2)⟩
    have single : ∀ x, a ≤ x → x < a + 1 → x ∈ a :: t := fun x h1 h2 => by simp [show x = a by omega]
    rw [runsOf] at h
    cases e : runsOf t with
    | nil =>
      rw [e] at h
      obtain rfl := List.mem_singleton.1 h
      exact ⟨Nat.one_pos, single⟩
    | cons q r =>
      obtain ⟨b, n⟩ := q
      rw [e] at h tail
      dsimp only at h
      split at h
      · exact tail p h
      · split at h
        · rename_i hb
          rcases List.mem_cons.1 h with rfl | h
          · refine ⟨Nat.succ_pos n, fun x h1 h2 => ?_⟩
            dsimp only at h1 h2
            by_cases hx : x = a
            · simp [hx]
            · exact (tail (b, n) (by simp)).2 x (by dsimp only; omega) (by dsimp only; omega)
          · exact tail p (List.mem_cons_of_mem _ h)
        · rcases List.mem_cons.1 h with rfl | h
          · exact ⟨Nat.one_pos, single⟩
          · exact tail p h

/-- Every address lies in a run. -/
theorem exists_mem_runsOf {as : List Nat} {a : Nat} (h : a ∈ as) : ∃ p ∈ runsOf as, p.1 ≤ a ∧ a < p.1 + p.2 := by
  induction as with
  | nil => simp at h
  | cons b t ih =>
    rw [runsOf]
    cases e : runsOf t with
    | nil =>
      rcases List.mem_cons.1 h with rfl | h
      · exact ⟨(a, 1), by simp, by simp⟩
      · obtain ⟨p, hp, -⟩ := ih h
        simp [e] at hp
    | cons q r =>
      obtain ⟨c, n⟩ := q
      have hn : 0 < n := (mem_runsOf (p := (c, n)) (by rw [e]; simp)).1
      rw [e] at ih
      dsimp only
      split
      · rename_i hc
        rcases List.mem_cons.1 h with rfl | h
        · exact ⟨(c, n), by simp, by dsimp only; omega⟩
        · exact ih h
      · split
        · rename_i hc
          rcases List.mem_cons.1 h with rfl | h
          · exact ⟨(a, n + 1), by simp, by dsimp only; omega⟩
          · obtain ⟨p, hp, h1, h2⟩ := ih h
            rcases List.mem_cons.1 hp with rfl | hp
            · exact ⟨(b, n + 1), by simp, by dsimp only at *; omega⟩
            · exact ⟨p, List.mem_cons_of_mem _ hp, h1, h2⟩
        · rcases List.mem_cons.1 h with rfl | h
          · exact ⟨(a, 1), by simp, by simp⟩
          · obtain ⟨p, hp, hh⟩ := ih h
            exact ⟨p, List.mem_cons_of_mem _ hp, hh⟩

/-! ### Where the scratchpad serves -/

/-- Region registers allow an access exactly where they allow each of its bytes. -/
theorem regionOk_iff_bytes {b : Bank} {m : Nat} {p : Perm} {a n : Nat} (hn : 0 < n) :
    regionOk b m p a n = true ↔ ∀ x, a ≤ x → x < a + n → regionOk b m p x 1 = true := by
  simp only [regionOk, List.all_eq_true, List.mem_range]
  constructor
  · intro h x h1 h2 i hi
    have := h (x / 64 - a / 64) (by omega)
    rwa [show a / 64 + (x / 64 - a / 64) = x / 64 + i by omega] at this
  · intro h i hi
    have := h (max a (64 * (a / 64 + i))) (by omega) (by omega) 0 (by omega)
    rwa [show max a (64 * (a / 64 + i)) / 64 + 0 = a / 64 + i by omega] at this

variable {s t : State} {g : TileId} {cls : Nat} {perm : Perm}

/-- The scratchpad serves an access exactly where it serves each of its bytes. -/
theorem spdServes_iff_bytes {a n : Nat} (hn : 0 < n) :
    spdServes s g cls perm a n ↔ ∀ x, a ≤ x → x < a + n → spdServes s g cls perm x 1 := by
  constructor
  · rintro ⟨-, hle, hreg, hbyte⟩ x h1 h2
    exact ⟨Nat.one_pos, by omega, (regionOk_iff_bytes hn).1 hreg x h1 h2, fun y h3 h4 => hbyte y (by omega) (by omega)⟩
  · intro h
    refine ⟨hn, ?_, (regionOk_iff_bytes hn).2 fun x h1 h2 => ?_, fun x h1 h2 => ?_⟩
    · obtain ⟨-, hle, -⟩ := h (a + n - 1) (by omega) (by omega)
      omega
    · obtain ⟨-, -, hreg, -⟩ := h x h1 h2
      exact hreg
    · obtain ⟨-, -, -, hbyte⟩ := h x h1 h2
      exact hbyte x (Nat.le_refl x) (Nat.lt_succ_self x)

/-- An access within a served one is served. -/
theorem spdServes_within {a n b k : Nat} (h : spdServes s g cls perm a n) (hk : 0 < k) (h1 : a ≤ b)
    (h2 : b + k ≤ a + n) : spdServes s g cls perm b k :=
  (spdServes_iff_bytes hk).2 fun x h3 h4 => (spdServes_iff_bytes h.1).1 h x (by omega) (by omega)

end Sys2Proof.Machine
end

section
/-! SUPPORT. Reads that a scratchpad serves change nothing but the port served last and the tile's progress mark: the rule
of such reads, and the bank's own reads (R251, R254, R264, R267). -/
namespace Sys2Proof.Machine

/-! ### What reads of a scratchpad leave: the bank port served last, and the progress mark -/

/-- The state once reads have been served at tile `g`'s scratchpad. -/
def State.served (s : State) (g : TileId) (ports : Assoc Nat) (n : Nat) : State :=
  s.setTile g { s.tile g with spd := { (s.tile g).spd with lastPort := ports }, progress := n }

theorem State.setTile_setTile (s : State) (g : TileId) (x y : Tile) : (s.setTile g x).setTile g y = s.setTile g y := by
  simp [State.setTile]

theorem State.setTile_tile (s : State) (g : TileId) : s.setTile g (s.tile g) = s := by
  unfold State.setTile State.tile
  rw [vec_get, Vector.set_getElem_self]

theorem State.served_self (s : State) (g : TileId) : s.served g (s.tile g).spd.lastPort (s.tile g).progress = s :=
  s.setTile_tile g

variable {s : State} {g : TileId} {ports : Assoc Nat} {n : Nat}

@[simp] theorem State.setTile_served (x : Tile) : (s.served g ports n).setTile g x = s.setTile g x :=
  State.setTile_setTile ..

@[simp] theorem State.tile_served : (s.served g ports n).tile g =
    { s.tile g with spd := { (s.tile g).spd with lastPort := ports }, progress := n } := State.tile_setTile_self ..

@[simp] theorem State.reg_served (i : PageId) (f : Fld) : (s.served g ports n).reg i f = s.reg i f :=
  State.reg_setTile _ _ _ _ _ rfl

@[simp] theorem State.bank_tile_served (k : TPage) : (s.served g ports n).bank (.tile g k) = s.bank (.tile g k) := by
  simp [State.bank]

/-- However reads at tile `g` have left `s`, `m` answers `a` and leaves it so: it is itself nothing but such reads. -/
def ReadsAs {α : Type} (s : State) (g : TileId) (m : M α) (a : α) : Prop :=
  ∀ ports n, ∃ ports' n', m (s.served g ports n) = .ok a (s.served g ports' n')

namespace ReadsAs
variable {α β : Type}

theorem pure (a : α) : ReadsAs s g (pure a) a := fun ports n => ⟨ports, n, rfl⟩

theorem bind {m : M α} {f : α → M β} {a : α} {b : β} (h : ReadsAs s g m a) (k : ReadsAs s g (f a) b) :
    ReadsAs s g (m >>= f) b := by
  intro ports n
  obtain ⟨ports', n', hm⟩ := h ports n
  obtain ⟨ports'', n'', hf⟩ := k ports' n'
  exact ⟨ports'', n'', by rw [M.bind_ok hm, hf]⟩

theorem mapAll {m : α → M β} {f : α → β} {l : List α} (h : ∀ x ∈ l, ReadsAs s g (m x) (f x)) :
    ReadsAs s g (mapAll l m) (l.map f) := by
  induction l with
  | nil => exact .pure []
  | cons x t ih => exact (h x (by simp)).bind ((ih fun y hy => h y (by simp [hy])).bind (.pure _))

theorem catchErr {m : M α} {a : α} (h : ReadsAs s g m a) : ReadsAs s g (catchErr m) (.ok a) := by
  intro ports n
  obtain ⟨ports', n', hm⟩ := h ports n
  exact ⟨ports', n', catchErr_ok hm⟩

theorem eachPiece {m : α → M β} {f : α → β} {l : List α} (h : ∀ x ∈ l, ReadsAs s g (m x) (f x)) :
    ReadsAs s g (eachPiece l m) (l.map f) := by
  refine (mapAll fun x hx => (h x hx).catchErr).bind ?_
  have hnone : l.findSome? (fun _ => (none : Option Nat)) = none := List.findSome?_eq_none_iff.2 fun _ _ => rfl
  simp only [List.findSome?_map, List.filterMap_map, Function.comp_def, hnone, List.filterMap_eq_map']
  exact .pure _

/-- Such reads run from the state itself. -/
theorem ok {m : M α} {a : α} (h : ReadsAs s g m a) : ∃ ports n, m s = .ok a (s.served g ports n) := by
  have := h (s.tile g).spd.lastPort (s.tile g).progress
  rwa [State.served_self] at this

end ReadsAs

/-! ### Served reads, from the bank up -/

theorem State.served_progress (m : Nat) :
    (s.served g ports n).setTile g { (s.served g ports n).tile g with progress := m } = s.served g ports m := by
  rw [State.setTile_served, State.tile_served, State.served]

theorem readsAs_madeProgress : ReadsAs s g (madeProgress g) () := fun ports _ =>
  ⟨ports, _, congrArg (EStateM.Result.ok ()) (State.served_progress _)⟩

theorem readsAs_bankReady {cls a : Nat} (h : bankStat s g (a / 2 ^ 18) = 0) : ReadsAs s g (bankReady g cls a) () := by
  intro ports n
  have : bankStat (s.served g ports n) g (a / 2 ^ 18) = 0 := by rw [← h]; exact State.reg_served ..
  exact ⟨ports, n, by simp only [bankReady, M.get_bind, this]; rfl⟩

theorem readsAs_spdReadCodeword {cls a k : Nat} (h : classify ((s.tile g).spd.codeword k) = .clean) :
    ReadsAs s g (spdReadCodeword g cls a k) ((s.tile g).spd.data.read (32 * k) 32) := by
  intro ports n
  have hw : ((s.served g ports n).tile g).spd.codeword k = (s.tile g).spd.codeword k := by simp [Spd.codeword]
  have htake : ((s.tile g).spd.codeword k).take 32 = (s.tile g).spd.data.read (32 * k) 32 :=
    List.take_left' (Memory.read_length ..)
  exact ⟨ports, n, by simp only [spdReadCodeword, getTile_bind, hw, h, M.pure_apply, htake]⟩

variable {cls a len : Nat}

theorem readsAs_spdReadWord (h : spdServes s g cls .r a len) :
    ReadsAs s g (spdReadWord g cls a len) ((s.tile g).spd.data.read a len) := by
  obtain ⟨hlen, -, -, hbyte⟩ := h
  have hbytes : (((List.range ((a + len - 1) / 32 - a / 32 + 1)).map fun i =>
      (s.tile g).spd.data.read (32 * (a / 32 + i)) 32).flatten.drop (a % 32)).take len =
      (s.tile g).spd.data.read a len := by
    rw [Memory.flatten_read_blocks, Memory.drop_read, Nat.div_add_mod, Memory.take_read _ (by omega)]
  have hready : bankStat s g (a / 2 ^ 18) = 0 := (hbyte a (Nat.le_refl a) (by omega)).1
  refine (readsAs_bankReady hready).bind ((ReadsAs.mapAll fun i hi => readsAs_spdReadCodeword ?_).bind ?_)
  · have hi' := List.mem_range.1 hi
    have := (hbyte (max a (32 * (a / 32 + i))) (by omega) (by omega)).2
    rwa [show max a (32 * (a / 32 + i)) / 32 = a / 32 + i by omega] at this
  · rw [hbytes]
    exact .pure _

theorem readsAs_modPorts (f : Assoc Nat → Assoc Nat) :
    ReadsAs s g (modSpd g fun x => { x with lastPort := f x.lastPort }) () := fun ports n =>
  ⟨f ports, n, by rw [modSpd, modTile_apply, State.setTile_served, State.tile_served, State.served]⟩

/-- A request that is alone at its bank is granted at once. -/
theorem readsAs_arbRounds_alone {b port : Nat} {j : BankJob} {bs : List Byte} (h : ReadsAs s g (bankDo g j) bs) :
    ReadsAs s g (arbRounds g b port 1 [(⟨port, 0⟩, j)]) bs := by
  intro ports n
  obtain ⟨ports1, n1, hport⟩ := readsAs_modPorts (s := s) (g := g) (fun l => l.put b (some port)) ports n
  obtain ⟨ports2, n2, hdo⟩ := h.catchErr ports1 n1
  have hcomp : companionOk (⟨port, 0⟩, j) (⟨port, 0⟩, j) = false := by simp [companionOk]
  have hnone : ∀ last, bestOf last ([] : List (Ask × BankJob)) = none := fun _ => rfl
  refine ⟨ports2, n2, ?_⟩
  simp only [arbRounds, presented, List.filter_nil, bestOf, List.filter_cons, hcomp, hnone, Bool.false_eq_true, if_false,
    Option.isSome_none, Option.toList_none, Option.map_none, forAll_cons, forAll_nil, getTile_apply, rd_apply,
    Nat.not_lt_zero, M.bind_apply, M.pure_apply, List.mem_singleton, not_true, decide_false, hport, hdo,
    if_true, answerOf]

/-- A bank that serves a read answers the bytes stored there. -/
theorem readsAs_bankRead (h : spdServes s g cls .r a len) :
    ReadsAs s g (bankRead g cls a len) ((s.tile g).spd.data.read a len) := by
  obtain ⟨hlen, -, -, hbyte⟩ := id h
  refine (readsAs_bankReady (hbyte a (Nat.le_refl a) (Nat.lt_add_of_pos_right hlen)).1).bind fun ports n => ?_
  exact readsAs_arbRounds_alone (readsAs_spdReadWord h) ports n

end Sys2Proof.Machine
end

section
/-! SUPPORT. Reads by a tile's own units that its scratchpad serves: of a piece, of any length, of scattered bytes, and of
activation codes (R41, R197, R252, R261). -/
namespace Sys2Proof.Machine

variable {s : State} {g : TileId} {cls a len : Nat}

/-! ### Served reads of a tile's own unit -/

/-- An address below the end of the scratchpad names the scratchpad (R41). -/
theorem targetOf_spd {v : Variant} (h : a < 0x400000) : targetOf v g a = some (.here .spd a) := by
  simp [targetOf, localTarget, h, show a < 0x100000000 by omega]

theorem readsAs_checkRegion {r : Req} (hr : r.tile = g) (h : regionOk (s.bank (.tile g .spd)) r.regs .r a len = true)
    (t : Target) : ReadsAs s g (r.checkRegion t .r a len) () := by
  subst hr
  exact fun ports n => ⟨ports, n, by simp [Req.checkRegion, h]⟩

theorem readsAs_acked {r : Req} (hr : r.tile = g) : ReadsAs s g r.acked () := by
  subst hr
  unfold Req.acked
  split
  · exact readsAs_madeProgress
  · exact .pure ()

theorem readsAs_readPiece {u : Nat} (h : spdServes s g cls .r a len) :
    ReadsAs s g ((ownReq g cls u).readPiece .r a len) ((s.tile g).spd.data.read a len) := by
  obtain ⟨hlen, hle, hreg, -⟩ := id h
  have hat : ReadsAs s g ((ownReq g cls u).readAt .r a len) ((s.tile g).spd.data.read a len) := by
    have hserve : ReadsAs s g (do (ownReq g cls u).checkRegion (.here .spd a) .r a len; bankRead g cls a len)
        ((s.tile g).spd.data.read a len) :=
      (readsAs_checkRegion (r := ownReq g cls u) rfl hreg _).bind (readsAs_bankRead h)
    intro ports n
    obtain ⟨ports', n', hread⟩ := hserve ports n
    have htarget : targetOf (s.served g ports n).variant (ownReq g cls u).tile a = some (.here .spd a) :=
      targetOf_spd (by omega)
    exact ⟨ports', n', by simp only [Req.readAt, M.get_bind, htarget]; exact hread⟩
  exact hat.bind ((readsAs_acked rfl).bind (.pure _))

/-- A read over several words is served word by word (R252). -/
theorem readsAs_read {u : Nat} (h : spdServes s g cls .r a len) :
    ReadsAs s g ((ownReq g cls u).read a len) ((s.tile g).spd.data.read a len) := by
  have hfuel : (a + 0) % 128 + len ≤ 128 * (len / 128 + 2) := by rw [Nat.add_zero]; omega
  have hcover := flatten_read_splitAt (s.tile g).spd.data a hfuel
  rw [Nat.add_zero a] at hcover
  rw [← hcover]
  refine (ReadsAs.eachPiece fun p hp => readsAs_readPiece ?_).bind (.pure _)
  obtain ⟨h1, -, h2⟩ := mem_splitAt hp
  exact spdServes_within h h1 (by omega) (by omega)

/-- The bytes of the runs of `as`, each with its address. -/
def runBytes (m : Memory) (as : List Nat) : Assoc Byte :=
  ((runsOf as).map fun p => (m.read p.1 p.2).zipIdx.map fun e => (p.1 + e.2, e.1)).flatten

theorem mem_runBytes {m : Memory} {as : List Nat} {e : Nat × Byte} :
    e ∈ runBytes m as ↔ ∃ p ∈ runsOf as, ∃ i, i < p.2 ∧ e = (p.1 + i, m.get (p.1 + i)) := by
  have hrun : ∀ p : Nat × Nat, (e ∈ (m.read p.1 p.2).zipIdx.map fun e => (p.1 + e.2, e.1)) ↔
      ∃ i, i < p.2 ∧ e = (p.1 + i, m.get (p.1 + i)) := by
    intro p
    simp only [List.mem_map, Prod.exists, List.mem_zipIdx_iff_getElem?, Memory.getElem?_read, Option.ite_none_right_eq_some,
      Option.some.injEq]
    constructor
    · rintro ⟨x, i, ⟨hi, rfl⟩, rfl⟩
      exact ⟨i, hi, rfl⟩
    · rintro ⟨i, hi, rfl⟩
      exact ⟨_, i, ⟨hi, rfl⟩, rfl⟩
  simp only [runBytes, ← List.flatMap_def, List.mem_flatMap, hrun]

theorem look_runBytes {m : Memory} {as : List Nat} (h : a ∈ as) : (runBytes m as).look a = some (m.get a) := by
  refine Assoc.look_of_forall (fun e he => ?_) ?_
  · obtain ⟨p, -, i, -, rfl⟩ := mem_runBytes.1 he
    rfl
  · obtain ⟨p, hp, h1, h2⟩ := exists_mem_runsOf h
    refine ⟨_, mem_runBytes.2 ⟨p, hp, a - p.1, by omega, rfl⟩, ?_⟩
    exact Nat.add_sub_cancel' h1

theorem readsAs_gather {u : Nat} {as : List Nat} (h : ∀ x ∈ as, spdServes s g cls .r x 1) :
    ReadsAs s g ((ownReq g cls u).gather as) (runBytes (s.tile g).spd.data as) := by
  refine (ReadsAs.mapAll fun p hp => ?_).bind (.pure _)
  obtain ⟨hpos, hmem⟩ := mem_runsOf hp
  have hrun : spdServes s g cls .r p.1 p.2 := (spdServes_iff_bytes hpos).2 fun x h1 h2 => h x (hmem x h1 h2)
  exact (readsAs_readPiece hrun).bind (.pure _)

/-- The addresses of the codes at places of a walk. -/
def codeAddrs (as : List (Option CodeAt)) : List Nat := as.filterMap fun o => o.map CodeAt.addr

theorem mem_codeAddrs {as : List (Option CodeAt)} : a ∈ codeAddrs as ↔ ∃ x, some x ∈ as ∧ x.addr = a := by
  rw [codeAddrs, List.mem_filterMap]
  constructor
  · rintro ⟨o, ho, hoa⟩
    obtain ⟨x, rfl, rfl⟩ := Option.map_eq_some_iff.1 hoa
    exact ⟨x, ho, rfl⟩
  · rintro ⟨x, hx, rfl⟩
    exact ⟨some x, hx, rfl⟩

/-- The builder reads the codes that lie at its places (R197, R198). -/
theorem readsAs_readCodes {u af : Nat} {as : List (Option CodeAt)} (h : codesServed s g as) :
    ReadsAs s g (readCodes (ownReq g 1 u) af as) (as.map (codeHere s g af)) := by
  have hserved : ∀ x ∈ codeAddrs as, spdServes s g 1 .r x 1 := by
    intro b hb
    obtain ⟨x, hx, rfl⟩ := mem_codeAddrs.1 hb
    exact h x hx
  refine (readsAs_gather hserved).bind ?_
  have hcodes : as.map (codeHere s g af) = as.map fun o => match o with
      | none => 0
      | some x => codeVal af x.high (((runBytes (s.tile g).spd.data (codeAddrs as)).look x.addr).getD 0) := by
    refine List.map_congr_left fun o ho => ?_
    cases o with
    | none => rfl
    | some x => simp only [codeHere, look_runBytes (mem_codeAddrs.2 ⟨x, ho, rfl⟩), Option.getD_some]
  rw [hcodes]
  exact .pure _

end Sys2Proof.Machine
end

section
/-! SUPPORT. What a step of a tile's array leaves alone, and what follows a step (R106, R113). -/
namespace Sys2Proof.Machine

/-! ### The frame of a step of a tile's array -/

/-- `t` differs from `s` only within tile `g`, in none of its memories, not in the head of its array unit, and in no field
of a page but the listed ones; its scratchpad's page stays whole. -/
structure ArrayFrame (g : TileId) (l : List (PageId × Fld)) (s t : State) : Prop where
  regs : regsKept s t l
  memories : t.memories = s.memories
  tileMemories : (t.tile g).memories = (s.tile g).memories
  spdPage : t.bank (.tile g .spd) = s.bank (.tile g .spd)
  head : (t.tile g).head .array = (s.tile g).head .array
  tiles : ∀ k, k ≠ g → t.tile k = s.tile k
  parts : t.parts = s.parts

variable {s t : State} {g : TileId} {l : List (PageId × Fld)}

theorem ArrayFrame.trans {u : State} (h : ArrayFrame g l s t) (k : ArrayFrame g l t u) : ArrayFrame g l s u where
  regs := regsKept_trans h.regs k.regs
  memories := k.memories.trans h.memories
  tileMemories := k.tileMemories.trans h.tileMemories
  spdPage := k.spdPage.trans h.spdPage
  head := k.head.trans h.head
  tiles i hi := (k.tiles i hi).trans (h.tiles i hi)
  parts := k.parts.trans h.parts

theorem ArrayFrame.refl (g : TileId) (l : List (PageId × Fld)) (s : State) : ArrayFrame g l s s :=
  ⟨regsKept_refl s l, rfl, rfl, rfl, rfl, fun _ _ => rfl, rfl⟩

theorem ArrayFrame.mono {m : List (PageId × Fld)} (h : ArrayFrame g l s t) (hl : ∀ e ∈ l, e ∈ m) :
    ArrayFrame g m s t :=
  { h with regs := regsKept_mono h.regs hl }

theorem ArrayFrame.setTile {x : Tile} (hpg : x.pg = (s.tile g).pg) (hmem : x.memories = (s.tile g).memories)
    (hhead : x.head .array = (s.tile g).head .array) : ArrayFrame g l s (s.setTile g x) where
  regs := regsKept_setTile g x (regsKept_refl s l) hpg
  memories := State.memories_setTile s g x hmem
  tileMemories := by rw [State.tile_setTile_self, hmem]
  spdPage := by simp [State.bank, hpg]
  head := by rw [State.tile_setTile_self, hhead]
  tiles k hk := State.tile_setTile_ne s x hk
  parts := rfl

theorem ArrayFrame.served (ports : Assoc Nat) (n : Nat) : ArrayFrame g l s (s.served g ports n) := .setTile rfl rfl rfl

theorem ArrayFrame.setRetry (v : Nat) (hl : (.tile g .lut, LUT.RETRY) ∈ l) :
    ArrayFrame g l s (s.setReg (.tile g .lut) LUT.RETRY v) where
  regs := regsKept_setReg _ _ v (regsKept_refl s l) hl
  memories := State.memories_setReg ..
  tileMemories := by simp [Tile.memories]
  spdPage := by simp [State.setReg, State.bank_setBank]
  head := by simp [Tile.head]
  tiles k hk := State.tile_setTile_ne s _ hk
  parts := rfl

theorem ArrayFrame.dropUsed (s : State) : ArrayFrame g l s (dropUsed s) :=
  ⟨fun i f _ => dropUsed_reg s i f, rfl, rfl, rfl, rfl, fun _ _ => rfl, rfl⟩

theorem ArrayFrame.spd_data (h : ArrayFrame g l s t) : (t.tile g).spd.data = (s.tile g).spd.data := by
  have := h.tileMemories
  simp only [Tile.memories, List.cons.injEq] at this
  exact this.1

theorem ArrayFrame.spd_chk (h : ArrayFrame g l s t) : (t.tile g).spd.chk = (s.tile g).spd.chk := by
  have := h.tileMemories
  simp only [Tile.memories, List.cons.injEq] at this
  exact this.2.1

/-- What a scratchpad serves does not depend on the array. -/
theorem ArrayFrame.spdServes {cls a n : Nat} {perm : Perm} (h : ArrayFrame g l s t) (hs : spdServes s g cls perm a n) :
    spdServes t g cls perm a n := by
  obtain ⟨hn, hle, hreg, hbyte⟩ := hs
  refine ⟨hn, hle, by rw [h.spdPage]; exact hreg, fun x h1 h2 => ?_⟩
  obtain ⟨hbank, hclean⟩ := hbyte x h1 h2
  refine ⟨?_, ?_⟩
  · rw [← hbank]
    unfold bankStat State.reg
    rw [h.spdPage]
  · rw [← hclean]
    unfold Spd.codeword
    rw [h.spd_data, h.spd_chk]

theorem ArrayFrame.codeHere (h : ArrayFrame g l s t) (af : Nat) (x : Option CodeAt) :
    codeHere t g af x = codeHere s g af x := by
  cases x with
  | none => rfl
  | some x => simp only [Machine.codeHere, h.spd_data]

/-- The frame as a relation that operations keep. -/
def Rel.arrayFrame (g : TileId) (l : List (PageId × Fld)) : Rel where
  rel := ArrayFrame g l
  refl := .refl g l
  trans _ _ _ h k := h.trans k

/-! ### The operations on the array keep the frame -/

/-- The array of tile `g` is changed. -/
def State.mapArr (s : State) (g : TileId) (f : ArrayMem → ArrayMem) : State :=
  s.setTile g { s.tile g with arr := f (s.tile g).arr }

/-- What the array unit of tile `g` is doing is changed. -/
def State.mapRun (s : State) (g : TileId) (f : ArrayRun → ArrayRun) : State :=
  s.setTile g { s.tile g with units := { (s.tile g).units with arrayRun := (s.tile g).units.arrayRun.map f } }

@[simp] theorem modArr_apply (f : ArrayMem → ArrayMem) : modArr g f s = .ok () (s.mapArr g f) := rfl
@[simp] theorem modRun_apply (f : ArrayRun → ArrayRun) : modRun g f s = .ok () (s.mapRun g f) := rfl

@[simp] theorem State.arr_mapArr (f : ArrayMem → ArrayMem) : ((s.mapArr g f).tile g).arr = f (s.tile g).arr := by
  simp [State.mapArr]
@[simp] theorem State.units_mapArr (f : ArrayMem → ArrayMem) : ((s.mapArr g f).tile g).units = (s.tile g).units := by
  simp [State.mapArr]
@[simp] theorem State.arr_mapRun (f : ArrayRun → ArrayRun) : ((s.mapRun g f).tile g).arr = (s.tile g).arr := by
  simp [State.mapRun]
@[simp] theorem State.arrayRun_mapRun (f : ArrayRun → ArrayRun) :
    ((s.mapRun g f).tile g).units.arrayRun = (s.tile g).units.arrayRun.map f := by simp [State.mapRun]

@[simp] theorem madeProgress_apply : madeProgress g s =
    .ok () (s.setTile g { s.tile g with progress := s.reg (.pctl (partOf g)) PCTL.OC_NOW }) := rfl

theorem ArrayFrame.mapArr {f : ArrayMem → ArrayMem} (h : ∀ m, (f m).table = m.table ∧ (f m).residues = m.residues) :
    ArrayFrame g l s (s.mapArr g f) := .setTile rfl (by simp [Tile.memories, h]) rfl

theorem ArrayFrame.mapRun (f : ArrayRun → ArrayRun) : ArrayFrame g l s (s.mapRun g f) := .setTile rfl rfl rfl

theorem frame_modArr {f : ArrayMem → ArrayMem} (h : ∀ m, (f m).table = m.table ∧ (f m).residues = m.residues) :
    (Rel.arrayFrame g l).Keeps (modArr g f) := ⟨fun _ => .mapArr h⟩

theorem frame_modRun (f : ArrayRun → ArrayRun) : (Rel.arrayFrame g l).Keeps (modRun g f) := ⟨fun _ => .mapRun f⟩

theorem frame_madeProgress : (Rel.arrayFrame g l).Keeps (madeProgress g) :=
  Rel.keeps_bind (Rel.keeps_rd _ _) fun _ => Rel.keeps_modTile fun _ => ArrayFrame.setTile rfl rfl rfl

theorem frame_clearLanes (p : Pos) : (Rel.arrayFrame g l).Keeps (clearLanes g p) :=
  Rel.keeps_ite (fun _ => Rel.keeps_bind (frame_modArr fun _ => ⟨rfl, rfl⟩) fun _ => frame_modRun _)
    fun _ => Rel.keeps_pure ()

theorem frame_addLanes (r k : Nat) (ups : List Upset) (sums : List (Int × Int)) :
    (Rel.arrayFrame g l).Keeps (addLanes g r k ups sums) := frame_modArr fun _ => ⟨rfl, rfl⟩

theorem frame_compareRow (p : Pos) : (Rel.arrayFrame g l).Keeps (compareRow g p) :=
  Rel.keeps_bind (Rel.keeps_getTile g) fun _ =>
    Rel.keeps_bind (frame_modArr fun _ => ⟨rfl, rfl⟩) fun _ => Rel.keeps_pure _

section
variable (hl : (.tile g .lut, LUT.RETRY) ∈ l)
include hl

theorem frame_retry (v : Nat) : (Rel.arrayFrame g l).Keeps (wr (.tile g .lut) LUT.RETRY v) :=
  Rel.keeps_wr fun _ => ArrayFrame.setRetry v hl

theorem frame_handOver (c : CmdWord) (p : Pos) (n : Nat) : (Rel.arrayFrame g l).Keeps (handOver g c p n) :=
  Rel.keeps_bind (Rel.keeps_getTile g) fun _ => Rel.keeps_bind (frame_modRun _) fun _ => frame_retry hl 0

theorem frame_passEnd (c : CmdWord) (p : Pos) (n : Nat) : (Rel.arrayFrame g l).Keeps (passEnd g c p n) := by
  refine Rel.keeps_bind (frame_compareRow p) fun m => ?_
  cases m with
  | nil => exact frame_handOver hl c p n
  | cons => exact Rel.keeps_bind (frame_modRun _) fun _ => frame_retry hl 1
end

/-- A step that is not the last of its pass changes no field; the last may change RETRY. -/
theorem frame_stepDone {c : CmdWord} {r : ArrayRun}
    (hl : stepsIn c r.pos.sc ≤ r.pos.q + 1 → (.tile g .lut, LUT.RETRY) ∈ l) :
    (Rel.arrayFrame g l).Keeps (stepDone g c r) :=
  Rel.keeps_bind frame_madeProgress fun _ =>
    Rel.keeps_ite (fun _ => frame_modRun _) fun h => frame_passEnd (hl (Nat.not_lt.1 h)) c r.pos _

/-! ### What follows a step -/

theorem compareRow_ok (p : Pos) :
    ∃ m, compareRow g p s = .ok m (s.mapArr g fun a => { a with inject := none }) := ⟨_, rfl⟩

/-- The end of a pass keeps the lanes, and the unit stays where it was, for a retry, or has a row to promote. -/
theorem passEnd_ok {c : CmdWord} {p : Pos} {n : Nat} {x : ArrayRun} (hop : opOf c ≠ Op.bin)
    (hx : (s.tile g).units.arrayRun = some x) :
    ∃ t x', passEnd g c p n s = .ok () t ∧ (t.tile g).units.arrayRun = some x' ∧
      (t.tile g).arr.lanes = (s.tile g).arr.lanes ∧ (x'.pos = x.pos ∨ x'.promo ≠ []) := by
  obtain ⟨m, hm⟩ := compareRow_ok (s := s) (g := g) p
  unfold passEnd
  rw [M.bind_ok hm]
  cases m with
  | nil =>
    simp only [handOver, M.bind_apply, getTile_apply, modRun_apply, wr_apply]
    have hrun : ∀ f : ArrayRun → ArrayRun, (((s.mapArr g fun a => { a with inject := none }).mapRun g f).setReg
        (.tile g .lut) LUT.RETRY 0 |>.tile g).units.arrayRun = some (f x) := fun f => by
      rw [State.tile_units_setReg, State.arrayRun_mapRun, State.units_mapArr, hx, Option.map_some]
    exact ⟨_, _, rfl, hrun _, by simp, .inr (by simp [hop])⟩
  | cons lane m =>
    simp only [M.bind_apply, modRun_apply, wr_apply]
    exact ⟨_, { x with retry := some ⟨lane :: m, 0⟩ }, rfl, by simp [hx], by simp, .inl rfl⟩

/-- What follows a step keeps the lanes; the unit goes on to the pass's next step, or its pass ends. -/
theorem stepDone_ok {c : CmdWord} {r x : ArrayRun} (hop : opOf c ≠ Op.bin) (hx : (s.tile g).units.arrayRun = some x)
    (hpos : x.pos = r.pos) :
    ∃ t x', stepDone g c r s = .ok () t ∧ (t.tile g).units.arrayRun = some x' ∧
      (t.tile g).arr.lanes = (s.tile g).arr.lanes ∧ (x'.pos.rb = r.pos.rb ∨ x'.promo ≠ []) ∧
      (r.pos.q + 1 < stepsIn c r.pos.sc → x'.pos = { r.pos with q := r.pos.q + 1 }) := by
  unfold stepDone
  rw [M.bind_ok madeProgress_apply, M.ite_apply]
  split
  · exact ⟨_, { x with pos := { r.pos with q := r.pos.q + 1 } }, rfl, by simp [hx], by simp, .inl rfl, fun _ => rfl⟩
  · rename_i hq
    obtain ⟨t, x', ht, hx', hlanes, hplace⟩ := passEnd_ok (g := g) (p := r.pos) (n := rowCount c r) hop (x := x)
      (s := s.setTile g { s.tile g with progress := s.reg (.pctl (partOf g)) PCTL.OC_NOW }) (by simp [hx])
    refine ⟨t, x', ht, hx', by simpa using hlanes, hplace.imp_left fun h => ?_, fun h => absurd h hq⟩
    rw [h, hpos]

end Sys2Proof.Machine
end

section
/-! SUPPORT. A direct step: its operands, its sums, and the whole of it (R103, R112, R117). -/
namespace Sys2Proof.Machine

variable {s s' : State} {g : TileId}

/-! ### The place of the array unit -/

/-- The head of the array unit of tile `g`, and the position at which it stands. -/
def arrayPlace (g : TileId) (s : State) : Option Active × Option Pos :=
  ((s.tile g).head .array, (s.tile g).units.arrayRun.map ArrayRun.pos)

theorem Rel.Keeps.of_imp {α : Type} {r r' : Rel} {m : M α} (h : r.Keeps m) (hr : ∀ s t, r.rel s t → r'.rel s t) :
    r'.Keeps m := ⟨fun s => hr _ _ (h.run s)⟩

/-- An operation that keeps what the tile holds beside pages, scratchpad, buffers and books keeps the unit's place. -/
theorem place_of_core {α : Type} {m : M α} (h : (Rel.same fun s => (s.tile g).core).Keeps m) :
    (Rel.same (arrayPlace g)).Keeps m := by
  refine h.of_imp fun s t hst => ?_
  have hunits : (t.tile g).units = (s.tile g).units := congrArg (fun x => x.2.2.2.1) hst
  simp only [Rel.same, arrayPlace, Tile.head, hunits]

theorem place_modArr (f : ArrayMem → ArrayMem) : (Rel.same (arrayPlace g)).Keeps (modArr g f) :=
  ⟨fun s => by rw [M.after_of_ok (modArr_apply f)]; simp [Rel.same, arrayPlace, Tile.head]⟩

theorem place_modRun {f : ArrayRun → ArrayRun} (h : ∀ r, (f r).pos = r.pos) :
    (Rel.same (arrayPlace g)).Keeps (modRun g f) := by
  refine ⟨fun s => ?_⟩
  have hpos : ArrayRun.pos ∘ f = ArrayRun.pos := funext h
  rw [M.after_of_ok (modRun_apply f)]
  have hhead : ((s.mapRun g f).tile g).head .array = (s.tile g).head .array := by
    rw [State.mapRun, State.tile_setTile_self]; rfl
  simp [Rel.same, arrayPlace, hpos, hhead]

theorem place_clearLanes (p : Pos) : (Rel.same (arrayPlace g)).Keeps (clearLanes g p) :=
  Rel.keeps_ite (fun _ => Rel.keeps_bind (place_modArr _) fun _ => place_modRun fun _ => rfl) fun _ => Rel.keeps_pure ()

theorem place_parityCheck (c : CmdWord) (p : Pos) (k : Nat) (ups : List Upset) :
    (Rel.same (arrayPlace g)).Keeps (parityCheck g c p k ups) := by
  have hload : (Rel.same (arrayPlace g)).Keeps (loadWindow g c p.rb p.sc) :=
    Rel.keeps_bind (place_of_core (keeps_Req_read (accessRel_tileCore g) _ _ _)) fun _ =>
      Rel.keeps_bind (place_modArr _) fun _ => place_modRun fun _ => rfl
  exact Rel.keeps_ite (fun _ => Rel.keeps_bind hload fun _ => place_modRun fun _ => rfl) fun _ => Rel.keeps_pure ()

theorem keeps_readCodes {R : Rel} (H : AccessRel R) (r : Req) (af : Nat) (as : List (Option CodeAt)) :
    R.Keeps (readCodes r af as) :=
  Rel.keeps_bind (keeps_Req_gather H r _) fun _ => Rel.keeps_pure _

/-! ### A direct step in two parts: its operands, and its sums -/

/-- The part of a direct step before its sums, with the four codes of every lane for answer (R103, R106, R117). -/
def directCodes (g : TileId) (c : CmdWord) (d : Nat) (p : Pos) (k : Nat) (ups : List Upset) : M (List (List Int)) := do
  clearLanes g p
  parityCheck g c p k ups
  mapAll (List.range 4) fun i => readCodes (ownReq g 1 0) (afmtOf c)
    ((List.range 128).map fun l => directCode d (afmtOf c) p.row l (4 * p.step c + i))

/-- The product of int8 weight `i` of a lane and the code at that tap (R103). -/
def directProduct (ws : List Byte) (cs : List (List Int)) (l i : Nat) : Int :=
  sext 8 (ws.getD i 0).toNat * (cs.getD i []).getD l 0

/-- What a direct step adds to each lane of an image: the sum of its four products, with that of their residues. -/
def directSums (img : List Byte) (cs : List (List Int)) : List (Int × Int) :=
  (chunks 8 128 img).zipIdx.map fun e =>
    let ps := (List.range 4).map (directProduct e.1 cs e.2)
    (ps.foldl (· + ·) 0, ps.foldl (fun s x => s + (res255 x : Int)) 0)

theorem directStepAt_eq (c : CmdWord) (d : Nat) (p : Pos) (k : Nat) (ups : List Upset) :
    directStepAt g c d p k ups = directCodes g c d p k ups >>= fun cs => getTile g >>= fun t =>
      addLanes g p.r k ups (directSums (t.arr.image p.q) cs) := by
  simp only [directCodes, M.bind_assoc']
  rfl

theorem place_directCodes (c : CmdWord) (d : Nat) (p : Pos) (k : Nat) (ups : List Upset) :
    (Rel.same (arrayPlace g)).Keeps (directCodes g c d p k ups) :=
  Rel.keeps_bind (place_clearLanes p) fun _ => Rel.keeps_bind (place_parityCheck c p k ups) fun _ =>
    Rel.keeps_mapAll fun _ _ => place_of_core (keeps_readCodes (accessRel_tileCore g) _ _ _)

theorem directStepAt_of_codes {c : CmdWord} {d k : Nat} {p : Pos} {ups : List Upset} {cs : List (List Int)}
    (h : directCodes g c d p k ups s = .ok cs s') :
    directStepAt g c d p k ups s = addLanes g p.r k ups (directSums ((s'.tile g).arr.image p.q) cs) s' := by
  rw [directStepAt_eq, M.bind_ok h]
  rfl

/-- The lanes of a step image after the step's sums, each with its upset (R64, R103, R112). -/
def addedLanes (lanes : List Lane) (sums : List (Int × Int)) (k : Nat) (ups : List Upset) : List Lane :=
  (lanes.zip sums).zipIdx.map fun e =>
    let x := e.1.1.add e.1.2.1 e.1.2.2
    { x with v := held 22 (x.v + upsetOf ups k e.2) }

theorem getElem?_addedLanes {lanes : List Lane} {sums : List (Int × Int)} {k l : Nat} {ups : List Upset} {x : Lane}
    {y : Int × Int} (hx : lanes[l]? = some x) (hy : sums[l]? = some y) : (addedLanes lanes sums k ups)[l]? =
      some ⟨held 22 (held 22 (x.v + y.1) + upsetOf ups k l), res255 ((x.res : Int) + y.2)⟩ := by
  have hxy : (lanes.zip sums)[l]? = some (x, y) := List.getElem?_zip_eq_some.2 ⟨hx, hy⟩
  simp [addedLanes, Lane.add, List.getElem?_zipIdx, hxy]

theorem getElem?_directSums {img ws : List Byte} {cs : List (List Int)} {l : Nat} (h : (chunks 8 128 img)[l]? = some ws) :
    (directSums img cs)[l]? = some
      (directProduct ws cs l 0 + directProduct ws cs l 1 + directProduct ws cs l 2 + directProduct ws cs l 3,
        ((res255 (directProduct ws cs l 0) + res255 (directProduct ws cs l 1) + res255 (directProduct ws cs l 2) +
          res255 (directProduct ws cs l 3) : Nat) : Int)) := by
  simp [directSums, List.getElem?_zipIdx, h, List.range_succ]

theorem getElem?_addedLanes_directSums {lanes : List Lane} {img ws : List Byte} {cs : List (List Int)} {k l : Nat}
    {ups : List Upset} {x : Lane} (hx : lanes[l]? = some x) (hw : (chunks 8 128 img)[l]? = some ws) :
    (addedLanes lanes (directSums img cs) k ups)[l]? =
      some ⟨held 22 (held 22 (x.v + (directProduct ws cs l 0 + directProduct ws cs l 1 + directProduct ws cs l 2 +
          directProduct ws cs l 3)) + upsetOf ups k l),
        res255 (x.res + (res255 (directProduct ws cs l 0) + res255 (directProduct ws cs l 1) +
          res255 (directProduct ws cs l 2) + res255 (directProduct ws cs l 3) : Nat))⟩ := by
  rw [getElem?_addedLanes hx (getElem?_directSums hw)]

theorem addLanes_ok (r k : Nat) (ups : List Upset) (sums : List (Int × Int)) : ∃ t,
    addLanes g r k ups sums s = .ok () t ∧ (t.tile g).arr.laneRow r = addedLanes ((s.tile g).arr.laneRow r) sums k ups ∧
      (t.tile g).units = (s.tile g).units :=
  ⟨_, rfl, by simp [ArrayMem.laneRow, addedLanes], by simp⟩

/-! ### The whole of a direct step -/

/-- The unit does not finish while rows are left to run or to promote. -/
theorem arrayFinish_waits {c : Active} {x : ArrayRun} (hc : (s.tile g).head .array = some c)
    (hx : (s.tile g).units.arrayRun = some x) (hleft : x.pos.done (rowCount c.bits x) = false ∨ x.promo ≠ []) :
    arrayFinish g s = .ok () s := by
  rcases hleft with h | h <;> simp [arrayFinish, arrayHead, hc, hx, h]

theorem directStepOp_ready {c : Active} {r : ArrayRun} {ups : List Upset} (h : arrayAt s g c r) (hop : c.op = Op.direct)
    (hready : stepReady c.bits r = true) : directStepOp g ups s =
      (directStepAt g c.bits r.desc r.pos 0 ups >>= fun _ => stepDone g c.bits r) s := by
  obtain ⟨hc, hr, -⟩ := h
  simp [directStepOp, arrayHead, hc, hr, hop, hready]

/-- A direct step whose operands are there answers: what each lane holds then, where the unit stands, and the frame. -/
theorem directStep_answers {c : Active} {r : ArrayRun} {cs : List (List Int)} {ups : List Upset} (h : arrayAt s g c r)
    (hop : c.op = Op.direct) (hready : stepReady c.bits r = true)
    (hcodes : directCodes g c.bits r.desc r.pos 0 ups (dropUsed s) = .ok cs s') :
    answers (.directStep g ups) s fun t =>
      (t.tile g).arr.laneRow r.pos.r = addedLanes ((s'.tile g).arr.laneRow r.pos.r)
        (directSums ((s'.tile g).arr.image r.pos.q) cs) 0 ups ∧
      (r.pos.q + 1 < stepsIn c.bits r.pos.sc →
        (t.tile g).units.arrayRun.map ArrayRun.pos = some { r.pos with q := r.pos.q + 1 } ∧ regsKept s' t []) ∧
      ArrayFrame g [(.tile g .lut, LUT.RETRY)] s' t := by
  have hbin : opOf c.bits ≠ Op.bin := fun e => absurd (hop.symm.trans e) (by decide)
  have hdone : r.pos.done (rowCount c.bits r) = false := by
    simp only [stepReady, Bool.and_eq_true, Bool.not_eq_true'] at hready
    obtain ⟨⟨⟨hdone, -⟩, -⟩, -⟩ := hready
    exact hdone
  have hplace : arrayPlace g s' = (some c, some r.pos) := by
    obtain ⟨hc, hr, -⟩ := h
    rw [(place_directCodes ..).ok hcodes]
    simp [arrayPlace, hc, hr]
  obtain ⟨hc, hpos⟩ := Prod.ext_iff.1 hplace
  obtain ⟨x, hx, hxpos⟩ := Option.map_eq_some_iff.1 hpos
  obtain ⟨t1, ht1, hlanes, hunits⟩ := addLanes_ok (s := s') (g := g) r.pos.r 0 ups
    (directSums ((s'.tile g).arr.image r.pos.q) cs)
  obtain ⟨t2, x', ht2, hx', hlanes', hleft, hnext⟩ := stepDone_ok (c := c.bits) hbin (hunits ▸ hx) hxpos
  have hframe : ∀ l, (stepsIn c.bits r.pos.sc ≤ r.pos.q + 1 → (.tile g .lut, LUT.RETRY) ∈ l) →
      ArrayFrame g l s' (dropUsed t2) := fun l hl =>
    (((frame_addLanes ..).ok ht1).trans ((frame_stepDone hl).ok ht2)).trans (.dropUsed t2)
  have hstep : directStepOp g ups (dropUsed s) = .ok () t2 := by
    rw [directStepOp_ready (arrayAt_dropUsed h) hop hready, M.bind_ok ((directStepAt_of_codes hcodes).trans ht1), ht2]
  have hcend : ((dropUsed t2).tile g).head .array = some c :=
    (hframe [(.tile g .lut, LUT.RETRY)] (by simp)).head.trans hc
  have hfinish : arrayFinish g (dropUsed t2) = .ok () (dropUsed t2) := by
    refine arrayFinish_waits hcend hx' (hleft.imp_left fun hrb => ?_)
    simpa only [Pos.done, rowCount, if_neg hbin, hrb] using hdone
  have hrest : arrayRest g (dropUsed t2) = .ok () (dropUsed t2) := by simp [arrayRest, hx']
  refine ⟨dropUsed t2, ?_, ?_, fun hq => ⟨?_, ?_⟩, hframe _ (by simp)⟩
  · show M.next (arrayMicro g (directStepOp g ups)) s = _
    rw [M.next_eq]
    exact congrArg _ (M.after_of_ok ((M.bind_ok (arrayDo_begun h hdone)).trans (arrayDo_ok hstep hfinish hrest)))
  · rw [← hlanes]
    simp only [dropUsed_tile, ArrayMem.laneRow, hlanes']
  · rw [dropUsed_tile, hx', Option.map_some, hnext hq]
  · exact (hframe [] fun hle => absurd hq (Nat.not_lt.2 hle)).regs

/-! ### Operands that the scratchpad serves -/

theorem clearLanes_ok (p : Pos) : ∃ t, clearLanes g p s = .ok () t ∧
    (t.tile g).arr.laneRow p.r = (if p.q = 0 then List.replicate 128 ⟨0, 0⟩ else (s.tile g).arr.laneRow p.r) ∧
      (t.tile g).arr.window = (s.tile g).arr.window := by
  unfold clearLanes
  by_cases hq : p.q = 0
  · simp only [if_pos hq, M.bind_apply, modArr_apply, modRun_apply]
    exact ⟨_, rfl, by simp [ArrayMem.laneRow], by simp⟩
  · simp only [if_neg hq]
    exact ⟨s, rfl, rfl, rfl⟩

theorem loadWindow_ok {c : CmdWord} {rb sc : Nat}
    (h : spdServes s g 0 .r (wstreamOf c + 1024 * (sc * pOf c)) (1024 * stepsIn c sc)) :
    ∃ t, loadWindow g c rb sc s = .ok () t ∧ ArrayFrame g [] s t ∧ (t.tile g).arr =
      { (s.tile g).arr with
        window := (s.tile g).spd.data.read (wstreamOf c + 1024 * (sc * pOf c)) (1024 * stepsIn c sc) } := by
  obtain ⟨ports, n, hread⟩ := (readsAs_read (u := 0) h).ok
  unfold loadWindow
  rw [M.bind_ok hread]
  simp only [M.bind_apply, modArr_apply, modRun_apply]
  refine ⟨_, rfl, ArrayFrame.trans (t := (s.served g ports n).mapArr g _) ?_ (.mapRun _), by simp⟩
  exact ArrayFrame.trans (.served ports n) (.mapArr fun _ => ⟨rfl, rfl⟩)

/-- Bad parity reloads the window from the stream; lanes stay (R117). -/
theorem parityCheck_ok {c : CmdWord} {p : Pos} {k : Nat} {ups : List Upset} (h : parityLanes ups k = [] ∨
      spdServes s g 0 .r (wstreamOf c + 1024 * (p.sc * pOf c)) (1024 * stepsIn c p.sc)) :
    ∃ t, parityCheck g c p k ups s = .ok () t ∧ ArrayFrame g [] s t ∧ (t.tile g).arr =
      { (s.tile g).arr with window := if parityLanes ups k = [] then (s.tile g).arr.window else
          (s.tile g).spd.data.read (wstreamOf c + 1024 * (p.sc * pOf c)) (1024 * stepsIn c p.sc) } := by
  unfold parityCheck
  by_cases hp : parityLanes ups k = []
  · simp only [hp, ne_eq, not_true, if_false, if_true]
    exact ⟨s, rfl, .refl .., rfl⟩
  · obtain ⟨t, ht, hframe, harr⟩ := loadWindow_ok (rb := p.rb) (h.resolve_left hp)
    simp only [ne_eq, hp, not_false_eq_true, if_true, if_false]
    rw [M.bind_ok ht]
    exact ⟨_, rfl, hframe.trans (.mapRun _), by simp [harr]⟩

/-- Where the window's stream and the codes are served, a direct step has its operands (R103, R117, R198). -/
theorem directCodes_served {c : CmdWord} {d k : Nat} {p : Pos} {ups : List Upset}
    (hw : parityLanes ups k = [] ∨
      spdServes s g 0 .r (wstreamOf c + 1024 * (p.sc * pOf c)) (1024 * stepsIn c p.sc))
    (hcodes : ∀ i, i < 4 → codesServed s g
      ((List.range 128).map fun l => directCode d (afmtOf c) p.row l (4 * p.step c + i))) :
    ∃ cs s', directCodes g c d p k ups s = .ok cs s' ∧
      (∀ i l, i < 4 → l < 128 → (cs.getD i []).getD l 0 =
        codeHere s g (afmtOf c) (directCode d (afmtOf c) p.row l (4 * p.step c + i))) ∧
      ArrayFrame g [] s s' ∧
      (s'.tile g).arr.laneRow p.r = (if p.q = 0 then List.replicate 128 ⟨0, 0⟩ else (s.tile g).arr.laneRow p.r) ∧
      (s'.tile g).arr.window = if parityLanes ups k = [] then (s.tile g).arr.window else
        (s.tile g).spd.data.read (wstreamOf c + 1024 * (p.sc * pOf c)) (1024 * stepsIn c p.sc) := by
  obtain ⟨s1, h1, hlanes1, hwindow1⟩ := clearLanes_ok (s := s) (g := g) p
  have hframe1 : ArrayFrame g [] s s1 := (frame_clearLanes p).ok h1
  obtain ⟨s2, h2, hframe2, harr2⟩ := parityCheck_ok (hw.imp_right hframe1.spdServes)
  have hframe := hframe1.trans hframe2
  have hread : ReadsAs s2 g _ _ := ReadsAs.mapAll fun i hi =>
    readsAs_readCodes (u := 0) (af := afmtOf c) fun x hx => hframe.spdServes (hcodes i (List.mem_range.1 hi) x hx)
  obtain ⟨ports, n, h3⟩ := hread.ok
  have hrun : directCodes g c d p k ups s = _ := (M.bind_ok h1).trans ((M.bind_ok h2).trans h3)
  refine ⟨_, _, hrun, fun i l hi hl => ?_, hframe.trans (.served ports n), ?_, ?_⟩
  · simp [List.getD_eq_getElem?_getD, hi, hl, hframe.codeHere]
  · rw [← hlanes1]
    simp [harr2, ArrayMem.laneRow]
  · simp [harr2, hwindow1, hframe1.spd_data]

end Sys2Proof.Machine
end

section
/-! CLAIM. The statement about direct-mode steps. -/
namespace Sys2Proof.Machine

/-- Settles O26: a direct step is its operands and then its sums, both clauses by `directStep_answers`; where the
scratchpad serves, `directCodes_served` gives the operands. -/
theorem directStepAddsProducts : Obligations.DirectStepAddsProducts := by
  unfold Obligations.DirectStepAddsProducts
  constructor
  · intro s s' g c r cs ups h hop hready hcodes
    obtain ⟨t, ht, hlanes, hnext, hframe⟩ := directStep_answers h hop hready hcodes
    refine ⟨t, ht, fun l x w _ hx hw => ?_, hnext, hframe.regs, bytesKept_of_eq hframe.memories, hframe.tiles,
      hframe.parts⟩
    rw [hlanes]
    exact ⟨_, getElem?_addedLanes_directSums hx hw⟩
  · intro s g c r ups h hop hready a n hw m code hserved old
    obtain ⟨cs, s', hcodes, hcode, hframe', hold, hwindow⟩ := directCodes_served (s := dropUsed s) (k := 0) hw hserved
    obtain ⟨t, ht, hlanes, hnext, hframe⟩ := directStep_answers h hop hready hcodes
    have hold' : (s'.tile g).arr.laneRow r.pos.r = old := hold
    have himage : (s'.tile g).arr.image r.pos.q = m.image r.pos.q := by simp only [ArrayMem.image, hwindow]; rfl
    have hpre : ArrayFrame g [] s s' := (ArrayFrame.dropUsed s).trans hframe'
    have hall : ArrayFrame g [(.tile g .lut, LUT.RETRY)] s t := (hpre.mono (by simp)).trans hframe
    refine ⟨t, ht, fun l x w hl hx hwt => ?_, fun hq => ⟨(hnext hq).1, regsKept_trans hpre.regs (hnext hq).2⟩,
      hall.regs, bytesKept_of_eq hall.memories, hall.tiles, hall.parts⟩
    intro y
    have hy : ∀ i, i < 4 → directProduct w cs l i = y i := fun i hi => congrArg _ (hcode i l hi hl)
    rw [hlanes, hold', himage, getElem?_addedLanes_directSums hx hwt, hy 0 (by decide), hy 1 (by decide),
      hy 2 (by decide), hy 3 (by decide)]

end Sys2Proof.Machine
end

section
/-! SUPPORT. Rounding and saturation: what `roundEven`, `shiftRound`, `requant`, `codeOf` and `promoteEntry` answer
(R121, R137, R138, R164, R174). -/
namespace Sys2Proof.Machine

/-! ### Rounding to the nearest integer -/

/-- The floor stands below the middle or on it where it is even; its successor above the middle or on it where the floor is
odd. -/
theorem roundEven_cases (num : Int) (den : Nat) :
    (roundEven num den = num / den ∧
      (2 * (num % den) < den ∨ 2 * (num % den) = den ∧ num / den % 2 = 0)) ∨
    (roundEven num den = num / den + 1 ∧
      ((den : Int) < 2 * (num % den) ∨ 2 * (num % den) = den ∧ num / den % 2 = 1)) := by
  unfold roundEven
  by_cases hbelow : 2 * (num % den) < den
  · exact .inl ⟨if_pos hbelow, .inl hbelow⟩
  · by_cases habove : 2 * (num % den) > den
    · exact .inr ⟨by rw [if_neg hbelow, if_pos habove], .inl habove⟩
    · have htie : 2 * (num % den) = den := by omega
      by_cases heven : num / den % 2 = 0
      · exact .inl ⟨by rw [if_neg hbelow, if_neg habove, if_pos heven], .inr ⟨htie, heven⟩⟩
      · exact .inr ⟨by rw [if_neg hbelow, if_neg habove, if_neg heven], .inr ⟨htie, by omega⟩⟩

/-- The error is at most half the divisor, and the result is even where it is exactly half. -/
theorem roundEven_error (num : Int) {den : Nat} (hden : 0 < den) :
    let e := num - den * roundEven num den
    2 * e ≤ den ∧ -den ≤ 2 * e ∧ (2 * e = den ∨ 2 * e = -den → roundEven num den % 2 = 0) := by
  intro e
  have hfloor : num = den * (num / den) + num % den := (Int.mul_ediv_add_emod num den).symm
  have hlow : 0 ≤ num % den := Int.emod_nonneg _ (by omega)
  have hhigh : num % den < den := Int.emod_lt_of_pos _ (by omega)
  rcases roundEven_cases num den with ⟨hr, hside⟩ | ⟨hr, hside⟩
  · have he : e = num % den := by simp only [e, hr]; omega
    rw [he, hr]
    omega
  · have he : e = num % den - den := by simp only [e, hr, Int.mul_add]; omega
    rw [he, hr]
    omega

/-! ### Rounding with a dither value -/

/-- Adding a dither value `d` before the floor rounds up exactly where `d` reaches the rest of the way (R121). -/
theorem add_dither_ediv {m q f d : Int} (hf : 0 ≤ f) (hfm : f < m) (hd : 0 ≤ d) (hdm : d < m) :
    (q * m + f + d) / m = if m - f ≤ d then q + 1 else q := by
  have hm : 0 < m := by omega
  by_cases hup : m - f ≤ d
  · rw [if_pos hup, Int.ediv_eq_iff_of_pos hm, Int.add_mul]
    omega
  · rw [if_neg hup, Int.ediv_eq_iff_of_pos hm]
    omega

/-- Of the `a + b` smallest naturals `b` are `a` or more. -/
theorem length_filter_le_range_add (a b : Nat) :
    ((List.range (a + b)).filter fun x => decide (a ≤ x)).length = b := by
  have hlow : (List.range a).filter (fun x => decide (a ≤ x)) = [] := by simp
  have hhigh : ((List.range b).map (a + ·)).filter (fun x => decide (a ≤ x)) = (List.range b).map (a + ·) := by
    simp
  rw [List.range_add, List.filter_append, hlow, hhigh, List.nil_append, List.length_map, List.length_range]

/-- `f` of the `m` dither values round up (R121). -/
theorem count_dither_up {m : Nat} {f : Int} (hf : 0 ≤ f) (hfm : f < m) :
    ((List.range m).filter fun (x : Nat) => decide ((m : Int) - f ≤ x)).length = f.toNat := by
  obtain ⟨n, rfl⟩ := Int.eq_ofNat_of_zero_le hf
  obtain ⟨a, rfl⟩ := Nat.exists_eq_add_of_le' (show n ≤ m by omega)
  have hcond : (fun (x : Nat) => decide (((a + n : Nat) : Int) - (n : Int) ≤ x)) = fun x => decide (a ≤ x) := by
    funext x
    exact decide_eq_decide.2 (by omega)
  rw [hcond, length_filter_le_range_add, Int.toNat_natCast]

/-- The upper `k` bits of a 16-bit field (R124). -/
theorem shiftRight_lt_two_pow {k field : Nat} (hk : k ≤ 16) (hfield : field < 2 ^ 16) :
    field >>> (16 - k) < 2 ^ k := by
  rw [Nat.shiftRight_eq_div_pow, Nat.div_lt_iff_lt_mul (Nat.two_pow_pos _), ← Nat.pow_add, Nat.add_sub_cancel' hk]
  exact hfield

/-! ### The promotion unit (R121, R137, R138) -/

@[simp] theorem shiftRound_zero (stoch : Bool) (field : Nat) (v : Int) : shiftRound stoch 0 field v = v := rfl

theorem shiftRound_stoch {k : Nat} (hk : 0 < k) (field : Nat) (v : Int) :
    shiftRound true k field v = (v + (field >>> (16 - k) : Nat)) / 2 ^ k := by
  simp [shiftRound, Nat.ne_of_gt hk]

/-- A stochastic promotion rounds up exactly for the `f` largest of its `2 ^ k` dither values (R121). -/
theorem shiftRound_stoch_spec {k field : Nat} {v q f : Int} (hk : 0 < k) (hk15 : k ≤ 15) (hfield : field < 2 ^ 16)
    (hv : v = q * 2 ^ k + f) (hf : 0 ≤ f) (hfk : f < 2 ^ k) :
    let d : Nat := field >>> (16 - k)
    d < 2 ^ k ∧ shiftRound true k field v = (if 2 ^ k - f ≤ d then q + 1 else q) ∧
      2 ^ k * shiftRound true k field v ≤ v + d ∧ v + d < 2 ^ k * (shiftRound true k field v + 1) ∧
      ((List.range (2 ^ k)).filter fun (x : Nat) => decide (2 ^ k - f ≤ (x : Int))).length = f.toNat := by
  intro d
  have hd : d < 2 ^ k := shiftRight_lt_two_pow (by omega) hfield
  have hpos : (0 : Int) < 2 ^ k := Int.pow_pos (by decide)
  rw [shiftRound_stoch hk]
  refine ⟨hd, ?_, Int.mul_ediv_self_le (Int.ne_of_gt hpos), ?_, by simpa using count_dither_up (m := 2 ^ k) hf (mod_cast hfk)⟩
  · rw [hv]
    exact add_dither_ediv hf hfk (Int.natCast_nonneg d) (mod_cast hd)
  · rw [Int.mul_comm]
    exact Int.lt_ediv_add_one_mul_self _ hpos

theorem shiftRound_nearest {k : Nat} (hk : 0 < k) (field : Nat) (v : Int) :
    shiftRound false k field v = roundEven v (2 ^ k) := by
  simp [shiftRound, Nat.ne_of_gt hk]

theorem shiftRound_nearest_error {k : Nat} (hk : 0 < k) (field : Nat) (v : Int) :
    let e : Int := v - 2 ^ k * shiftRound false k field v
    2 * e ≤ 2 ^ k ∧ -2 ^ k ≤ 2 * e ∧ (2 * e = 2 ^ k ∨ 2 * e = -2 ^ k → shiftRound false k field v % 2 = 0) := by
  rw [shiftRound_nearest hk]
  simpa using roundEven_error v (Nat.two_pow_pos k)

theorem accMax_eq : accMax = 2 ^ 31 - 1 := by decide

theorem clampSum_of_accMax_le {t : Int} (h : accMax ≤ t) : clampSum t = (accMax, true) := if_pos h

theorem clampSum_of_le_neg_accMax {t : Int} (h : t ≤ -accMax) : clampSum t = (-accMax, true) := by
  have hpos : 0 < accMax := by decide
  have hnot : ¬ accMax ≤ t := by omega
  rw [clampSum, if_neg hnot, if_pos h]

theorem clampSum_of_inside {t : Int} (hlow : -accMax < t) (hhigh : t < accMax) : clampSum t = (t, false) := by
  rw [clampSum, if_neg (Int.not_le.2 hhigh), if_neg (Int.not_le.2 hlow)]

/-- A promotion clamps its sum unless it adds to a saturated entry (R137). -/
theorem promoteEntry_of_unsaturated {fresh : Bool} {old : Int} (u : Int)
    (h : fresh = true ∨ (old ≠ accMax ∧ old ≠ -accMax)) :
    promoteEntry fresh old u = clampSum (if fresh then u else old + u) := by
  cases fresh with
  | true => rfl
  | false =>
    obtain ⟨hmax, hmin⟩ := h.resolve_left Bool.false_ne_true
    simp [promoteEntry, stickyAdd, hmax, hmin]

/-- An adding promotion leaves a saturated entry (R138). -/
theorem promoteEntry_of_saturated {old : Int} (u : Int) (h : old = accMax ∨ old = -accMax) :
    promoteEntry false old u = (old, true) := if_pos h

/-! ### Requantisation and codes (R164, R174) -/

theorem requant_of_sh_le {r k : Nat} (e : Int) (h : Param.sh r ≤ k) :
    requant e r k = e * Param.m r * 2 ^ (k - Param.sh r) + Param.b r := by
  simp [requant, Nat.not_lt.2 h]

theorem requant_of_lt_sh {r k : Nat} (e : Int) (h : k < Param.sh r) :
    requant e r k = roundEven (e * Param.m r) (2 ^ (Param.sh r - k)) + Param.b r := by
  simp [requant, h]

theorem requant_error {r k : Nat} (e : Int) (h : k < Param.sh r) :
    let d : Int := 2 ^ (Param.sh r - k)
    let y0 := requant e r k - Param.b r
    2 * (e * Param.m r - y0 * d) ≤ d ∧ -d ≤ 2 * (e * Param.m r - y0 * d) ∧
      (2 * (e * Param.m r - y0 * d) = d ∨ 2 * (e * Param.m r - y0 * d) = -d → y0 % 2 = 0) := by
  intro d y0
  have hy0 : y0 = roundEven (e * Param.m r) (2 ^ (Param.sh r - k)) := by
    simp only [y0, requant_of_lt_sh e h, Int.add_sub_cancel]
  rw [hy0, Int.mul_comm _ d]
  simpa using roundEven_error (e * Param.m r) (Nat.two_pow_pos (Param.sh r - k))

theorem codeOf_bounds (sr : Bool) (q field : Nat) (r : Frac) :
    -(q : Int) ≤ (codeOf sr q field r).1 ∧ (codeOf sr q field r).1 ≤ q := by
  unfold codeOf
  generalize (if sr then (r.add ⟨field, 65536⟩).floor else r.nearest) = k
  by_cases hclip : (q : Int) < k.natAbs
  · by_cases hsign : 0 < r.num
    · simp only [if_pos hclip, if_pos hsign]
      omega
    · simp only [if_pos hclip, if_neg hsign]
      omega
  · simp only [if_neg hclip]
    omega

end Sys2Proof.Machine
end

section
/-! CLAIM. The statement about the arithmetic of promotion and conversion. -/
namespace Sys2Proof.Machine

/-- Settles O33: requantisation and NEAREST promotion by the error of `roundEven`, STOCH by the dither added before the
floor, codes by their clip, and promoted entries by the cases of the clamp. -/
theorem conversionArithmetic : Obligations.ConversionArithmetic := by
  unfold Obligations.ConversionArithmetic
  refine ⟨fun e r k h => requant_of_sh_le e h, fun e r k h => requant_error e h, shiftRound_zero,
    fun k field v q f hk hk15 hfield hv hf hfk => shiftRound_stoch_spec hk hk15 hfield hv hf hfk,
    fun k field v hk => shiftRound_nearest_error hk field v, codeOf_bounds, ?_, ?_⟩
  · rw [← accMax_eq]
    intro fresh old u t m hfree
    rw [promoteEntry_of_unsaturated u hfree]
    exact ⟨clampSum_of_accMax_le, clampSum_of_le_neg_accMax, fun ⟨hlow, hhigh⟩ => clampSum_of_inside hlow hhigh⟩
  · rw [← accMax_eq]
    exact fun u => ⟨promoteEntry_of_saturated u (.inl rfl), promoteEntry_of_saturated u (.inr rfl)⟩

end Sys2Proof.Machine
end
